-- ==== Sys2Proof/Word.lean ====
section
/-!
DEFINITION. The plain words of the device and the sorted lists that hold its sparse tables.
Multi-byte values are little-endian (R3); element i of width w lies at bits w*i and up (R27).
-/

namespace Sys2Proof

/-- One byte. -/
abbrev Byte := BitVec 8
/-- A 64-bit word: scalar, uniform and policy registers, one strand's share of a vector register. -/
abbrev Word := BitVec 64

/-- The entry of a sparse table at a key, if the table holds one. -/
def aget {α : Type} : List (Nat × α) → Nat → Option α
  | [], _ => none
  | (k, v) :: t, n => if n = k then some v else aget t n

/-- Sets the entry of a sparse table at a key; the keys stay rising. -/
def aput {α : Type} : List (Nat × α) → Nat → α → List (Nat × α)
  | [], n, x => [(n, x)]
  | (k, v) :: t, n, x =>
    if n < k then (n, x) :: (k, v) :: t
    else if n = k then (n, x) :: t
    else (k, v) :: aput t n x

/-- Takes the entry at a key out of a sparse table. -/
def adel {α : Type} : List (Nat × α) → Nat → List (Nat × α)
  | [], _ => []
  | (k, v) :: t, n => if n = k then t else (k, v) :: adel t n

/-- Applies a function to the entry at a key, where there is one. -/
def amod {α : Type} : List (Nat × α) → Nat → (α → α) → List (Nat × α)
  | [], _, _ => []
  | (k, v) :: t, n, f => if n = k then (k, f v) :: t else (k, v) :: amod t n f

/-- The numbers lo, lo+1, …, lo+n-1. -/
def upFrom (lo : Nat) : Nat → List Nat
  | 0 => []
  | n + 1 => lo :: upFrom (lo + 1) n

/-- A Boolean as a number. -/
def b2n (b : Bool) : Nat := if b then 1 else 0

/-- A Boolean as a 64-bit word. -/
def b2w (b : Bool) : Word := if b then 1#64 else 0#64

end Sys2Proof
end

