-- ==== Sys2Proof/Config.lean ====
section
/-!
DEFINITION. What the specification leaves open, as constants without a body: nothing proved here can see a value of them.
-/

namespace Sys2Proof

/-- An undefined value (R8): the value that read number `n` of a run sees at read site `site`.
Assumption log entry 1. -/
opaque Config.freeWord : Nat → Nat → BitVec 64

/-- The correctly rounded result of a transcendental operation whose rounding the model's interval evaluation does not
decide at its highest precision: the operation's number and its operands' bits give it (entry 2). -/
opaque Config.undecided : Nat → Nat → Nat → Nat

/-- The bytes of an XMSS signature over a message: the hash scheme is not given by the specification (entry 3). -/
opaque Config.xmssSign : Nat → List (BitVec 8) → List (BitVec 8)

/-- The measurement digests that the security block reports (entry 3). -/
opaque Config.measurement : Nat → Nat

/-- The 128-bit code that KMAC256 gives a control-port frame under a partition's tenant key: the specification names the scheme and gives no
key (R406; entry 117). -/
opaque Config.kmac : Nat → List (BitVec 8) → BitVec 128

end Sys2Proof
end

