-- ==== Sys2Proof/Machine/Flags.lean ====
section
/-!
DEFINITION. The sticky flags of a band's and a sequencer's flag word (R35).
-/

namespace Sys2Proof.Machine

/-- The ten flags of R35, bit for bit as the flag word holds them. -/
abbrev Flags := BitVec 10

/-- Inexact (R35 [0]). -/
def fNX : Flags := 0x001#10
/-- Tiny and inexact (R35 [1]). -/
def fUF : Flags := 0x002#10
/-- IEEE overflow (R35 [2]). -/
def fOF : Flags := 0x004#10
/-- Division by zero (R35 [3]). -/
def fDZ : Flags := 0x008#10
/-- Invalid operation or signalling operand (R35 [4]). -/
def fINV : Flags := 0x010#10
/-- A non-finite value was produced (R35 [5]). -/
def fNF : Flags := 0x020#10
/-- A result was clamped (R35 [6]). -/
def fSAT : Flags := 0x040#10
/-- An SLI level rose (R35 [7]). -/
def fLXU : Flags := 0x080#10
/-- An SLI level fell (R35 [8]). -/
def fLXD : Flags := 0x100#10
/-- A shuffle read a dead strand (R35 [9]). -/
def fDRD : Flags := 0x200#10

/-- A flag when a condition holds. -/
def fIf (c : Bool) (f : Flags) : Flags := if c then f else 0#10

/-- The flag word after flags are merged into it (R37): OR, and the reserved bits stay zero. -/
def mergeFlags (w : Word) (f : Flags) : Word := w ||| f.setWidth 64

/-- A CSR write of ones clears flags (R35, W1C). -/
def clearFlags (w x : Word) : Word := w &&& ~~~x

end Sys2Proof.Machine
end

