-- ==== Sys2Proof/Syntax.lean ====
section
/-!
DEFINITION. The instructions of the three instruction sets and the other steps of the device: one constructor per row of
the opcode table. An instruction's constructor holds the fields that its description reads; a field it does not use must be
zero in the encoding (R5), so it is no operand. The other steps, which no program word names (a control-node command, an
engine's or a link's event), take their operands from the request record of the state.
-/

namespace Sys2Proof

/-- A slot's predicate: a condition register, and whether it is negated (R60). -/
structure Pred where
  pc : BitVec 4
  ng : Bool
deriving DecidableEq, Repr

/-- The header of a lane instruction: the negate bit N, the predicate, and the bits U and DP (R77). -/
structure LHdr where
  neg : Bool
  pred : BitVec 4
  u : Bool
  dp : Bool
deriving DecidableEq, Repr

/-- The V form of a lane instruction's body (R83, R85). -/
structure VForm where
  ty : BitVec 4
  dst : BitVec 8
  a : BitVec 8
  b : BitVec 8
  c : BitVec 8
  rm : BitVec 2
  md : Bool
  sat : Bool
  fn : BitVec 4
  xt : BitVec 4
deriving DecidableEq, Repr

/-- The I form of a lane instruction's body (R83). -/
structure IForm where
  ty : BitVec 4
  dst : BitVec 8
  a : BitVec 8
  imm : BitVec 28
deriving DecidableEq, Repr

/-- The M form of a lane instruction's body (R83, R85). -/
structure MForm where
  ty : BitVec 4
  dst : BitVec 8
  a : BitVec 8
  off : BitVec 20
  opx : BitVec 4
  scope : BitVec 3
deriving DecidableEq, Repr

/-- The steps of the device, one constructor per row of the opcode table. -/
inductive Instr where
  /-- No operation in a slot (R60, R61). -/
  | seqNop
  /-- ADD (R144). -/
  | seqAdd (p : Pred) (d : BitVec 6) (a : BitVec 6) (b : BitVec 6)
  /-- ADD with an immediate (R144). -/
  | seqAddImm (p : Pred) (d : BitVec 6) (a : BitVec 6) (imm : BitVec 23)
  /-- SUB (R144). -/
  | seqSub (p : Pred) (d : BitVec 6) (a : BitVec 6) (b : BitVec 6)
  /-- SUB with an immediate (R144). -/
  | seqSubImm (p : Pred) (d : BitVec 6) (a : BitVec 6) (imm : BitVec 23)
  /-- MUL (R144). -/
  | seqMul (p : Pred) (d : BitVec 6) (a : BitVec 6) (b : BitVec 6)
  /-- MUL with an immediate (R144). -/
  | seqMulImm (p : Pred) (d : BitVec 6) (a : BitVec 6) (imm : BitVec 23)
  /-- MULH, MULH.U (R144). -/
  | seqMulh (p : Pred) (d : BitVec 6) (a : BitVec 6) (b : BitVec 6) (u : Bool)
  /-- AND (R144). -/
  | seqAnd (p : Pred) (d : BitVec 6) (a : BitVec 6) (b : BitVec 6)
  /-- AND with an immediate (R144). -/
  | seqAndImm (p : Pred) (d : BitVec 6) (a : BitVec 6) (imm : BitVec 23)
  /-- OR (R144). -/
  | seqOr (p : Pred) (d : BitVec 6) (a : BitVec 6) (b : BitVec 6)
  /-- OR with an immediate (R144). -/
  | seqOrImm (p : Pred) (d : BitVec 6) (a : BitVec 6) (imm : BitVec 23)
  /-- XOR (R144). -/
  | seqXor (p : Pred) (d : BitVec 6) (a : BitVec 6) (b : BitVec 6)
  /-- XOR with an immediate (R144). -/
  | seqXorImm (p : Pred) (d : BitVec 6) (a : BitVec 6) (imm : BitVec 23)
  /-- ANDN (R144). -/
  | seqAndn (p : Pred) (d : BitVec 6) (a : BitVec 6) (b : BitVec 6)
  /-- SHL (R144). -/
  | seqShl (p : Pred) (d : BitVec 6) (a : BitVec 6) (b : BitVec 6)
  /-- SHL with an immediate (R144). -/
  | seqShlImm (p : Pred) (d : BitVec 6) (a : BitVec 6) (sh : BitVec 6)
  /-- SHR (R144). -/
  | seqShr (p : Pred) (d : BitVec 6) (a : BitVec 6) (b : BitVec 6)
  /-- SHR with an immediate (R144). -/
  | seqShrImm (p : Pred) (d : BitVec 6) (a : BitVec 6) (sh : BitVec 6)
  /-- SAR (R144). -/
  | seqSar (p : Pred) (d : BitVec 6) (a : BitVec 6) (b : BitVec 6)
  /-- SAR with an immediate (R144). -/
  | seqSarImm (p : Pred) (d : BitVec 6) (a : BitVec 6) (sh : BitVec 6)
  /-- MIN, MIN.U (R144). -/
  | seqMin (p : Pred) (d : BitVec 6) (a : BitVec 6) (b : BitVec 6) (u : Bool)
  /-- MIN with an immediate (R144). -/
  | seqMinImm (p : Pred) (d : BitVec 6) (a : BitVec 6) (imm : BitVec 23)
  /-- MAX, MAX.U (R144). -/
  | seqMax (p : Pred) (d : BitVec 6) (a : BitVec 6) (b : BitVec 6) (u : Bool)
  /-- MAX with an immediate (R144). -/
  | seqMaxImm (p : Pred) (d : BitVec 6) (a : BitVec 6) (imm : BitVec 23)
  /-- CMP (R145). -/
  | seqCmp (p : Pred) (d : BitVec 4) (a : BitVec 6) (b : BitVec 6) (cc : BitVec 3)
  /-- CMP with an immediate (R145). -/
  | seqCmpImm (p : Pred) (d : BitVec 4) (a : BitVec 6) (cc : BitVec 3) (imm : BitVec 19)
  /-- SEL (R146). -/
  | seqSel (p : Pred) (d : BitVec 6) (c : BitVec 4) (a : BitVec 6) (b : BitVec 6)
  /-- MOV (R146). -/
  | seqMov (p : Pred) (d : BitVec 6) (a : BitVec 6)
  /-- MOVI (R146). -/
  | seqMovi (p : Pred) (d : BitVec 6) (imm : BitVec 23)
  /-- MOVH (R146). -/
  | seqMovh (p : Pred) (d : BitVec 6) (q : BitVec 2) (imm : BitVec 16)
  /-- FADD in FP32 (R147). -/
  | seqFadd (p : Pred) (d : BitVec 6) (a : BitVec 6) (b : BitVec 6) (rm : BitVec 2) (md : Bool)
  /-- FSUB in FP32 (R147). -/
  | seqFsub (p : Pred) (d : BitVec 6) (a : BitVec 6) (b : BitVec 6) (rm : BitVec 2) (md : Bool)
  /-- FMUL in FP32 (R147). -/
  | seqFmul (p : Pred) (d : BitVec 6) (a : BitVec 6) (b : BitVec 6) (rm : BitVec 2) (md : Bool)
  /-- FFMA in FP32 (R147). -/
  | seqFfma (p : Pred) (d : BitVec 6) (a : BitVec 6) (b : BitVec 6) (c : BitVec 6) (rm : BitVec 2) (md : Bool)
  /-- FCMP (R148). -/
  | seqFcmp (p : Pred) (d : BitVec 4) (a : BitVec 6) (b : BitVec 6) (cc : BitVec 3)
  /-- CVT (R149). -/
  | seqCvt (p : Pred) (d : BitVec 6) (a : BitVec 6) (rm : BitVec 2) (md : Bool) (dst : BitVec 4) (src : BitVec 4)
  /-- CHK (R142). -/
  | seqChk (p : Pred) (a : BitVec 6) (b : BitVec 6)
  /-- LDS (R150). -/
  | seqLds (p : Pred) (d : BitVec 6) (a : BitVec 6) (sp : Bool) (sz : BitVec 2) (sx : Bool) (off : BitVec 19)
  /-- STS (R150). -/
  | seqSts (p : Pred) (d : BitVec 6) (a : BitVec 6) (sp : Bool) (sz : BitVec 2) (off : BitVec 19)
  /-- TSET (R153). -/
  | seqTset (p : Pred) (d : BitVec 6) (a : BitVec 6)
  /-- TGET (R153). -/
  | seqTget (p : Pred) (d : BitVec 6) (a : BitVec 6)
  /-- TALLOC (R153). -/
  | seqTalloc (p : Pred) (d : BitVec 6) (a : BitVec 6)
  /-- TFREE (R153). -/
  | seqTfree (p : Pred) (a : BitVec 6)
  /-- MOVC (R154). -/
  | seqMovc (p : Pred) (op : BitVec 4) (d : BitVec 6) (a : BitVec 6)
  /-- CPYIN (R180). -/
  | seqCpyin (p : Pred) (ch : BitVec 2) (t : BitVec 6) (a : BitVec 6) (tr : Bool) (sp : Bool) (cv : Bool)
  /-- CPYOUT (R180). -/
  | seqCpyout (p : Pred) (ch : BitVec 2) (t : BitVec 6) (a : BitVec 6) (tr : Bool)
  /-- CPYXC (R180). -/
  | seqCpyxc (p : Pred) (ch : BitVec 2) (t : BitVec 6) (b : BitVec 6) (tr : Bool)
  /-- DRAIN (R185). -/
  | seqDrain (p : Pred) (ch : BitVec 2)
  /-- MXLDW (R192). -/
  | seqMxldw (p : Pred) (t : BitVec 6) (a : BitVec 6) (b : BitVec 6) (ns : Bool)
  /-- MXSWAP (R193). -/
  | seqMxswap (p : Pred)
  /-- MXMUL (R196). -/
  | seqMxmul (p : Pred) (t : BitVec 6) (a : BitVec 6) (b : BitVec 6) (ten : Bool) (acc : Bool) (z : Bool)
  /-- EPI (R209). -/
  | seqEpi (p : Pred) (t : BitVec 6) (a : BitVec 6)
  /-- QFENCE (R186). -/
  | seqQfence (p : Pred) (mask : BitVec 7)
  /-- TSEND (R382). -/
  | seqTsend (p : Pred) (ch : BitVec 2) (t : BitVec 6) (a : BitVec 6) (b : BitVec 6)
  /-- TRECV (R383). -/
  | seqTrecv (p : Pred) (t : BitVec 6) (q : BitVec 4)
  /-- COLL (R387). -/
  | seqColl (p : Pred) (ch : BitVec 2) (a : BitVec 6) (kind : BitVec 2) (op : BitVec 3) (res : Bool)
  /-- BR (R155). -/
  | seqBr (p : Pred) (off : BitVec 32)
  /-- BRC (R155). -/
  | seqBrc (p : Pred) (a : BitVec 6)
  /-- KLOOP (R140). -/
  | seqKloop (p : Pred) (off : BitVec 32)
  /-- CALL (R155). -/
  | seqCall (p : Pred) (off : BitVec 32)
  /-- RET (R155). -/
  | seqRet (p : Pred)
  /-- TOP (R166). -/
  | seqTop (p : Pred) (topn : BitVec 8) (h0 : BitVec 6) (h1 : BitVec 6) (h2 : BitVec 6) (h3 : BitVec 6)
  /-- BIND (R175). -/
  | seqBind (p : Pred) (a : BitVec 6) (b : BitVec 6)
  /-- REBIND (R175). -/
  | seqRebind (p : Pred) (a : BitVec 6) (b : BitVec 6)
  /-- TRESTART (R176). -/
  | seqTrestart (p : Pred) (a : BitVec 6) (abandon : Bool)
  /-- TWAIT on a tile state (R177). -/
  | seqTwaitState (p : Pred) (n : BitVec 6) (mask : BitVec 7)
  /-- TWAIT.ALL (R177). -/
  | seqTwaitAll (p : Pred)
  /-- TWAIT.CH (R177). -/
  | seqTwaitCh (p : Pred) (ch : BitVec 2)
  /-- LAUNCH (R333). -/
  | seqLaunch (p : Pred) (a : BitVec 6) (nb : Bool) (n : BitVec 4)
  /-- TENQ (R333). -/
  | seqTenq (p : Pred) (a : BitVec 6) (nb : Bool) (n : BitVec 4)
  /-- DDEC (R333). -/
  | seqDdec (p : Pred) (a : BitVec 6) (b : BitVec 6) (scope : BitVec 3)
  /-- DDEC.CANCEL (R333). -/
  | seqDdecCancel (p : Pred) (a : BitVec 6) (level : BitVec 3)
  /-- MARK (R143). -/
  | seqMark (p : Pred) (imm : BitVec 32)
  /-- IPATCH (R404). -/
  | seqIpatch (p : Pred) (a : BitVec 6) (b : BitVec 6) (lane : Bool)
  /-- SYS.CSRR (R113). -/
  | seqSysCsrr (p : Pred) (d : BitVec 6) (a : BitVec 6) (n : BitVec 9)
  /-- SYS.CSRW (R113). -/
  | seqSysCsrw (p : Pred) (a : BitVec 6) (b : BitVec 6) (n : BitVec 9)
  /-- SYS.CSRS (R113). -/
  | seqSysCsrs (p : Pred) (d : BitVec 6) (a : BitVec 6) (b : BitVec 6) (n : BitVec 9)
  /-- SYS.CSRC (R113). -/
  | seqSysCsrc (p : Pred) (d : BitVec 6) (a : BitVec 6) (b : BitVec 6) (n : BitVec 9)
  /-- SYS.INT (R113). -/
  | seqSysInt (p : Pred) (a : BitVec 6)
  /-- SYS.RKREG (R379). -/
  | seqSysRkreg (p : Pred) (d : BitVec 6) (a : BitVec 6) (b : BitVec 6)
  /-- SYS.RKREV (R380). -/
  | seqSysRkrev (p : Pred) (a : BitVec 6)
  /-- ERET (R114). -/
  | seqEret (p : Pred)
  /-- TRAP (R115). -/
  | seqTrap (p : Pred) (imm : BitVec 32)
  /-- Lane NOP (R230). -/
  | laneNop (h : LHdr) (f : VForm)
  /-- Lane BRA (R230). -/
  | laneBra (h : LHdr) (off : BitVec 32)
  /-- Lane BRX (R230). -/
  | laneBrx (h : LHdr) (f : VForm)
  /-- Lane CALL (R230). -/
  | laneCall (h : LHdr) (off : BitVec 32)
  /-- Lane RET (R230). -/
  | laneRet (h : LHdr) (f : VForm)
  /-- Lane JOIN (R230). -/
  | laneJoin (h : LHdr) (off : BitVec 32)
  /-- Lane EXIT (R230). -/
  | laneExit (h : LHdr) (f : VForm)
  /-- Lane YIELD (R230). -/
  | laneYield (h : LHdr) (f : VForm)
  /-- Lane WAIT (R230). -/
  | laneWait (h : LHdr) (f : VForm)
  /-- Lane IADD (R246). -/
  | laneIadd (h : LHdr) (f : VForm)
  /-- Lane ISUB (R246). -/
  | laneIsub (h : LHdr) (f : VForm)
  /-- Lane IMUL (R246). -/
  | laneImul (h : LHdr) (f : VForm)
  /-- Lane IMAD (R246). -/
  | laneImad (h : LHdr) (f : VForm)
  /-- Lane IMULH (R247). -/
  | laneImulh (h : LHdr) (f : VForm)
  /-- Lane IDIV (R248). -/
  | laneIdiv (h : LHdr) (f : VForm)
  /-- Lane IREM (R248). -/
  | laneIrem (h : LHdr) (f : VForm)
  /-- Lane IMIN (R249). -/
  | laneImin (h : LHdr) (f : VForm)
  /-- Lane IMAX (R249). -/
  | laneImax (h : LHdr) (f : VForm)
  /-- Lane ISHIFT (R250). -/
  | laneIshift (h : LHdr) (f : VForm)
  /-- Lane ILOGIC (R251). -/
  | laneIlogic (h : LHdr) (f : VForm)
  /-- Lane IBIT (R249). -/
  | laneIbit (h : LHdr) (f : VForm)
  /-- Lane BFX (R252). -/
  | laneBfx (h : LHdr) (f : VForm)
  /-- Lane BFI (R252). -/
  | laneBfi (h : LHdr) (f : VForm)
  /-- Lane ICMP (R253). -/
  | laneIcmp (h : LHdr) (f : VForm)
  /-- Lane SEL (R254). -/
  | laneSel (h : LHdr) (f : VForm)
  /-- Lane IABS (R249). -/
  | laneIabs (h : LHdr) (f : VForm)
  /-- Lane INEG (R249). -/
  | laneIneg (h : LHdr) (f : VForm)
  /-- Lane IADD with an immediate (R246). -/
  | laneIaddImm (h : LHdr) (f : IForm)
  /-- Lane ISUB with an immediate (R246). -/
  | laneIsubImm (h : LHdr) (f : IForm)
  /-- Lane IMUL with an immediate (R246). -/
  | laneImulImm (h : LHdr) (f : IForm)
  /-- Lane IMIN with an immediate (R249). -/
  | laneIminImm (h : LHdr) (f : IForm)
  /-- Lane IMAX with an immediate (R249). -/
  | laneImaxImm (h : LHdr) (f : IForm)
  /-- Lane FADD (R256). -/
  | laneFadd (h : LHdr) (f : VForm)
  /-- Lane FSUB (R256). -/
  | laneFsub (h : LHdr) (f : VForm)
  /-- Lane FMUL (R256). -/
  | laneFmul (h : LHdr) (f : VForm)
  /-- Lane FFMA (R256). -/
  | laneFfma (h : LHdr) (f : VForm)
  /-- Lane FMIN (R257). -/
  | laneFmin (h : LHdr) (f : VForm)
  /-- Lane FMAX (R257). -/
  | laneFmax (h : LHdr) (f : VForm)
  /-- Lane FCMP (R258). -/
  | laneFcmp (h : LHdr) (f : VForm)
  /-- Lane FSF (R259). -/
  | laneFsf (h : LHdr) (f : VForm)
  /-- Lane FADD with an immediate (R256). -/
  | laneFaddImm (h : LHdr) (f : IForm)
  /-- Lane FMUL with an immediate (R256). -/
  | laneFmulImm (h : LHdr) (f : IForm)
  /-- Lane SLADD (R260). -/
  | laneSladd (h : LHdr) (f : VForm)
  /-- Lane SLSUB (R260). -/
  | laneSlsub (h : LHdr) (f : VForm)
  /-- Lane SLMUL (R260). -/
  | laneSlmul (h : LHdr) (f : VForm)
  /-- Lane SLDIV (R260). -/
  | laneSldiv (h : LHdr) (f : VForm)
  /-- Lane SLCMP (R261). -/
  | laneSlcmp (h : LHdr) (f : VForm)
  /-- Lane CVT (R263). -/
  | laneCvt (h : LHdr) (f : VForm)
  /-- Lane CVTW (R264). -/
  | laneCvtw (h : LHdr) (f : VForm)
  /-- Lane CVTN (R264). -/
  | laneCvtn (h : LHdr) (f : VForm)
  /-- Lane PACK (R265). -/
  | lanePack (h : LHdr) (f : VForm)
  /-- Lane UNPK (R265). -/
  | laneUnpk (h : LHdr) (f : VForm)
  /-- Lane MOV (R231). -/
  | laneMov (h : LHdr) (f : VForm)
  /-- Lane MOVI (R231). -/
  | laneMovi (h : LHdr) (f : IForm)
  /-- Lane B2V (R232). -/
  | laneB2v (h : LHdr) (f : VForm)
  /-- Lane V2B (R232). -/
  | laneV2b (h : LHdr) (f : VForm)
  /-- Lane SHFL (R233). -/
  | laneShfl (h : LHdr) (f : VForm)
  /-- Lane VOTE (R234). -/
  | laneVote (h : LHdr) (f : VForm)
  /-- Lane BRED (R235). -/
  | laneBred (h : LHdr) (f : VForm)
  /-- Lane LD (R287). -/
  | laneLd (h : LHdr) (f : MForm)
  /-- Lane ST (R287). -/
  | laneSt (h : LHdr) (f : MForm)
  /-- Lane LDT (R287). -/
  | laneLdt (h : LHdr) (f : MForm)
  /-- Lane STT (R287). -/
  | laneStt (h : LHdr) (f : MForm)
  /-- Lane LDB (R288). -/
  | laneLdb (h : LHdr) (f : MForm)
  /-- Lane STB (R288). -/
  | laneStb (h : LHdr) (f : MForm)
  /-- Lane ATOM (R289). -/
  | laneAtom (h : LHdr) (f : MForm)
  /-- Lane RED (R289). -/
  | laneRed (h : LHdr) (f : MForm)
  /-- Lane CPY (R291). -/
  | laneCpy (h : LHdr) (f : VForm)
  /-- Lane DRAIN (R292). -/
  | laneDrain (h : LHdr) (f : VForm)
  /-- Lane PREF (R290). -/
  | lanePref (h : LHdr) (f : MForm)
  /-- Lane PACQ (R310). -/
  | lanePacq (h : LHdr) (f : IForm)
  /-- Lane PREL (R311). -/
  | lanePrel (h : LHdr) (f : IForm)
  /-- Lane FENCE (R312). -/
  | laneFence (h : LHdr) (f : IForm)
  /-- Lane BAR (R320). -/
  | laneBar (h : LHdr) (f : IForm)
  /-- Lane QFENCE (R313). -/
  | laneQfence (h : LHdr) (f : IForm)
  /-- Lane QBIND (R236). -/
  | laneQbind (h : LHdr) (f : VForm)
  /-- Lane MMJ (R237). -/
  | laneMmj (h : LHdr) (f : VForm)
  /-- Lane TOPN (R239). -/
  | laneTopn (h : LHdr) (f : VForm)
  /-- Lane TENQ (R334). -/
  | laneTenq (h : LHdr) (f : VForm)
  /-- Lane DDEC (R334). -/
  | laneDdec (h : LHdr) (f : VForm)
  /-- Lane DDEC_CANCEL (R334). -/
  | laneDdecCancel (h : LHdr) (f : VForm)
  /-- Lane LAUNCH (R334). -/
  | laneLaunch (h : LHdr) (f : VForm)
  /-- Lane TRAP (R116). -/
  | laneTrap (h : LHdr) (f : IForm)
  /-- Lane BKPT (R401). -/
  | laneBkpt (h : LHdr) (f : IForm)
  /-- Lane CHKT (R240). -/
  | laneChkt (h : LHdr) (f : VForm)
  /-- Lane CSRR (R116). -/
  | laneCsrr (h : LHdr) (f : IForm)
  /-- Lane CSRW (R116). -/
  | laneCsrw (h : LHdr) (f : IForm)
  /-- Lane FLGR (R241). -/
  | laneFlgr (h : LHdr) (f : VForm)
  /-- Policy NOP (R350). -/
  | polNop
  /-- Policy LDI (R349). -/
  | polLdi (d : BitVec 4) (imm : BitVec 18)
  /-- Policy MOV (R349). -/
  | polMov (d : BitVec 4) (a : BitVec 4)
  /-- Policy ADD (R349). -/
  | polAdd (d : BitVec 4) (a : BitVec 4) (b : BitVec 4)
  /-- Policy ADD with an immediate (R349). -/
  | polAddImm (d : BitVec 4) (a : BitVec 4) (imm : BitVec 18)
  /-- Policy SUB (R349). -/
  | polSub (d : BitVec 4) (a : BitVec 4) (b : BitVec 4)
  /-- Policy SUB with an immediate (R349). -/
  | polSubImm (d : BitVec 4) (a : BitVec 4) (imm : BitVec 18)
  /-- Policy AND (R349). -/
  | polAnd (d : BitVec 4) (a : BitVec 4) (b : BitVec 4)
  /-- Policy AND with an immediate (R349). -/
  | polAndImm (d : BitVec 4) (a : BitVec 4) (imm : BitVec 18)
  /-- Policy OR (R349). -/
  | polOr (d : BitVec 4) (a : BitVec 4) (b : BitVec 4)
  /-- Policy OR with an immediate (R349). -/
  | polOrImm (d : BitVec 4) (a : BitVec 4) (imm : BitVec 18)
  /-- Policy XOR (R349). -/
  | polXor (d : BitVec 4) (a : BitVec 4) (b : BitVec 4)
  /-- Policy XOR with an immediate (R349). -/
  | polXorImm (d : BitVec 4) (a : BitVec 4) (imm : BitVec 18)
  /-- Policy SHL (R349). -/
  | polShl (d : BitVec 4) (a : BitVec 4) (b : BitVec 4)
  /-- Policy SHL with an immediate (R349). -/
  | polShlImm (d : BitVec 4) (a : BitVec 4) (sh : BitVec 6)
  /-- Policy SHR (R349). -/
  | polShr (d : BitVec 4) (a : BitVec 4) (b : BitVec 4)
  /-- Policy SHR with an immediate (R349). -/
  | polShrImm (d : BitVec 4) (a : BitVec 4) (sh : BitVec 6)
  /-- Policy MIN (R349). -/
  | polMin (d : BitVec 4) (a : BitVec 4) (b : BitVec 4)
  /-- Policy MIN with an immediate (R349). -/
  | polMinImm (d : BitVec 4) (a : BitVec 4) (imm : BitVec 18)
  /-- Policy MAX (R349). -/
  | polMax (d : BitVec 4) (a : BitVec 4) (b : BitVec 4)
  /-- Policy MAX with an immediate (R349). -/
  | polMaxImm (d : BitVec 4) (a : BitVec 4) (imm : BitVec 18)
  /-- Policy CMP (R349). -/
  | polCmp (d : BitVec 4) (a : BitVec 4) (b : BitVec 4) (cc : BitVec 3)
  /-- Policy SEL (R349). -/
  | polSel (d : BitVec 4) (a : BitVec 4) (b : BitVec 4) (c : BitVec 4)
  /-- Policy BF (R350). -/
  | polBf (a : BitVec 4) (off : BitVec 18)
  /-- Policy JF (R350). -/
  | polJf (off : BitVec 18)
  /-- Policy LOOP (R350). -/
  | polLoop (n : BitVec 18)
  /-- Policy ENDL (R350). -/
  | polEndl
  /-- Policy LDV (R351). -/
  | polLdv (d : BitVec 4) (a : BitVec 4) (t : BitVec 3) (f : BitVec 5)
  /-- Policy SCAN.MIN (R352). -/
  | polScanMin (d : BitVec 4) (a : BitVec 4) (t : BitVec 3) (f : BitVec 5)
  /-- Policy SCAN.MAX (R352). -/
  | polScanMax (d : BitVec 4) (a : BitVec 4) (t : BitVec 3) (f : BitVec 5)
  /-- Policy CNT (R349). -/
  | polCnt (d : BitVec 4) (a : BitVec 4)
  /-- Policy DEC (R353). -/
  | polDec (a : BitVec 4) (b : BitVec 4) (k : BitVec 4) (imm : BitVec 14)
  /-- Policy END (R350). -/
  | polEnd
  /-- Module reset runs the boot steps: fuses, firmware signature check, self-test, zeroing of the stores, then HEALTH written and every port DOWN in P0. (R411). -/
  | moduleReset
  /-- Every 1 ms the clock controller computes the target clock and moves FCUR by at most one 100 MHz step. (R415). -/
  | clockControllerTick
  /-- A control-port write to a register that has no behaviour of its own sets the register's RW fields. (R409). -/
  | cpRegisterWrite
  /-- A write of a partition's core mask is accepted, or refused with CORE_OWNED or PARTITION_BUSY. (R98). -/
  | coreMaskWrite
  /-- A write of a partition's root mask is accepted, or refused with ROOT_OWNED or PARTITION_BUSY. (R314). -/
  | rootMaskWrite
  /-- A write of a polder range is accepted, or refused with PARTITION_BUSY, POLDER_OVERLAP or POLDER_HOME. (R101). -/
  | polderRangeWrite
  /-- A W1C write clears interrupt-vector pending bits. (R102). -/
  | vectorPendingClear
  /-- A write of a context descriptor field is accepted in the states that permit it, or refused with CONTEXT_BUSY, CP_FRAME, POLDER_FAULT, CORE_OWNED or CO (R104). -/
  | descriptorWrite
  /-- The control node opens an image load, which moves an EMPTY context with valid bases to LOADING. (R105). -/
  | imageLoadOpen
  /-- A transferred linked image is checked and its sections are applied in order; the context goes to READY, or to FAILED at the first failed check. (R128). -/
  | imageTransfer
  /-- A start-vector block write is checked, then latched as one value; it starts a launch in PENDING with the next launch id and is logged. (R130). -/
  | startVectorWrite
  /-- The control node retires a context, which frees its bands, tiles and save area. (R105). -/
  | contextRetire
  /-- The control node scrubs a RETIRED slot, which returns its descriptor to reset values and the context to EMPTY. (R105). -/
  | contextScrub
  /-- A control-port data write into a context's memory is translated, polder-checked and logged, and is not refused by page rights or input locks. (R437). -/
  | controlPortDataWrite
  /-- A control-node map writes a leaf entry and resumes agents that are parked on the page. (R273). -/
  | controlNodeMap
  /-- A control-node unmap makes a page UNMAPPED and invalidates its translation. (R273). -/
  | controlNodeUnmap
  /-- The translation-invalidate command removes the matching TLB entries from every layout unit of the context's cores. (R280). -/
  | translationInvalidate
  /-- The invalidate is acknowledged once every request tagged with a removed entry has been performed; the page copy or rewrite may then begin. (R280). -/
  | translationInvalidateAck
  /-- The control node writes a pennant word, which makes it QUIET, RELEASED or FREE and answers its waiters when it is freed. (R298). -/
  | pennantWordWrite
  /-- The control node writes a dependency counter while no launch of the context is active. (R326). -/
  | depCounterWrite
  /-- A write of the cancel command issues a cancel of the selected level with the id word last written. (R331). -/
  | cancelCommand
  /-- A write of a shadow policy word marks the shadow LOADED, or is refused with POLICY_BUSY while a check runs. (R338). -/
  | policyShadowWrite
  /-- The PCMD CHECK command starts the admission check of the shadow program, setting SHADOW to CHECKING. (R337). -/
  | policyCheck
  /-- The admission check ends after 2 sched cycles per instruction, leaving the shadow CHECKED or REJECTED with CFAIL and CIDX. (R358). -/
  | policyCheckDone
  /-- The PCMD SWAP command makes a CHECKED shadow program the active one and clears OVRN and the overrun ring. (R338). -/
  | policySwap
  /-- The PCMD DISABLE command moves an ACTIVE slot to DISABLED. (R338). -/
  | policyDisable
  /-- The PCMD RETIRE command discards both programs and moves the slot to RETIRED. (R338). -/
  | policyRetire
  /-- The PCMD SCRUB command returns a RETIRED slot to ABSENT and resets PSTAT and INVC. (R338). -/
  | policyScrub
  /-- A free-frame append adds a run to the tail of the HBM or package-store list, or is refused with CP_FRAME, POLDER_FAULT or FRAMES_FULL. (R409). -/
  | freeFrameAppend
  /-- A write of LPRESET clears the sequence numbers for one peer and discards packets in flight, whose requesters take LINK_FAILED. (R370). -/
  | lpresetWrite
  /-- The control node's answer to a host-access request completes that request, refuses it, or is itself refused with CP_FRAME. (R436). -/
  | hackWrite
  /-- Writing EN to 1 starts the training of a DOWN port. (R366). -/
  | lportEnable
  /-- Writing EN to 0 takes the port DOWN, moves its unsent packets to other ports and drops its replay buffer. (R366). -/
  | lportDisable
  /-- A read of LPORT returns CRCERR and REPLAYS, and then clears them. (R364). -/
  | lportReadClear
  /-- A write of LFAB sets DEVID and E2ET, or is refused with LINK_PARAM. (R365). -/
  | lfabWrite
  /-- A read of LFAB returns DUPCNT, and then clears it. (R365). -/
  | lfabReadClear
  /-- A write of the watch control register sets the trace and drift controls and arms the interlock trigger, or is refused with WATCH_PARAM. (R392). -/
  | wctlWrite
  /-- A write of a sequencer or lane breakpoint register arms or disarms the entry. (R399). -/
  | breakpointWrite
  /-- A write of a data watchpoint register arms or disarms the entry. (R400). -/
  | watchpointWrite
  /-- A halt command stops the sequencer or a band precisely at its next boundary, with kind DEBUG_HALT. (R398). -/
  | haltCommand
  /-- A resume command restarts a halted sequencer or band, as the debug rights permit. (R123). -/
  | resumeCommand
  /-- A write of the debug window select register chooses the space, or is refused with CP_FRAME. (R410). -/
  | debugWindowSelect
  /-- A read through the debug window returns tile-store, scalar-store, sequencer or band state as the rights and the halt state allow. (R410). -/
  | debugWindowRead
  /-- A write through the debug window changes tile-store, scalar-store or register bytes of a stopped agent. (R410). -/
  | debugWindowWrite
  /-- A PWR write selecting P0, P1 or P2 sets the power state and leaves P3. (R416). -/
  | pwrSetActive
  /-- A PWR write selecting P3 stops the clocks and takes every port DOWN, or is refused with POWER_STATE while a context runs. (R416). -/
  | pwrEnterP3
  /-- A PWR write selecting P4 enters P4 at once, after the erasures of R124. (R416). -/
  | pwrEnterP4
  /-- An attestation request returns the nonce, the measurements and HEALTH signed with the next XMSS index, or ATTEST_EXHAUSTED. (R413). -/
  | attestationRequest
  /-- Installing a tenant key makes the partition TENANT-OWNED and clears its cores' tile stores and its package-store frames. (R125). -/
  | tenantKeyInstall
  /-- Removing a tenant key clears the partition's tile stores and package-store frames. (R125). -/
  | tenantKeyRemove
  /-- A request sets a partition's debug level, or is refused with DEBUG_DENIED. (R123). -/
  | debugLevelRequest
  /-- Leaving VENDOR-UNLOCKED clears every tile store, the package store and every trace buffer, and sets every debug level to OFF. (R125). -/
  | vendorUnlockExit
  /-- A strand that consumes an uncorrectable error dies, and a UE_STRAND record is written. (R122). -/
  | ueStrand
  /-- An uncorrectable error in sequencer registers, the scalar store or a latch bank raises the core fault UE_SEQ. (R122). -/
  | ueSeq
  /-- An uncorrectable error in the array or the epilogue invalidates both latches, makes streams in flight undefined and puts the array in FAULTED. (R206). -/
  | ueArray
  /-- An uncorrectable error found in a frame makes its page POISONED and invalidates the translation. (R273). -/
  | uePageFrame
  /-- A core starts the next entry of its local list once room exists: it places a sequencer or lane unit, or resumes a pre-empted unit from its save image. (R340). -/
  | localListStart
  /-- The scheduler block places a PENDING start-vector launch in the first sched cycle in which each named core is free, starting a sequencer unit on each. (R132). -/
  | launchPlaceStartVector
  /-- A unit retires once its engine-queue entries and invocations have completed; its tiles go FREE and its array goes IDLE. (R134). -/
  | unitRetire
  /-- A core's pre-emption save ends with its image written and its bands and tiles freed; when no core runs a unit of the context, the context goes PREEMPT (R107). -/
  | coreSaveComplete
  /-- In RECOVERING, the next logged input is delivered in log order. (R121). -/
  | replayInputDeliver
  /-- In each sched cycle the scheduler grants one slot credit, in round-robin order, to a core that holds fewer than 4. (R324). -/
  | creditGrant
  /-- The scheduler processes an enqueued task: the task is CANCELLED, BLOCKED or READY, and its counters are raised. (R328). -/
  | taskProcess
  /-- A decrement reaches the counter's home in the scheduler block; BLOCKED tasks whose count falls to 0 or less become READY. (R326). -/
  | depCounterDecrement
  /-- A cancel reaches the scheduler: no unit of the level is placed again, its tasks go CANCELLED and the level counter is set to 0. (R331). -/
  | cancelArrive
  /-- After a task's last unit ends, the queues drain, the completion release is made, its counters are lowered and the COMPLETE sluice is raised. (R329). -/
  | taskCompletionSequence
  /-- A free policy engine takes the partition whose invocation has waited longest and starts it on a snapshot of the view tables. (R341). -/
  | policyInvocationStart
  /-- An invocation that would pass its budget of 512 sched cycles is abandoned; the default policy decides, OVRN rises and the overrun ring is updated. (R359). -/
  | policyOverrun
  /-- In RECOVERING, a sluice applies the next logged decision record instead of running the policy, or runs the policy live once the records stop matching. (R362). -/
  | sluiceReplayDecision
  /-- A KEEP decision is applied, leaving the outcome of a FAULT sluice to the faulting agent. (R356). -/
  | decisionKeep
  /-- A PLACE decision appends one unit of the queue's head to the named cores' local lists. (R354). -/
  | decisionPlace
  /-- A STEAL decision moves the newest never-started entry from the source list to the destination list. (R354). -/
  | decisionSteal
  /-- A PREEMPT decision pre-empts every unit of the partition on the core whose class lies below the threshold. (R354). -/
  | decisionPreempt
  /-- A KILLSTRAND decision kills the named strands of the record's band and resumes the band. (R354). -/
  | decisionKillstrand
  /-- A RESTART decision restarts the record's top-level invocation from its snapshot. (R354). -/
  | decisionRestart
  /-- A PARK decision keeps the parked agents stopped until a control-node map of the page. (R354). -/
  | decisionPark
  /-- A MAP decision writes the page's leaf entry, obtaining a key for a peer home, and resumes the waiting agents. (R354). -/
  | decisionMap
  /-- A MIGRATE decision makes the page MIGRATING, invalidates it and starts the copy to the target frame. (R354). -/
  | decisionMigrate
  /-- A REPLAY decision puts a replay-safe context in RECOVERING, or an unsafe one in FAILED. (R105). -/
  | decisionReplay
  /-- An ESCALATE decision puts the context concerned in FAILED, and acts as KEEP at DISPATCH and STEAL. (R354). -/
  | decisionEscalate
  /-- A REMAP decision remaps a POISONED or RESIDENT page to zeroed target frames. (R354). -/
  | decisionRemap
  /-- A queued copy command starts and checks the TLR; a failure writes a fault record and leaves the tile ALLOC or released. (R180). -/
  | copyCommandStart
  /-- A copy command completes; a fill's tile goes READY with its range removed, and a copy reader releases. (R184). -/
  | copyCommandComplete
  /-- A copy that reaches a POISONED page or is refused fails; its tile goes ALLOC or releases, and the channel goes on. (R180). -/
  | copyFail
  /-- A CPYXC transfer begins once the destination entry is ALLOC, which takes the remote-filler row; otherwise it fails with XC_REFUSED or XC_SHAPE. (R182). -/
  | cpyxcTransferBegin
  /-- A DRAIN marker completes once every earlier command of its channel has completed. (R185). -/
  | drainMarkerComplete
  /-- The dispatcher places the queued invocation at the head of the queue when enough band slots and registers are free, and starts its bands. (R169). -/
  | gangForm
  /-- A snap copy retires and its range leaves the range scoreboard. (R174). -/
  | snapCopyRetire
  /-- An invocation ends once its bands have exited and its accesses and nested invocation are done; OUT and INOUT tiles go READY and IN tiles release. (R170). -/
  | invocationEnd
  /-- A DONE band goes FREE once its accesses and pushes have retired, and its registers return to the slice. (R217). -/
  | bandFree
  /-- A lane memory or tile access completes: the load data is written, the store is performed or acknowledged, and the tile counter falls. (R286). -/
  | laneAccessComplete
  /-- A refusal reaches the requester after issue; a band goes HALTED at its next boundary, and a copy or stream stops. (R283). -/
  | refusalReport
  /-- A queue endpoint accepts a staged push entry; a COPY push becomes a channel command. (R227). -/
  | queueEndpointAccept
  /-- A host-access request with no answer after 100 ms gives its requester LINK_FAILED. (R436). -/
  | hostAccessTimeout
  /-- The page copy of a migration completes and the leaf entry is written with the target frame. (R273). -/
  | migrateCopyComplete
  /-- A failed page copy makes the page POISONED with a UE_PAGE record. (R273). -/
  | migrateCopyFail
  /-- A queued weight load starts filling the shadow latch. (R192). -/
  | mxldwStart
  /-- A weight load completes: the shadow latch is FULL and the weight tile releases. (R190). -/
  | weightLoadComplete
  /-- A queued MXSWAP is performed: the live latch takes the shadow latch. (R193). -/
  | mxswapPerform
  /-- A stream enters its first row against the live latch and the array goes STREAMING. (R190). -/
  | streamEnter
  /-- A stream enters its last row and its tile source releases. (R190). -/
  | streamLastRow
  /-- A row's results leave the array, to the epilogue or toward an accumulator bank. (R197). -/
  | streamRowResult
  /-- An accumulator-bank row write lands; the last one completes the command. (R198). -/
  | accBankWrite
  /-- A tensor-sourced stream's fetch of row r faults: ROWPROG is written and the array goes FAULTED. (R200). -/
  | streamOperandFault
  /-- A complete joint operation enters the array at an aligned cycle and clears the rendezvous latch. (R204). -/
  | jointOpEnter
  /-- The epilogue starts its next command in order. (R207). -/
  | epiStart
  /-- The epilogue writes one output row into its output tile. (R211). -/
  | epiRowWrite
  /-- An EPI retires: its output tile goes READY, its bias tile releases and STAT is ORed. (R212). -/
  | epiRetire
  /-- An arrival message reaches a die or chip root, which counts it, sends it upward, flips, or refuses it. (R316). -/
  | barrierArrival
  /-- A flip broadcast is delivered below: the nodes return to IDLE with the phase toggled and the waiting bands go READY. (R316). -/
  | barrierFlip
  /-- A pennant operation is performed at the home atomic unit in the pennant's order; waiters are recorded or answered. (R298). -/
  | pennantOperationPerform
  /-- Port training ends: the port goes UP with its width, or goes FAILED. (R366). -/
  | linkTrainingEnd
  /-- Training that has not locked 4 lanes within 100 ms sends the port to FAILED. (R366). -/
  | linkTrainingTimeout
  /-- A bad flit CRC or a gap in link sequence numbers puts the port in REPLAY and resends from the first unacknowledged flit. (R366). -/
  | linkFlitError
  /-- Every resent flit is acknowledged; the port returns to UP and REPLAYS rises. (R366). -/
  | linkReplayComplete
  /-- 10 µs in REPLAY sends the port to RECOVERING to retrain. (R366). -/
  | linkReplayTimeout
  /-- A lane loses lock, which sends the port to RECOVERING. (R366). -/
  | linkLaneLockLoss
  /-- Retraining ends with 4 or more lanes locked; the port returns to UP and resends its replay buffer. (R366). -/
  | linkRetrainEnd
  /-- 100 ms in RECOVERING sends the port to FAILED; its unacknowledged requests take LINK_FAILED. (R366). -/
  | linkRecoveringTimeout
  /-- An unacknowledged sequenced packet whose E2ET timer expires is resent with the same SEQ. (R374). -/
  | e2eTimerExpiry
  /-- A packet unacknowledged 100 ms after its first transmission gives its requester LINK_FAILED. (R374). -/
  | e2eLimitExpiry
  /-- An arriving sequenced WRITE packet is held and performed in sequence order after admission, or refused with a NACK. (R371). -/
  | packetWrite
  /-- An arriving READ packet is performed in sequence order and answered with a RESP. (R371). -/
  | packetRead
  /-- An arriving ATOMIC packet is performed once in sequence order and answered with the old value. (R371). -/
  | packetAtomic
  /-- An arriving RED packet is performed once in sequence order. (R371). -/
  | packetRed
  /-- An arriving PENNANT packet performs a forwarded PACQ or PREL on the home word after admission. (R297). -/
  | packetPennant
  /-- An arriving RESP completes the request that it answers. (R369). -/
  | packetResp
  /-- An arriving ACK acknowledges every sequenced packet up to its number and frees response-store entries. (R372). -/
  | packetAck
  /-- An arriving NACK refuses a request with KEY_REVOKED or REMOTE_REFUSED. (R282). -/
  | packetNack
  /-- An arriving TNOTE is admitted into a receive queue, binding its channel, or refused. (R381). -/
  | packetTnote
  /-- An arriving TPULL makes the sender read the source tile and send its TDATA fragments, or answer with a NACK. (R384). -/
  | packetTpull
  /-- An arriving TDATA fragment is written into the destination tile; the last one makes the tile READY. (R384). -/
  | packetTdata
  /-- A collective contribution fragment is received by a switch reduction unit. (R369). -/
  | packetCdata
  /-- An arriving collective result fragment is written to DSTA. (R388). -/
  | packetCres
  /-- A link send-queue TSEND entry starts and sends its TNOTE. (R382). -/
  | linkSendEntryStart
  /-- A collective entry starts, checks its buffers and sends its contributions. (R387). -/
  | collEntryStart
  /-- A collective entry completes and performs PREL.ADD at fabric scope on the pennant of DSTA. (R391). -/
  | collEntryComplete
  /-- An IPATCH completes once every core has acknowledged the invalidate, and fetch resumes. (R404). -/
  | ipatchComplete
  /-- A hang count reaches its threshold, which writes a HANG record, raises vector 5 and runs the FAULT sluice. (R405). -/
  | hangWatchdogFire
  /-- A precise stop is reported with a fault record and vector 7 once the agent's earlier work has landed. (R398). -/
  | stopReport
  /-- A fetched bundle or lane instruction whose opcode is not in its map, such as lane code 0x000, raises ILLEGAL_OP, does not issue, and stops its agent w (R86). -/
  | illegalOp
  /-- A bundle or lane-instruction fetch fails translation, permission or a POISONED page and stops the sequencer or band before issue with no unfinished ma (R293). -/
  | instructionFetchFault
  /-- An arriving packet with an OP outside the table is discarded with no reply, and CRCERR of the receiving port rises. (R369). -/
  | packetDiscard
  /-- A core fails, which sets its bit in HEALTH, sets REPLACE, shows DEGR 2 in the CV table and raises vector 6. (R122). -/
  | coreFailure
  /-- An HBM channel fails, which sets its HCH bit and REPLACE in HEALTH and raises vector 6. (R122). -/
  | hbmChannelFailure
deriving DecidableEq, Repr

end Sys2Proof
end

