-- ==== Sys2Proof/WellFormed.lean ====
section
/-!
DEFINITION. When an instruction's fields are ones that its description allows (R58, R62 to R90): a breach raises
ILLEGAL_OP in the sequencer and the lanes, and is rejected at admission in a policy program.
-/

namespace Sys2Proof

/-! ### Sequencer -/

/-- With MD = 1 the instruction's own RM must be 0b00 (R29). -/
def rmOk (rm : BitVec 2) (md : Bool) : Bool := !md || rm == 0#2

/-- The formats of the sequencer's CVT (R149). -/
def seqCvtCode (c : BitVec 4) : Bool :=
  c == 6#4 || c == 7#4 || c == 14#4 || c == 8#4 || c == 9#4 || c == 10#4 || c == 11#4

/-- The integer formats among them. -/
def seqCvtInt (c : BitVec 4) : Bool := c == 6#4 || c == 7#4 || c == 14#4

/-- The format pairs that the sequencer's CVT allows (R149). -/
def seqCvtOk (d s : BitVec 4) : Bool :=
  seqCvtCode d && seqCvtCode s && d != s && !(seqCvtInt d && seqCvtInt s)

/-- The operations of MOVC and the fields each leaves unused (R154). -/
def movcOk (op : BitVec 4) (d a : BitVec 6) : Bool :=
  if op == 0#4 then a.extractLsb' 4 2 == 0#2
  else if op == 1#4 then d.extractLsb' 4 2 == 0#2 && d != 0#6
  else if op == 2#4 then a == 0#6
  else if op == 3#4 || op == 4#4 || op == 5#4 || op == 6#4 then d == 0#6
  else if op == 8#4 || op == 9#4 || op == 10#4 then a == 0#6
  else false

/-! ### Lanes -/

/-- A b register's operand byte (R81). -/
def isB (x : BitVec 8) : Bool := 0x80#8 ≤ x && x ≤ 0xEF#8
/-- A v register's operand byte (R81). -/
def isV (x : BitVec 8) : Bool := x ≤ 0x7F#8
/-- A q register's operand byte (R81). -/
def isQ (x : BitVec 8) : Bool := 0xF0#8 ≤ x
/-- A v or b register. -/
def isVB (x : BitVec 8) : Bool := isV x || isB x
/-- A b register, or no operand. -/
def isB0 (x : BitVec 8) : Bool := x == 0#8 || isB x

/-- A source operand of an arithmetic instruction: under U only b registers (R79, R81). -/
def srcOk (u : Bool) (x : BitVec 8) : Bool := !u || isB x
/-- A destination of an arithmetic instruction: a b register exactly under U (R79, R81). -/
def dstOk (u : Bool) (x : BitVec 8) : Bool := if u then isB x else !isB x
/-- A predicate destination: strand predicates without U, band predicates with it (R253). -/
def predDstOk (u : Bool) (x : BitVec 8) : Bool := if u then 8#8 ≤ x && x ≤ 14#8 else x ≤ 6#8
/-- A predicate destination of either kind (R81). -/
def predAnyDst (x : BitVec 8) : Bool := x ≤ 6#8 || (8#8 ≤ x && x ≤ 14#8)

/-- The element width of a type code (R26). -/
def tyWidth (t : BitVec 4) : Nat :=
  if t ≤ 1#4 then 4 else if t ≤ 3#4 || t == 11#4 then 8
  else if t ≤ 5#4 || t == 8#4 || t == 9#4 || t == 12#4 then 16 else if t == 14#4 then 64 else 32

/-- Integer types: codes 0 to 7, and I64 in uniform instructions (R245). -/
def tyInt (u : Bool) (t : BitVec 4) : Bool := t ≤ 7#4 || (u && t == 14#4)
/-- Signed integer types (R245). -/
def tySInt (u : Bool) (t : BitVec 4) : Bool :=
  t == 0#4 || t == 2#4 || t == 4#4 || t == 6#4 || (u && t == 14#4)
/-- Floating-point types; FP32 alone in uniform instructions (R245). -/
def tyFp (u : Bool) (t : BitVec 4) : Bool := if u then t == 10#4 else t == 8#4 || t == 9#4 || t == 10#4
/-- IEEE types. -/
def tyIeee (t : BitVec 4) : Bool := t == 8#4 || t == 9#4 || t == 10#4
/-- SLI types. -/
def tySli (t : BitVec 4) : Bool := t == 12#4 || t == 13#4

/-- The predicate field (R78): its negation never names an always-false predicate. -/
def predOk (h : LHdr) : Bool := !(h.neg && (h.pred == 7#4 || h.pred == 15#4))
/-- A header without U and DP. -/
def hdrPlain (h : LHdr) : Bool := predOk h && !h.u && !h.dp
/-- A header where U and DP are permitted (R79, R80). -/
def hdrUD (h : LHdr) : Bool :=
  predOk h && !(h.u && h.dp) && (!h.u || h.pred == 7#4 || 8#4 ≤ h.pred)
/-- A header where DP is permitted and U is not. -/
def hdrD (h : LHdr) : Bool := predOk h && !h.u
/-- A header whose predicate is p7 or a band predicate (R230, R309). -/
def hdrBand (h : LHdr) : Bool := hdrPlain h && (h.pred == 7#4 || 8#4 ≤ h.pred)

/-- No modifier is set (R85). -/
def noMod (f : VForm) : Bool :=
  f.rm == 0#2 && !f.md && !f.sat && f.fn == 0#4 && f.xt == 0#4
/-- No rounding field is set (R85). -/
def noRm (f : VForm) : Bool := f.rm == 0#2 && !f.md
/-- Every field of a V form is zero. -/
def vZero (f : VForm) : Bool :=
  f.ty == 0#4 && f.dst == 0#8 && f.a == 0#8 && f.b == 0#8 && f.c == 0#8 && noMod f

/-- Integer instructions of two sources (R245): whether `.SAT` is allowed. -/
def int2 (sat : Bool) (h : LHdr) (f : VForm) : Bool :=
  hdrUD h && tyInt h.u f.ty && dstOk h.u f.dst && srcOk h.u f.a && srcOk h.u f.b && f.c == 0#8 && noRm f &&
    (sat || !f.sat) && f.fn == 0#4 && f.xt == 0#4
/-- Integer instructions of three sources (R245). -/
def int3 (sat : Bool) (h : LHdr) (f : VForm) : Bool :=
  hdrUD h && tyInt h.u f.ty && dstOk h.u f.dst && srcOk h.u f.a && srcOk h.u f.b && srcOk h.u f.c && noRm f &&
    (sat || !f.sat) && f.fn == 0#4 && f.xt == 0#4
/-- Integer instructions with a function code and two sources (R245). -/
def intFn (top : BitVec 4) (two : Bool) (h : LHdr) (f : VForm) : Bool :=
  hdrUD h && tyInt h.u f.ty && dstOk h.u f.dst && srcOk h.u f.a && (if two then srcOk h.u f.b else f.b == 0#8) &&
    f.c == 0#8 && noRm f && !f.sat && f.fn ≤ top && f.xt == 0#4
/-- IABS and INEG (R245). -/
def int1 (h : LHdr) (f : VForm) : Bool :=
  hdrUD h && tySInt h.u f.ty && dstOk h.u f.dst && srcOk h.u f.a && f.b == 0#8 && f.c == 0#8 && noRm f &&
    f.fn == 0#4 && f.xt == 0#4
/-- An element index below the number of elements (R253). -/
def elemOk (f : VForm) : Bool := decide (f.xt.toNat < 64 / tyWidth f.ty)
/-- ICMP (R253). -/
def icmpOk (h : LHdr) (f : VForm) : Bool :=
  hdrUD h && tyInt h.u f.ty && predDstOk h.u f.dst && srcOk h.u f.a && srcOk h.u f.b && f.c == 0#8 && noRm f &&
    !f.sat && f.fn ≤ 5#4 && elemOk f
/-- SEL (R254): C is a predicate byte. -/
def selOk (h : LHdr) (f : VForm) : Bool :=
  hdrUD h && f.ty == 0#4 && dstOk h.u f.dst && srcOk h.u f.a && srcOk h.u f.b && f.c ≤ 15#8 &&
    (!h.u || 8#8 ≤ f.c) && noMod f

/-- The immediate's bits above a narrow element are zero (R84). -/
def immOk (t : BitVec 4) (imm : BitVec 28) : Bool :=
  decide (16 < tyWidth t) || decide (imm.toNat < 2 ^ tyWidth t)
/-- Integer I forms (R84, R245). -/
def intImm (h : LHdr) (f : IForm) : Bool :=
  hdrUD h && tyInt h.u f.ty && dstOk h.u f.dst && srcOk h.u f.a && immOk f.ty f.imm
/-- Floating-point I forms (R84, R245). -/
def fpImm (h : LHdr) (f : IForm) : Bool :=
  hdrUD h && tyFp h.u f.ty && dstOk h.u f.dst && srcOk h.u f.a && immOk f.ty f.imm
/-- MOVI (R231). -/
def moviOk (h : LHdr) (f : IForm) : Bool :=
  hdrUD h && (f.ty ≤ 13#4 || (h.u && f.ty == 14#4)) && dstOk h.u f.dst && f.a == 0#8 && immOk f.ty f.imm

/-- FADD, FSUB, FMUL (R245). -/
def fp2 (h : LHdr) (f : VForm) : Bool :=
  hdrUD h && tyFp h.u f.ty && dstOk h.u f.dst && srcOk h.u f.a && srcOk h.u f.b && f.c == 0#8 && rmOk f.rm f.md &&
    !f.sat && f.fn == 0#4 && f.xt == 0#4
/-- FFMA (R245). -/
def fp3 (h : LHdr) (f : VForm) : Bool :=
  hdrUD h && tyFp h.u f.ty && dstOk h.u f.dst && srcOk h.u f.a && srcOk h.u f.b && srcOk h.u f.c && rmOk f.rm f.md &&
    !f.sat && f.fn == 0#4 && f.xt == 0#4
/-- FMIN and FMAX (R245). -/
def fpMM (h : LHdr) (f : VForm) : Bool :=
  hdrUD h && tyFp h.u f.ty && dstOk h.u f.dst && srcOk h.u f.a && srcOk h.u f.b && f.c == 0#8 && noMod f
/-- FCMP (R258). -/
def fcmpOk (h : LHdr) (f : VForm) : Bool :=
  hdrUD h && tyFp h.u f.ty && predDstOk h.u f.dst && srcOk h.u f.a && srcOk h.u f.b && f.c == 0#8 && noRm f &&
    !f.sat && f.fn ≤ 7#4 && elemOk f
/-- FSF (R259): only RCP and SQRT round under a mode. -/
def fsfOk (h : LHdr) (f : VForm) : Bool :=
  hdrPlain h && tyFp false f.ty && dstOk false f.dst && f.b == 0#8 && f.c == 0#8 && rmOk f.rm f.md && !f.sat &&
    f.fn ≤ 7#4 && f.xt == 0#4 && (f.fn == 0#4 || f.fn == 2#4 || noRm f)

/-- SLADD, SLSUB, SLMUL, SLDIV (R260). -/
def sli2 (h : LHdr) (f : VForm) : Bool :=
  hdrPlain h && tySli f.ty && dstOk false f.dst && f.c == 0#8 && rmOk f.rm f.md && !f.sat && f.fn == 0#4 && f.xt == 0#4
/-- SLCMP (R261). -/
def slcmpOk (h : LHdr) (f : VForm) : Bool :=
  hdrPlain h && tySli f.ty && predDstOk false f.dst && f.c == 0#8 && noRm f && !f.sat && f.fn ≤ 7#4 && elemOk f

/-- The fields common to the conversions (R262). -/
def cvtCommon (h : LHdr) (f : VForm) : Bool :=
  hdrPlain h && f.ty ≤ 13#4 && f.xt ≤ 13#4 && f.ty != f.xt && f.b == 0#8 && f.c == 0#8 && rmOk f.rm f.md &&
    (!f.sat || tyIeee f.ty) && f.fn == 0#4
/-- A register group of r registers that an operand byte names (R54). -/
def groupOk (r : Nat) (x : BitVec 8) : Bool := isV x && decide (x.toNat % r = 0)
/-- How many registers a widening or narrowing between two widths spans; 0 when not allowed (R264). -/
def ratio (wide narrow : BitVec 4) : Nat :=
  if tyWidth wide = 2 * tyWidth narrow then 2 else if tyWidth wide = 4 * tyWidth narrow then 4 else 0
/-- CVT (R263). -/
def cvtOk (h : LHdr) (f : VForm) : Bool :=
  cvtCommon h f && dstOk false f.dst && decide (tyWidth f.ty = tyWidth f.xt)
/-- CVTW (R264). -/
def cvtwOk (h : LHdr) (f : VForm) : Bool :=
  cvtCommon h f && ratio f.ty f.xt != 0 && groupOk (ratio f.ty f.xt) f.dst
/-- CVTN (R264). -/
def cvtnOk (h : LHdr) (f : VForm) : Bool :=
  cvtCommon h f && dstOk false f.dst && ratio f.xt f.ty != 0 && groupOk (ratio f.xt f.ty) f.a
/-- PACK (R265). -/
def packOk (h : LHdr) (f : VForm) : Bool :=
  hdrD h && f.ty ≤ 7#4 && f.xt ≤ 7#4 && dstOk false f.dst && f.b == 0#8 && f.c == 0#8 && noRm f && f.fn == 0#4 &&
    ratio f.xt f.ty != 0 && groupOk (ratio f.xt f.ty) f.a
/-- UNPK (R265). -/
def unpkOk (h : LHdr) (f : VForm) : Bool :=
  hdrD h && f.ty ≤ 7#4 && f.xt ≤ 7#4 && f.b == 0#8 && f.c == 0#8 && noRm f && !f.sat && f.fn == 0#4 &&
    ratio f.ty f.xt != 0 && groupOk (ratio f.ty f.xt) f.dst

/-- MOV (R231). -/
def movOk (h : LHdr) (f : VForm) : Bool :=
  hdrUD h && f.ty == 0#4 && dstOk h.u f.dst && srcOk h.u f.a && f.b == 0#8 && f.c == 0#8 && noMod f
/-- B2V (R232). -/
def b2vOk (h : LHdr) (f : VForm) : Bool :=
  hdrPlain h && f.ty == 0#4 && isV f.dst && isB f.a && isB f.b && f.c == 0#8 && noMod f
/-- V2B (R232). -/
def v2bOk (h : LHdr) (f : VForm) : Bool :=
  hdrPlain h && f.ty == 0#4 && isB f.dst && isV f.a && f.c == 0#8 && noRm f && !f.sat && f.xt == 0#4 && f.fn ≤ 1#4 &&
    (if f.fn == 1#4 then f.b == 0#8 else isB f.b)
/-- SHFL (R233). -/
def shflOk (h : LHdr) (f : VForm) : Bool :=
  hdrPlain h && f.ty == 0#4 && isV f.dst && isV f.a && isVB f.b && f.c == 0#8 && noRm f && !f.sat && f.xt == 0#4 &&
    f.fn ≤ 3#4
/-- VOTE (R234). -/
def voteOk (h : LHdr) (f : VForm) : Bool :=
  hdrPlain h && f.ty == 0#4 && (if f.fn == 3#4 then isV f.dst else predAnyDst f.dst) && f.a ≤ 15#8 && f.b == 0#8 &&
    f.c == 0#8 && noRm f && !f.sat && f.xt == 0#4 && f.fn ≤ 3#4
/-- BRED (R235). -/
def bredOk (h : LHdr) (f : VForm) : Bool :=
  hdrPlain h && (2#4 ≤ f.ty && f.ty ≤ 10#4) && dstOk false f.dst && f.b == 0#8 && f.c == 0#8 && !f.sat &&
    f.xt == 0#4 && f.fn ≤ 5#4 && (f.fn ≤ 2#4 || f.ty ≤ 7#4) && rmOk f.rm f.md &&
    ((f.fn == 0#4 && tyIeee f.ty) || noRm f)

/-- A V form that uses only operand A (BRX, RET). -/
def vOnlyA (f : VForm) : Bool :=
  f.ty == 0#4 && f.dst == 0#8 && f.b == 0#8 && f.c == 0#8 && noMod f
/-- WAIT (R230). -/
def waitOk (h : LHdr) (f : VForm) : Bool :=
  hdrPlain h && f.ty == 0#4 && f.dst == 0#8 && f.a == 0#8 && f.b == 0#8 && f.c == 0#8 && noRm f && !f.sat &&
    f.xt == 0#4 && 1#4 ≤ f.fn && f.fn ≤ 7#4

/-- QBIND (R236). -/
def qbindOk (h : LHdr) (f : VForm) : Bool :=
  hdrPlain h && f.ty == 0#4 && isQ f.dst && f.b == 0#8 && f.c == 0#8 && noRm f && !f.sat && f.fn ≤ 4#4 &&
    (if f.fn == 3#4 then isB f.a && f.xt ≤ 3#4
     else f.xt == 0#4 && (if f.fn == 4#4 then isB f.a else f.a == 0#8))
/-- MMJ (R237). -/
def mmjOk (h : LHdr) (f : VForm) : Bool :=
  hdrPlain h && (f.ty ≤ 3#4 || f.ty == 8#4 || f.ty == 9#4 || f.ty == 11#4) && f.dst == 0#8 && isB f.a && isQ f.b &&
    (f.c == 0#8 || isQ f.c) && noMod f
/-- TOPN (R239): the tile opcode sits in FN and XT. -/
def topnOk (h : LHdr) (f : VForm) : Bool :=
  hdrPlain h && f.ty == 0#4 && f.dst == 0#8 && f.b == 0#8 && noRm f && !f.sat
/-- TENQ.NB and LAUNCH.NB (R334). -/
def laneTaskOk (h : LHdr) (f : VForm) : Bool :=
  hdrPlain h && f.ty == 0#4 && 8#8 ≤ f.dst && f.dst ≤ 14#8 && 0x80#8 ≤ f.a && f.a ≤ 0xE8#8 && f.b == 0#8 &&
    f.c == 0#8 && noRm f && !f.sat && f.fn == 1#4 && f.xt == 0#4
/-- DDEC (R334). -/
def laneDdecOk (h : LHdr) (f : VForm) : Bool :=
  hdrPlain h && f.ty == 0#4 && f.dst == 0#8 && isB f.a && isB f.b && f.c == 0#8 && noRm f && !f.sat && f.fn == 0#4 &&
    2#4 ≤ f.xt && f.xt ≤ 4#4
/-- DDEC.CANCEL (R334). -/
def laneCancelOk (h : LHdr) (f : VForm) : Bool :=
  hdrPlain h && f.ty == 0#4 && f.dst == 0#8 && isB f.a && f.b == 0#8 && f.c == 0#8 && noRm f && !f.sat &&
    f.fn == 1#4 && f.xt ≤ 4#4
/-- CHKT (R240). -/
def chktOk (h : LHdr) (f : VForm) : Bool :=
  hdrPlain h && f.ty == 0#4 && f.dst == 0#8 && isVB f.a && isVB f.b && f.c == 0#8 && noMod f
/-- FLGR (R241). -/
def flgrOk (h : LHdr) (f : VForm) : Bool :=
  hdrPlain h && f.ty == 0#4 && isVB f.dst && f.a == 0#8 && f.b == 0#8 && f.c == 0#8 && noRm f && !f.sat &&
    f.xt == 0#4 && f.fn ≤ 1#4
/-- CPY (R291). -/
def cpyOk (h : LHdr) (f : VForm) : Bool :=
  hdrPlain h && f.ty == 0#4 && f.dst == 0#8 && noRm f && !f.sat && f.fn.extractLsb' 0 2 != 3#2 &&
    !f.xt.getLsbD 2 && isB f.a &&
    (if f.fn.extractLsb' 0 2 == 2#2 then isB f.b && f.c == 0#8
     else f.b == 0#8 && isB f.c && f.c ≤ 0xEC#8) &&
    (f.fn.extractLsb' 0 2 == 0#2 || (!f.fn.getLsbD 3 && !f.xt.getLsbD 3))
/-- DRAIN (R292). -/
def drainOk (h : LHdr) (f : VForm) : Bool :=
  hdrPlain h && f.ty == 0#4 && f.dst == 0#8 && f.a == 0#8 && f.b == 0#8 && f.c == 0#8 && noRm f && !f.sat &&
    f.fn == 0#4 && f.xt ≤ 3#4

/-- LD and LDT (R287): `.S` below 8 bytes, `.NT` on tensor accesses only. -/
def loadOk (nt : Bool) (h : LHdr) (f : MForm) : Bool :=
  hdrPlain h && f.ty == 0#4 && isV f.dst && isVB f.a && f.scope == 0#3 &&
    !(f.opx.getLsbD 2 && f.opx.extractLsb' 0 2 == 3#2) && (nt || !f.opx.getLsbD 3)
/-- ST and STT (R287). -/
def storeOk (nt : Bool) (h : LHdr) (f : MForm) : Bool :=
  hdrPlain h && f.ty == 0#4 && isVB f.dst && isVB f.a && f.scope == 0#3 && !f.opx.getLsbD 2 &&
    (nt || !f.opx.getLsbD 3)
/-- LDB and STB (R288). -/
def blockOk (h : LHdr) (f : MForm) : Bool :=
  hdrPlain h && f.ty == 0#4 && isV f.dst && isB f.a && f.scope == 0#3 && f.opx.extractLsb' 0 3 == 0#3
/-- The operations and types of atomics (R289). -/
def atomTypes (f : MForm) : Bool :=
  let o := f.opx.extractLsb' 0 3
  f.ty == 6#4 || f.ty == 7#4 ||
    (f.ty == 10#4 && !f.opx.getLsbD 3 && o != 3#3 && o != 4#3 && o != 5#3)
/-- ATOM (R289). -/
def atomOk (h : LHdr) (f : MForm) : Bool :=
  hdrPlain h && isV f.dst && isVB f.a && f.scope ≤ 4#3 && atomTypes f
/-- RED (R289): no exchange and no compare-and-swap. -/
def redOk (h : LHdr) (f : MForm) : Bool :=
  hdrPlain h && isVB f.dst && isVB f.a && f.scope ≤ 4#3 && atomTypes f && f.opx.extractLsb' 0 3 ≤ 5#3
/-- PREF (R290). -/
def prefOk (h : LHdr) (f : MForm) : Bool :=
  hdrPlain h && f.ty == 0#4 && f.dst == 0#8 && isVB f.a && f.scope == 0#3 && f.opx ≤ 1#4

/-- The scope field of the synchronisation instructions (R309). -/
def immScope (imm : BitVec 28) : BitVec 3 := imm.extractLsb' 16 3
/-- PACQ (R310). -/
def pacqOk (h : LHdr) (f : IForm) : Bool :=
  hdrBand h && f.ty == 0#4 && isB0 f.a && immScope f.imm ≤ 4#3 && f.imm.extractLsb' 20 8 == 0#8 &&
    (if f.imm.getLsbD 19 then isB f.dst else isVB f.dst)
/-- PREL (R311). -/
def prelOk (h : LHdr) (f : IForm) : Bool :=
  hdrBand h && f.ty == 0#4 && isB0 f.a && immScope f.imm ≤ 4#3 && f.imm.extractLsb' 25 3 == 0#3 &&
    (if f.imm.extractLsb' 23 2 == 0#2 then f.dst == 0#8 else isB f.dst)
/-- FENCE (R312). -/
def fenceOk (h : LHdr) (f : IForm) : Bool :=
  hdrBand h && f.ty == 0#4 && f.dst == 0#8 && f.a == 0#8 && immScope f.imm ≤ 4#3 && f.imm.extractLsb' 0 16 == 0#16 &&
    f.imm.extractLsb' 23 5 == 0#5
/-- QFENCE (R313). -/
def laneQfenceOk (h : LHdr) (f : IForm) : Bool :=
  hdrBand h && f.ty == 0#4 && f.dst == 0#8 && f.a == 0#8 && f.imm.extractLsb' 7 21 == 0#21 && f.imm != 0#28
/-- BAR (R320). -/
def barOk (h : LHdr) (f : IForm) : Bool :=
  let lvl := f.imm.extractLsb' 14 2
  hdrBand h && f.ty == 0#4 && f.dst == 0#8 && f.a == 0#8 && !f.imm.getLsbD 13 && !f.imm.getLsbD 27 && lvl != 3#2 &&
    (lvl != 0#2 || (f.imm.extractLsb' 16 4 == 0#4 && f.imm.extractLsb' 20 4 == 0#4)) &&
    (lvl == 2#2 || f.imm.extractLsb' 24 2 == 0#2)
/-- TRAP (R116). -/
def laneTrapOk (h : LHdr) (f : IForm) : Bool := hdrPlain h && f.ty == 0#4 && f.dst == 0#8 && f.a == 0#8
/-- BKPT (R401). -/
def bkptOk (h : LHdr) (f : IForm) : Bool := laneTrapOk h f && f.imm.extractLsb' 16 12 == 0#12
/-- CSRR (R116). -/
def csrrOk (h : LHdr) (f : IForm) : Bool :=
  hdrPlain h && f.ty == 0#4 && isVB f.dst && f.a == 0#8 && f.imm.extractLsb' 12 16 == 0#16
/-- CSRW (R116). -/
def csrwOk (h : LHdr) (f : IForm) : Bool :=
  hdrPlain h && f.ty == 0#4 && f.dst == 0#8 && isVB f.a && f.imm.extractLsb' 12 16 == 0#16

/-! ### Policies -/

/-- The number of fields of a view table (R342 to R346); a selector above 4 names none. -/
def viewFields (t : BitVec 3) : Nat :=
  if t == 0#3 then 7 else if t == 1#3 then 8 else if t == 2#3 then 8 else if t == 3#3 then 8
  else if t == 4#3 then 7 else 0
/-- A field that its table holds (R358 code 10). -/
def viewOk (t : BitVec 3) (f : BitVec 5) : Bool := decide (f.toNat < viewFields t)
/-- The operands that R354 fixes at zero in IMM14 (R358 code 11). -/
def decOk (k : BitVec 4) (imm : BitVec 14) : Bool :=
  if k == 3#4 then imm.extractLsb' 4 10 == 0#10
  else if k == 7#4 || k == 8#4 || k == 11#4 then imm.extractLsb' 2 12 == 0#12
  else k ≤ 11#4 && imm == 0#14

/-! ### All instructions -/

/-- A well-formed instruction. The operands of an event stand in the request record and their checks are guards of its effect. -/
def Instr.wf (i : Instr) : Bool :=
  match i with
  | .seqNop => true
  | .seqAdd _ _ _ _ => true
  | .seqAddImm _ _ _ _ => true
  | .seqSub _ _ _ _ => true
  | .seqSubImm _ _ _ _ => true
  | .seqMul _ _ _ _ => true
  | .seqMulImm _ _ _ _ => true
  | .seqMulh _ _ _ _ _ => true
  | .seqAnd _ _ _ _ => true
  | .seqAndImm _ _ _ _ => true
  | .seqOr _ _ _ _ => true
  | .seqOrImm _ _ _ _ => true
  | .seqXor _ _ _ _ => true
  | .seqXorImm _ _ _ _ => true
  | .seqAndn _ _ _ _ => true
  | .seqShl _ _ _ _ => true
  | .seqShlImm _ _ _ _ => true
  | .seqShr _ _ _ _ => true
  | .seqShrImm _ _ _ _ => true
  | .seqSar _ _ _ _ => true
  | .seqSarImm _ _ _ _ => true
  | .seqMin _ _ _ _ _ => true
  | .seqMinImm _ _ _ _ => true
  | .seqMax _ _ _ _ _ => true
  | .seqMaxImm _ _ _ _ => true
  | .seqCmp _ d _ _ _ => d != 0#4
  | .seqCmpImm _ d _ _ _ => d != 0#4
  | .seqSel _ _ _ _ _ => true
  | .seqMov _ _ _ => true
  | .seqMovi _ _ _ => true
  | .seqMovh _ _ _ _ => true
  | .seqFadd _ _ _ _ rm md => rmOk rm md
  | .seqFsub _ _ _ _ rm md => rmOk rm md
  | .seqFmul _ _ _ _ rm md => rmOk rm md
  | .seqFfma _ _ _ _ _ rm md => rmOk rm md
  | .seqFcmp _ d _ _ _ => d != 0#4
  | .seqCvt _ _ _ rm md dst src => rmOk rm md && seqCvtOk dst src
  | .seqChk _ _ _ => true
  | .seqLds _ _ _ _ sz sx _ => !(sx && sz == 3#2)
  | .seqSts _ _ _ _ _ _ => true
  | .seqTset _ _ _ => true
  | .seqTget _ _ _ => true
  | .seqTalloc _ _ _ => true
  | .seqTfree _ _ => true
  | .seqMovc _ op d a => movcOk op d a
  | .seqCpyin _ _ _ _ _ _ _ => true
  | .seqCpyout _ _ _ _ _ => true
  | .seqCpyxc _ _ _ _ _ => true
  | .seqDrain _ _ => true
  | .seqMxldw _ _ a _ ns => !ns || a == 0#6
  | .seqMxswap _ => true
  | .seqMxmul _ t a _ ten acc z => (!z || acc) && (if ten then t == 0#6 else a == 0#6)
  | .seqEpi _ _ _ => true
  | .seqQfence _ mask => mask != 0#7
  | .seqTsend _ _ _ _ _ => true
  | .seqTrecv _ _ _ => true
  | .seqColl _ _ _ kind op _ => kind != 3#2 && op ≤ 2#3 && (kind != 2#2 || op == 0#3)
  | .seqBr _ _ => true
  | .seqBrc _ _ => true
  | .seqKloop _ _ => true
  | .seqCall _ _ => true
  | .seqRet _ => true
  | .seqTop _ _ _ _ _ _ => true
  | .seqBind _ _ _ => true
  | .seqRebind _ _ _ => true
  | .seqTrestart _ _ _ => true
  | .seqTwaitState _ _ mask => mask != 0#7
  | .seqTwaitAll _ => true
  | .seqTwaitCh _ _ => true
  | .seqLaunch _ _ nb n => if nb then n != 0#4 else n == 0#4
  | .seqTenq _ _ nb n => if nb then n != 0#4 else n == 0#4
  | .seqDdec _ _ _ scope => 2#3 ≤ scope && scope ≤ 4#3
  | .seqDdecCancel _ _ level => level ≤ 4#3
  | .seqMark _ _ => true
  | .seqIpatch _ _ _ _ => true
  | .seqSysCsrr _ _ _ _ => true
  | .seqSysCsrw _ _ _ _ => true
  | .seqSysCsrs _ _ _ _ _ => true
  | .seqSysCsrc _ _ _ _ _ => true
  | .seqSysInt _ _ => true
  | .seqSysRkreg _ _ _ _ => true
  | .seqSysRkrev _ _ => true
  | .seqEret _ => true
  | .seqTrap _ _ => true
  | .laneNop h f => hdrPlain h && !h.neg && h.pred == 7#4 && vZero f
  | .laneBra h _ => hdrPlain h
  | .laneBrx h f => hdrPlain h && isVB f.a && vOnlyA f
  | .laneCall h _ => hdrPlain h
  | .laneRet h f => hdrPlain h && isB f.a && vOnlyA f
  | .laneJoin h _ => hdrBand h
  | .laneExit h f => hdrPlain h && vZero f
  | .laneYield h f => hdrPlain h && vZero f
  | .laneWait h f => waitOk h f
  | .laneIadd h f => int2 true h f
  | .laneIsub h f => int2 true h f
  | .laneImul h f => int2 true h f
  | .laneImad h f => int3 true h f
  | .laneImulh h f => int2 false h f
  | .laneIdiv h f => int2 true h f
  | .laneIrem h f => int2 false h f
  | .laneImin h f => int2 false h f
  | .laneImax h f => int2 false h f
  | .laneIshift h f => intFn 2#4 true h f
  | .laneIlogic h f => intFn 15#4 true h f
  | .laneIbit h f => intFn 3#4 false h f
  | .laneBfx h f => int2 false h f
  | .laneBfi h f => int3 false h f
  | .laneIcmp h f => icmpOk h f
  | .laneSel h f => selOk h f
  | .laneIabs h f => int1 h f
  | .laneIneg h f => int1 h f
  | .laneIaddImm h f => intImm h f
  | .laneIsubImm h f => intImm h f
  | .laneImulImm h f => intImm h f
  | .laneIminImm h f => intImm h f
  | .laneImaxImm h f => intImm h f
  | .laneFadd h f => fp2 h f
  | .laneFsub h f => fp2 h f
  | .laneFmul h f => fp2 h f
  | .laneFfma h f => fp3 h f
  | .laneFmin h f => fpMM h f
  | .laneFmax h f => fpMM h f
  | .laneFcmp h f => fcmpOk h f
  | .laneFsf h f => fsfOk h f
  | .laneFaddImm h f => fpImm h f
  | .laneFmulImm h f => fpImm h f
  | .laneSladd h f => sli2 h f
  | .laneSlsub h f => sli2 h f
  | .laneSlmul h f => sli2 h f
  | .laneSldiv h f => sli2 h f
  | .laneSlcmp h f => slcmpOk h f
  | .laneCvt h f => cvtOk h f
  | .laneCvtw h f => cvtwOk h f
  | .laneCvtn h f => cvtnOk h f
  | .lanePack h f => packOk h f
  | .laneUnpk h f => unpkOk h f
  | .laneMov h f => movOk h f
  | .laneMovi h f => moviOk h f
  | .laneB2v h f => b2vOk h f
  | .laneV2b h f => v2bOk h f
  | .laneShfl h f => shflOk h f
  | .laneVote h f => voteOk h f
  | .laneBred h f => bredOk h f
  | .laneLd h f => loadOk true h f
  | .laneSt h f => storeOk true h f
  | .laneLdt h f => loadOk false h f
  | .laneStt h f => storeOk false h f
  | .laneLdb h f => blockOk h f
  | .laneStb h f => blockOk h f
  | .laneAtom h f => atomOk h f
  | .laneRed h f => redOk h f
  | .laneCpy h f => cpyOk h f
  | .laneDrain h f => drainOk h f
  | .lanePref h f => prefOk h f
  | .lanePacq h f => pacqOk h f
  | .lanePrel h f => prelOk h f
  | .laneFence h f => fenceOk h f
  | .laneBar h f => barOk h f
  | .laneQfence h f => laneQfenceOk h f
  | .laneQbind h f => qbindOk h f
  | .laneMmj h f => mmjOk h f
  | .laneTopn h f => topnOk h f
  | .laneTenq h f => laneTaskOk h f
  | .laneDdec h f => laneDdecOk h f
  | .laneDdecCancel h f => laneCancelOk h f
  | .laneLaunch h f => laneTaskOk h f
  | .laneTrap h f => laneTrapOk h f
  | .laneBkpt h f => bkptOk h f
  | .laneChkt h f => chktOk h f
  | .laneCsrr h f => csrrOk h f
  | .laneCsrw h f => csrwOk h f
  | .laneFlgr h f => flgrOk h f
  | .polNop => true
  | .polLdi _ _ => true
  | .polMov _ _ => true
  | .polAdd _ _ _ => true
  | .polAddImm _ _ _ => true
  | .polSub _ _ _ => true
  | .polSubImm _ _ _ => true
  | .polAnd _ _ _ => true
  | .polAndImm _ _ _ => true
  | .polOr _ _ _ => true
  | .polOrImm _ _ _ => true
  | .polXor _ _ _ => true
  | .polXorImm _ _ _ => true
  | .polShl _ _ _ => true
  | .polShlImm _ _ _ => true
  | .polShr _ _ _ => true
  | .polShrImm _ _ _ => true
  | .polMin _ _ _ => true
  | .polMinImm _ _ _ => true
  | .polMax _ _ _ => true
  | .polMaxImm _ _ _ => true
  | .polCmp _ _ _ cc => cc ≤ 5#3
  | .polSel _ _ _ _ => true
  | .polBf _ off => off != 0#18
  | .polJf off => off != 0#18
  | .polLoop n => 1#18 ≤ n && n ≤ 64#18
  | .polEndl => true
  | .polLdv _ a t f => viewOk t f && (t ≤ 1#3 || a == 0#4)
  | .polScanMin _ _ t f => t ≤ 1#3 && viewOk t f
  | .polScanMax _ _ t f => t ≤ 1#3 && viewOk t f
  | .polCnt _ _ => true
  | .polDec _ _ k imm => decOk k imm
  | .polEnd => true
  | .moduleReset => true
  | .clockControllerTick => true
  | .cpRegisterWrite => true
  | .coreMaskWrite => true
  | .rootMaskWrite => true
  | .polderRangeWrite => true
  | .vectorPendingClear => true
  | .descriptorWrite => true
  | .imageLoadOpen => true
  | .imageTransfer => true
  | .startVectorWrite => true
  | .contextRetire => true
  | .contextScrub => true
  | .controlPortDataWrite => true
  | .controlNodeMap => true
  | .controlNodeUnmap => true
  | .translationInvalidate => true
  | .translationInvalidateAck => true
  | .pennantWordWrite => true
  | .depCounterWrite => true
  | .cancelCommand => true
  | .policyShadowWrite => true
  | .policyCheck => true
  | .policyCheckDone => true
  | .policySwap => true
  | .policyDisable => true
  | .policyRetire => true
  | .policyScrub => true
  | .freeFrameAppend => true
  | .lpresetWrite => true
  | .hackWrite => true
  | .lportEnable => true
  | .lportDisable => true
  | .lportReadClear => true
  | .lfabWrite => true
  | .lfabReadClear => true
  | .wctlWrite => true
  | .breakpointWrite => true
  | .watchpointWrite => true
  | .haltCommand => true
  | .resumeCommand => true
  | .debugWindowSelect => true
  | .debugWindowRead => true
  | .debugWindowWrite => true
  | .pwrSetActive => true
  | .pwrEnterP3 => true
  | .pwrEnterP4 => true
  | .attestationRequest => true
  | .tenantKeyInstall => true
  | .tenantKeyRemove => true
  | .debugLevelRequest => true
  | .vendorUnlockExit => true
  | .ueStrand => true
  | .ueSeq => true
  | .ueArray => true
  | .uePageFrame => true
  | .localListStart => true
  | .launchPlaceStartVector => true
  | .unitRetire => true
  | .coreSaveComplete => true
  | .replayInputDeliver => true
  | .creditGrant => true
  | .taskProcess => true
  | .depCounterDecrement => true
  | .cancelArrive => true
  | .taskCompletionSequence => true
  | .policyInvocationStart => true
  | .policyOverrun => true
  | .sluiceReplayDecision => true
  | .decisionKeep => true
  | .decisionPlace => true
  | .decisionSteal => true
  | .decisionPreempt => true
  | .decisionKillstrand => true
  | .decisionRestart => true
  | .decisionPark => true
  | .decisionMap => true
  | .decisionMigrate => true
  | .decisionReplay => true
  | .decisionEscalate => true
  | .decisionRemap => true
  | .copyCommandStart => true
  | .copyCommandComplete => true
  | .copyFail => true
  | .cpyxcTransferBegin => true
  | .drainMarkerComplete => true
  | .gangForm => true
  | .snapCopyRetire => true
  | .invocationEnd => true
  | .bandFree => true
  | .laneAccessComplete => true
  | .refusalReport => true
  | .queueEndpointAccept => true
  | .hostAccessTimeout => true
  | .migrateCopyComplete => true
  | .migrateCopyFail => true
  | .mxldwStart => true
  | .weightLoadComplete => true
  | .mxswapPerform => true
  | .streamEnter => true
  | .streamLastRow => true
  | .streamRowResult => true
  | .accBankWrite => true
  | .streamOperandFault => true
  | .jointOpEnter => true
  | .epiStart => true
  | .epiRowWrite => true
  | .epiRetire => true
  | .barrierArrival => true
  | .barrierFlip => true
  | .pennantOperationPerform => true
  | .linkTrainingEnd => true
  | .linkTrainingTimeout => true
  | .linkFlitError => true
  | .linkReplayComplete => true
  | .linkReplayTimeout => true
  | .linkLaneLockLoss => true
  | .linkRetrainEnd => true
  | .linkRecoveringTimeout => true
  | .e2eTimerExpiry => true
  | .e2eLimitExpiry => true
  | .packetWrite => true
  | .packetRead => true
  | .packetAtomic => true
  | .packetRed => true
  | .packetPennant => true
  | .packetResp => true
  | .packetAck => true
  | .packetNack => true
  | .packetTnote => true
  | .packetTpull => true
  | .packetTdata => true
  | .packetCdata => true
  | .packetCres => true
  | .linkSendEntryStart => true
  | .collEntryStart => true
  | .collEntryComplete => true
  | .ipatchComplete => true
  | .hangWatchdogFire => true
  | .stopReport => true
  | .illegalOp => true
  | .instructionFetchFault => true
  | .packetDiscard => true
  | .coreFailure => true
  | .hbmChannelFailure => true

end Sys2Proof
end

