-- ==== Sys2Proof/Decode.lean ====
section
/-!
DEFINITION. The words of the three instruction sets (R59 to R91): an encoder, and a decoder that is total on any bits.
The decoder picks a candidate by its opcode and answers it only when the word is exactly the candidate's encoding (so every
unused and reserved bit is zero, R5) and its fields are ones that its description allows. Anything else is ILLEGAL_OP.
-/

namespace Sys2Proof

/-- One bit. -/
def ofBool (x : Bool) : BitVec 1 := if x then 1#1 else 0#1
/-- A flag in bit 0 of an 8-bit field. -/
def bit8 (x : Bool) : BitVec 8 := if x then 1#8 else 0#8

/-- Opcode and predicate of a slot (R60). -/
def encHead (op : BitVec 8) (p : Pred) : BitVec 13 := op ++ p.pc ++ ofBool p.ng
/-- The SR format (R62). -/
def encSR (op : BitVec 8) (p : Pred) (d a b c : BitVec 6) (rm : BitVec 2) (md : Bool) (x : BitVec 8) : BitVec 48 :=
  encHead op p ++ d ++ a ++ b ++ c ++ rm ++ ofBool md ++ x
/-- The SI format (R63). -/
def encSI (op : BitVec 8) (p : Pred) (d a : BitVec 6) (imm : BitVec 23) : BitVec 48 := encHead op p ++ d ++ a ++ imm
/-- The SM format (R64). -/
def encSM (op : BitVec 8) (p : Pred) (d a : BitVec 6) (sp : Bool) (sz : BitVec 2) (sx : Bool) (off : BitVec 19) :
    BitVec 48 := encHead op p ++ d ++ a ++ ofBool sp ++ sz ++ ofBool sx ++ off
/-- The SE format (R65). -/
def encSE (op : BitVec 8) (p : Pred) (ch : BitVec 2) (t a b : BitVec 6) (opt : BitVec 15) : BitVec 48 :=
  encHead op p ++ ch ++ t ++ a ++ b ++ opt
/-- The SDR format (R66). -/
def encSDR (op : BitVec 8) (p : Pred) (a b d : BitVec 6) (x : BitVec 17) : BitVec 48 := encHead op p ++ a ++ b ++ d ++ x
/-- The ST format (R66). -/
def encST (op : BitVec 8) (p : Pred) (n : BitVec 8) (h0 h1 h2 h3 : BitVec 6) : BitVec 48 :=
  encHead op p ++ n ++ h0 ++ h1 ++ h2 ++ h3 ++ 0#3
/-- The SB and SK formats (R66). -/
def encSB (op : BitVec 8) (p : Pred) (x : BitVec 32) : BitVec 48 := encHead op p ++ 0#3 ++ x

/-- The header of a lane instruction (R77). -/
def encHdr (op : BitVec 9) (h : LHdr) : BitVec 16 := ofBool h.neg ++ op ++ h.pred ++ ofBool h.u ++ ofBool h.dp
/-- The V form (R83, R85). -/
def encV (op : BitVec 9) (h : LHdr) (f : VForm) : BitVec 64 :=
  encHdr op h ++ f.ty ++ f.dst ++ f.a ++ f.b ++ f.c ++ f.rm ++ ofBool f.md ++ ofBool f.sat ++ f.fn ++ f.xt
/-- The I form (R83). -/
def encI (op : BitVec 9) (h : LHdr) (f : IForm) : BitVec 64 := encHdr op h ++ f.ty ++ f.dst ++ f.a ++ f.imm
/-- The M form (R83, R85). -/
def encM (op : BitVec 9) (h : LHdr) (f : MForm) : BitVec 64 :=
  encHdr op h ++ f.ty ++ f.dst ++ f.a ++ f.off ++ f.opx ++ f.scope ++ 0#1
/-- The Br form (R83). -/
def encBr (op : BitVec 9) (h : LHdr) (off : BitVec 32) : BitVec 64 := encHdr op h ++ 0#16 ++ off

/-- A policy instruction in register form (R88). -/
def encPR (op : BitVec 6) (d a b c : BitVec 4) (x : BitVec 10) : BitVec 32 := op ++ d ++ a ++ b ++ c ++ x
/-- A policy instruction in immediate form (R88). -/
def encPI (op : BitVec 6) (d a : BitVec 4) (imm : BitVec 18) : BitVec 32 := op ++ d ++ a ++ imm

/-! ### The words of the sequencer slots -/

/-- The 48 bits of a slot instruction (R60 to R70). Any other instruction has none: it is answered by a NOP. -/
def encodeSlot : Instr → BitVec 48
  | .seqAdd p d a b => encSR 1 p d a b 0#6 0#2 false 0#8
  | .seqAddImm p d a imm => encSI 65 p d a imm
  | .seqSub p d a b => encSR 2 p d a b 0#6 0#2 false 0#8
  | .seqSubImm p d a imm => encSI 66 p d a imm
  | .seqMul p d a b => encSR 3 p d a b 0#6 0#2 false 0#8
  | .seqMulImm p d a imm => encSI 67 p d a imm
  | .seqMulh p d a b u => encSR 4 p d a b 0#6 0#2 false (bit8 u)
  | .seqAnd p d a b => encSR 5 p d a b 0#6 0#2 false 0#8
  | .seqAndImm p d a imm => encSI 69 p d a imm
  | .seqOr p d a b => encSR 6 p d a b 0#6 0#2 false 0#8
  | .seqOrImm p d a imm => encSI 70 p d a imm
  | .seqXor p d a b => encSR 7 p d a b 0#6 0#2 false 0#8
  | .seqXorImm p d a imm => encSI 71 p d a imm
  | .seqAndn p d a b => encSR 8 p d a b 0#6 0#2 false 0#8
  | .seqShl p d a b => encSR 9 p d a b 0#6 0#2 false 0#8
  | .seqShlImm p d a sh => encSI 73 p d a (sh.setWidth 23)
  | .seqShr p d a b => encSR 10 p d a b 0#6 0#2 false 0#8
  | .seqShrImm p d a sh => encSI 74 p d a (sh.setWidth 23)
  | .seqSar p d a b => encSR 11 p d a b 0#6 0#2 false 0#8
  | .seqSarImm p d a sh => encSI 75 p d a (sh.setWidth 23)
  | .seqMin p d a b u => encSR 12 p d a b 0#6 0#2 false (bit8 u)
  | .seqMinImm p d a imm => encSI 76 p d a imm
  | .seqMax p d a b u => encSR 13 p d a b 0#6 0#2 false (bit8 u)
  | .seqMaxImm p d a imm => encSI 77 p d a imm
  | .seqCmp p d a b cc => encSR 14 p (d.setWidth 6) a b 0#6 0#2 false (cc.setWidth 8)
  | .seqCmpImm p d a cc imm => encSI 78 p (d.setWidth 6) a ((0#1 ++ cc ++ imm).setWidth 23)
  | .seqSel p d c a b => encSR 15 p d a b (c.setWidth 6) 0#2 false 0#8
  | .seqMov p d a => encSR 16 p d a 0#6 0#6 0#2 false 0#8
  | .seqMovi p d imm => encSI 17 p d 0#6 imm
  | .seqMovh p d q imm => encSI 18 p d 0#6 (q ++ 0#5 ++ imm)
  | .seqFadd p d a b rm md => encSR 19 p d a b 0#6 rm md 0#8
  | .seqFsub p d a b rm md => encSR 20 p d a b 0#6 rm md 0#8
  | .seqFmul p d a b rm md => encSR 21 p d a b 0#6 rm md 0#8
  | .seqFfma p d a b c rm md => encSR 22 p d a b c rm md 0#8
  | .seqFcmp p d a b cc => encSR 23 p (d.setWidth 6) a b 0#6 0#2 false (cc.setWidth 8)
  | .seqCvt p d a rm md dst src => encSR 24 p d a 0#6 0#6 rm md (dst ++ src)
  | .seqChk p a b => encSR 25 p 0#6 a b 0#6 0#2 false 0#8
  | .seqLds p d a sp sz sx off => encSM 1 p d a sp sz sx off
  | .seqSts p d a sp sz off => encSM 2 p d a sp sz false off
  | .seqTset p d a => encSM 3 p d a false 0#2 false 0#19
  | .seqTget p d a => encSM 4 p d a false 0#2 false 0#19
  | .seqTalloc p d a => encSM 5 p d a false 0#2 false 0#19
  | .seqTfree p a => encSM 6 p 0#6 a false 0#2 false 0#19
  | .seqMovc p op d a => encSM 7 p d a false 0#2 false (op.setWidth 19)
  | .seqCpyin p ch t a tr sp cv => encSE 1 p ch t a 0#6 ((ofBool cv ++ ofBool sp ++ ofBool tr).setWidth 15)
  | .seqCpyout p ch t a tr => encSE 2 p ch t a 0#6 ((ofBool tr).setWidth 15)
  | .seqCpyxc p ch t b tr => encSE 3 p ch t 0#6 b ((ofBool tr).setWidth 15)
  | .seqDrain p ch => encSE 4 p ch 0#6 0#6 0#6 0#15
  | .seqMxldw p t a b ns => encSE 5 p 0#2 t a b ((ofBool ns).setWidth 15)
  | .seqMxswap p => encSE 6 p 0#2 0#6 0#6 0#6 0#15
  | .seqMxmul p t a b ten acc z => encSE 7 p 0#2 t a b ((ofBool z ++ ofBool acc ++ ofBool ten).setWidth 15)
  | .seqEpi p t a => encSE 8 p 0#2 t a 0#6 0#15
  | .seqQfence p mask => encSE 9 p 0#2 0#6 0#6 0#6 (mask.setWidth 15)
  | .seqTsend p ch t a b => encSE 10 p ch t a b 0#15
  | .seqTrecv p t q => encSE 11 p 0#2 t 0#6 0#6 (q.setWidth 15)
  | .seqColl p ch a kind op res => encSE 12 p ch 0#6 a 0#6 ((ofBool res ++ op ++ kind).setWidth 15)
  | .seqBr p off => encSB 1 p off
  | .seqBrc p a => encSDR 2 p a 0#6 0#6 0#17
  | .seqKloop p off => encSB 3 p off
  | .seqCall p off => encSB 4 p off
  | .seqRet p => encSDR 5 p 0#6 0#6 0#6 0#17
  | .seqTop p topn h0 h1 h2 h3 => encST 6 p topn h0 h1 h2 h3
  | .seqBind p a b => encSDR 7 p a b 0#6 0#17
  | .seqRebind p a b => encSDR 8 p a b 0#6 0#17
  | .seqTrestart p a abandon => encSDR 9 p a 0#6 0#6 ((ofBool abandon).setWidth 17)
  | .seqTwaitState p n mask => encSDR 10 p 0#6 0#6 0#6 ((n ++ mask).setWidth 17)
  | .seqTwaitAll p => encSDR 10 p 0#6 0#6 0#6 0x8000#17
  | .seqTwaitCh p ch => encSDR 10 p 0#6 0#6 0#6 (2#2 ++ ch ++ 0#13)
  | .seqLaunch p a nb n => encSDR 11 p a 0#6 0#6 ((ofBool nb ++ n).setWidth 17)
  | .seqTenq p a nb n => encSDR 12 p a 0#6 0#6 ((ofBool nb ++ n).setWidth 17)
  | .seqDdec p a b scope => encSDR 13 p a b 0#6 (scope.setWidth 17)
  | .seqDdecCancel p a level => encSDR 13 p a 0#6 0#6 (1#2 ++ 0#12 ++ level)
  | .seqMark p imm => encSB 14 p imm
  | .seqIpatch p a b lane => encSDR 15 p a b 0#6 ((ofBool lane).setWidth 17)
  | .seqSysCsrr p d a n => encSDR 16 p a 0#6 d (1#8 ++ n)
  | .seqSysCsrw p a b n => encSDR 16 p a b 0#6 (2#8 ++ n)
  | .seqSysCsrs p d a b n => encSDR 16 p a b d (3#8 ++ n)
  | .seqSysCsrc p d a b n => encSDR 16 p a b d (4#8 ++ n)
  | .seqSysInt p a => encSDR 16 p a 0#6 0#6 (8#8 ++ 0#9)
  | .seqSysRkreg p d a b => encSDR 16 p a b d (16#8 ++ 0#9)
  | .seqSysRkrev p a => encSDR 16 p a 0#6 0#6 (17#8 ++ 0#9)
  | .seqEret p => encSDR 17 p 0#6 0#6 0#6 0#17
  | .seqTrap p imm => encSB 18 p imm
  | _ => 0#48

/-- The 64 bits of a lane instruction (R77, R83, R86). -/
def encodeLane : Instr → BitVec 64
  | .laneNop h f => encV 0x1 h f
  | .laneBra h off => encBr 0x2 h off
  | .laneBrx h f => encV 0x3 h f
  | .laneCall h off => encBr 0x4 h off
  | .laneRet h f => encV 0x5 h f
  | .laneJoin h off => encBr 0x6 h off
  | .laneExit h f => encV 0x7 h f
  | .laneYield h f => encV 0x8 h f
  | .laneWait h f => encV 0x9 h f
  | .laneIadd h f => encV 0x20 h f
  | .laneIsub h f => encV 0x21 h f
  | .laneImul h f => encV 0x22 h f
  | .laneImad h f => encV 0x23 h f
  | .laneImulh h f => encV 0x24 h f
  | .laneIdiv h f => encV 0x25 h f
  | .laneIrem h f => encV 0x26 h f
  | .laneImin h f => encV 0x27 h f
  | .laneImax h f => encV 0x28 h f
  | .laneIshift h f => encV 0x29 h f
  | .laneIlogic h f => encV 0x2a h f
  | .laneIbit h f => encV 0x2b h f
  | .laneBfx h f => encV 0x2c h f
  | .laneBfi h f => encV 0x2d h f
  | .laneIcmp h f => encV 0x2e h f
  | .laneSel h f => encV 0x2f h f
  | .laneIabs h f => encV 0x30 h f
  | .laneIneg h f => encV 0x31 h f
  | .laneIaddImm h f => encI 0x38 h f
  | .laneIsubImm h f => encI 0x39 h f
  | .laneImulImm h f => encI 0x3a h f
  | .laneIminImm h f => encI 0x3b h f
  | .laneImaxImm h f => encI 0x3c h f
  | .laneFadd h f => encV 0x40 h f
  | .laneFsub h f => encV 0x41 h f
  | .laneFmul h f => encV 0x42 h f
  | .laneFfma h f => encV 0x43 h f
  | .laneFmin h f => encV 0x44 h f
  | .laneFmax h f => encV 0x45 h f
  | .laneFcmp h f => encV 0x46 h f
  | .laneFsf h f => encV 0x47 h f
  | .laneFaddImm h f => encI 0x58 h f
  | .laneFmulImm h f => encI 0x59 h f
  | .laneSladd h f => encV 0x60 h f
  | .laneSlsub h f => encV 0x61 h f
  | .laneSlmul h f => encV 0x62 h f
  | .laneSldiv h f => encV 0x63 h f
  | .laneSlcmp h f => encV 0x64 h f
  | .laneCvt h f => encV 0x80 h f
  | .laneCvtw h f => encV 0x81 h f
  | .laneCvtn h f => encV 0x82 h f
  | .lanePack h f => encV 0x83 h f
  | .laneUnpk h f => encV 0x84 h f
  | .laneMov h f => encV 0xa0 h f
  | .laneMovi h f => encI 0xa1 h f
  | .laneB2v h f => encV 0xa2 h f
  | .laneV2b h f => encV 0xa3 h f
  | .laneShfl h f => encV 0xa4 h f
  | .laneVote h f => encV 0xa5 h f
  | .laneBred h f => encV 0xa6 h f
  | .laneLd h f => encM 0xc0 h f
  | .laneSt h f => encM 0xc1 h f
  | .laneLdt h f => encM 0xc2 h f
  | .laneStt h f => encM 0xc3 h f
  | .laneLdb h f => encM 0xc4 h f
  | .laneStb h f => encM 0xc5 h f
  | .laneAtom h f => encM 0xc6 h f
  | .laneRed h f => encM 0xc7 h f
  | .laneCpy h f => encV 0xc8 h f
  | .laneDrain h f => encV 0xc9 h f
  | .lanePref h f => encM 0xca h f
  | .lanePacq h f => encI 0xe0 h f
  | .lanePrel h f => encI 0xe1 h f
  | .laneFence h f => encI 0xe2 h f
  | .laneBar h f => encI 0xe3 h f
  | .laneQfence h f => encI 0xe4 h f
  | .laneQbind h f => encV 0x100 h f
  | .laneMmj h f => encV 0x101 h f
  | .laneTopn h f => encV 0x102 h f
  | .laneTenq h f => encV 0x103 h f
  | .laneDdec h f => encV 0x104 h f
  | .laneDdecCancel h f => encV 0x104 h f
  | .laneLaunch h f => encV 0x105 h f
  | .laneTrap h f => encI 0x120 h f
  | .laneBkpt h f => encI 0x121 h f
  | .laneChkt h f => encV 0x122 h f
  | .laneCsrr h f => encI 0x123 h f
  | .laneCsrw h f => encI 0x124 h f
  | .laneFlgr h f => encV 0x125 h f
  | _ => 0#64

/-- The 32 bits of a policy instruction (R88, R89). -/
def encodePol : Instr → BitVec 32
  | .polNop => encPR 0 0#4 0#4 0#4 0#4 0#10
  | .polLdi d imm => encPI 1 d 0#4 imm
  | .polMov d a => encPR 2 d a 0#4 0#4 0#10
  | .polAdd d a b => encPR 3 d a b 0#4 0#10
  | .polAddImm d a imm => encPI 35 d a imm
  | .polSub d a b => encPR 4 d a b 0#4 0#10
  | .polSubImm d a imm => encPI 36 d a imm
  | .polAnd d a b => encPR 5 d a b 0#4 0#10
  | .polAndImm d a imm => encPI 37 d a imm
  | .polOr d a b => encPR 6 d a b 0#4 0#10
  | .polOrImm d a imm => encPI 38 d a imm
  | .polXor d a b => encPR 7 d a b 0#4 0#10
  | .polXorImm d a imm => encPI 39 d a imm
  | .polShl d a b => encPR 8 d a b 0#4 0#10
  | .polShlImm d a sh => encPI 40 d a (sh.setWidth 18)
  | .polShr d a b => encPR 9 d a b 0#4 0#10
  | .polShrImm d a sh => encPI 41 d a (sh.setWidth 18)
  | .polMin d a b => encPR 10 d a b 0#4 0#10
  | .polMinImm d a imm => encPI 42 d a imm
  | .polMax d a b => encPR 11 d a b 0#4 0#10
  | .polMaxImm d a imm => encPI 43 d a imm
  | .polCmp d a b cc => encPR 12 d a b 0#4 (cc ++ 0#7)
  | .polSel d a b c => encPR 13 d a b c 0#10
  | .polBf a off => encPI 14 0#4 a off
  | .polJf off => encPI 15 0#4 0#4 off
  | .polLoop n => encPI 16 0#4 0#4 n
  | .polEndl => encPR 17 0#4 0#4 0#4 0#4 0#10
  | .polLdv d a t f => encPI 18 d a (t ++ f ++ 0#10)
  | .polScanMin d a t f => encPI 19 d a (t ++ f ++ 0#10)
  | .polScanMax d a t f => encPI 19 d a (t ++ f ++ 0x200#10)
  | .polCnt d a => encPR 20 d a 0#4 0#4 0#10
  | .polDec a b k imm => encPI 21 b a (k ++ imm)
  | .polEnd => encPR 22 0#4 0#4 0#4 0#4 0#10
  | _ => 0#32

/-! ### Reading a word -/

/-- A slot's predicate field (R60). -/
def predOf (w : BitVec 48) : Pred := ⟨w.extractLsb' 36 4, w.getLsbD 35⟩
/-- A lane instruction's header (R77). -/
def hdrOf (w : BitVec 64) : LHdr := ⟨w.getLsbD 63, w.extractLsb' 50 4, w.getLsbD 49, w.getLsbD 48⟩
/-- A V form's fields (R83, R85). -/
def vOf (w : BitVec 64) : VForm :=
  ⟨w.extractLsb' 44 4, w.extractLsb' 36 8, w.extractLsb' 28 8, w.extractLsb' 20 8, w.extractLsb' 12 8,
    w.extractLsb' 10 2, w.getLsbD 9, w.getLsbD 8, w.extractLsb' 4 4, w.extractLsb' 0 4⟩
/-- An I form's fields (R83). -/
def iOf (w : BitVec 64) : IForm :=
  ⟨w.extractLsb' 44 4, w.extractLsb' 36 8, w.extractLsb' 28 8, w.extractLsb' 0 28⟩
/-- An M form's fields (R83, R85). -/
def mOf (w : BitVec 64) : MForm :=
  ⟨w.extractLsb' 44 4, w.extractLsb' 36 8, w.extractLsb' 28 8, w.extractLsb' 8 20, w.extractLsb' 4 4,
    w.extractLsb' 1 3⟩

/-- The instruction that the A and B slots' map names (R67). -/
def slotAB (w : BitVec 48) : Option Instr :=
  let p := predOf w
  match (w.extractLsb' 40 8).toNat with
  | 0 => some .seqNop
  | 1 => some (.seqAdd p (w.extractLsb' 29 6) (w.extractLsb' 23 6) (w.extractLsb' 17 6))
  | 2 => some (.seqSub p (w.extractLsb' 29 6) (w.extractLsb' 23 6) (w.extractLsb' 17 6))
  | 3 => some (.seqMul p (w.extractLsb' 29 6) (w.extractLsb' 23 6) (w.extractLsb' 17 6))
  | 4 => some (.seqMulh p (w.extractLsb' 29 6) (w.extractLsb' 23 6) (w.extractLsb' 17 6) (w.getLsbD 0))
  | 5 => some (.seqAnd p (w.extractLsb' 29 6) (w.extractLsb' 23 6) (w.extractLsb' 17 6))
  | 6 => some (.seqOr p (w.extractLsb' 29 6) (w.extractLsb' 23 6) (w.extractLsb' 17 6))
  | 7 => some (.seqXor p (w.extractLsb' 29 6) (w.extractLsb' 23 6) (w.extractLsb' 17 6))
  | 8 => some (.seqAndn p (w.extractLsb' 29 6) (w.extractLsb' 23 6) (w.extractLsb' 17 6))
  | 9 => some (.seqShl p (w.extractLsb' 29 6) (w.extractLsb' 23 6) (w.extractLsb' 17 6))
  | 10 => some (.seqShr p (w.extractLsb' 29 6) (w.extractLsb' 23 6) (w.extractLsb' 17 6))
  | 11 => some (.seqSar p (w.extractLsb' 29 6) (w.extractLsb' 23 6) (w.extractLsb' 17 6))
  | 12 => some (.seqMin p (w.extractLsb' 29 6) (w.extractLsb' 23 6) (w.extractLsb' 17 6) (w.getLsbD 0))
  | 13 => some (.seqMax p (w.extractLsb' 29 6) (w.extractLsb' 23 6) (w.extractLsb' 17 6) (w.getLsbD 0))
  | 14 => some (.seqCmp p (w.extractLsb' 29 4) (w.extractLsb' 23 6) (w.extractLsb' 17 6) (w.extractLsb' 0 3))
  | 15 => some (.seqSel p (w.extractLsb' 29 6) (w.extractLsb' 11 4) (w.extractLsb' 23 6) (w.extractLsb' 17 6))
  | 16 => some (.seqMov p (w.extractLsb' 29 6) (w.extractLsb' 23 6))
  | 17 => some (.seqMovi p (w.extractLsb' 29 6) (w.extractLsb' 0 23))
  | 18 => some (.seqMovh p (w.extractLsb' 29 6) (w.extractLsb' 21 2) (w.extractLsb' 0 16))
  | 19 => some (.seqFadd p (w.extractLsb' 29 6) (w.extractLsb' 23 6) (w.extractLsb' 17 6) (w.extractLsb' 9 2) (w.getLsbD 8))
  | 20 => some (.seqFsub p (w.extractLsb' 29 6) (w.extractLsb' 23 6) (w.extractLsb' 17 6) (w.extractLsb' 9 2) (w.getLsbD 8))
  | 21 => some (.seqFmul p (w.extractLsb' 29 6) (w.extractLsb' 23 6) (w.extractLsb' 17 6) (w.extractLsb' 9 2) (w.getLsbD 8))
  | 22 => some (.seqFfma p (w.extractLsb' 29 6) (w.extractLsb' 23 6) (w.extractLsb' 17 6) (w.extractLsb' 11 6) (w.extractLsb' 9 2) (w.getLsbD 8))
  | 23 => some (.seqFcmp p (w.extractLsb' 29 4) (w.extractLsb' 23 6) (w.extractLsb' 17 6) (w.extractLsb' 0 3))
  | 24 => some (.seqCvt p (w.extractLsb' 29 6) (w.extractLsb' 23 6) (w.extractLsb' 9 2) (w.getLsbD 8) (w.extractLsb' 4 4) (w.extractLsb' 0 4))
  | 25 => some (.seqChk p (w.extractLsb' 23 6) (w.extractLsb' 17 6))
  | 65 => some (.seqAddImm p (w.extractLsb' 29 6) (w.extractLsb' 23 6) (w.extractLsb' 0 23))
  | 66 => some (.seqSubImm p (w.extractLsb' 29 6) (w.extractLsb' 23 6) (w.extractLsb' 0 23))
  | 67 => some (.seqMulImm p (w.extractLsb' 29 6) (w.extractLsb' 23 6) (w.extractLsb' 0 23))
  | 69 => some (.seqAndImm p (w.extractLsb' 29 6) (w.extractLsb' 23 6) (w.extractLsb' 0 23))
  | 70 => some (.seqOrImm p (w.extractLsb' 29 6) (w.extractLsb' 23 6) (w.extractLsb' 0 23))
  | 71 => some (.seqXorImm p (w.extractLsb' 29 6) (w.extractLsb' 23 6) (w.extractLsb' 0 23))
  | 73 => some (.seqShlImm p (w.extractLsb' 29 6) (w.extractLsb' 23 6) (w.extractLsb' 0 6))
  | 74 => some (.seqShrImm p (w.extractLsb' 29 6) (w.extractLsb' 23 6) (w.extractLsb' 0 6))
  | 75 => some (.seqSarImm p (w.extractLsb' 29 6) (w.extractLsb' 23 6) (w.extractLsb' 0 6))
  | 76 => some (.seqMinImm p (w.extractLsb' 29 6) (w.extractLsb' 23 6) (w.extractLsb' 0 23))
  | 77 => some (.seqMaxImm p (w.extractLsb' 29 6) (w.extractLsb' 23 6) (w.extractLsb' 0 23))
  | 78 => some (.seqCmpImm p (w.extractLsb' 29 4) (w.extractLsb' 23 6) (w.extractLsb' 19 3) (w.extractLsb' 0 19))
  | _ => none

/-- The instruction that the M slot's map names (R68). -/
def slotM (w : BitVec 48) : Option Instr :=
  let p := predOf w
  match (w.extractLsb' 40 8).toNat with
  | 0 => some .seqNop
  | 1 => some (.seqLds p (w.extractLsb' 29 6) (w.extractLsb' 23 6) (w.getLsbD 22) (w.extractLsb' 20 2) (w.getLsbD 19) (w.extractLsb' 0 19))
  | 2 => some (.seqSts p (w.extractLsb' 29 6) (w.extractLsb' 23 6) (w.getLsbD 22) (w.extractLsb' 20 2) (w.extractLsb' 0 19))
  | 3 => some (.seqTset p (w.extractLsb' 29 6) (w.extractLsb' 23 6))
  | 4 => some (.seqTget p (w.extractLsb' 29 6) (w.extractLsb' 23 6))
  | 5 => some (.seqTalloc p (w.extractLsb' 29 6) (w.extractLsb' 23 6))
  | 6 => some (.seqTfree p (w.extractLsb' 23 6))
  | 7 => some (.seqMovc p (w.extractLsb' 0 4) (w.extractLsb' 29 6) (w.extractLsb' 23 6))
  | _ => none

/-- The instruction that the E slot's map names (R69). -/
def slotE (w : BitVec 48) : Option Instr :=
  let p := predOf w
  match (w.extractLsb' 40 8).toNat with
  | 0 => some .seqNop
  | 1 => some (.seqCpyin p (w.extractLsb' 33 2) (w.extractLsb' 27 6) (w.extractLsb' 21 6) (w.getLsbD 0) (w.getLsbD 1) (w.getLsbD 2))
  | 2 => some (.seqCpyout p (w.extractLsb' 33 2) (w.extractLsb' 27 6) (w.extractLsb' 21 6) (w.getLsbD 0))
  | 3 => some (.seqCpyxc p (w.extractLsb' 33 2) (w.extractLsb' 27 6) (w.extractLsb' 15 6) (w.getLsbD 0))
  | 4 => some (.seqDrain p (w.extractLsb' 33 2))
  | 5 => some (.seqMxldw p (w.extractLsb' 27 6) (w.extractLsb' 21 6) (w.extractLsb' 15 6) (w.getLsbD 0))
  | 6 => some (.seqMxswap p)
  | 7 => some (.seqMxmul p (w.extractLsb' 27 6) (w.extractLsb' 21 6) (w.extractLsb' 15 6) (w.getLsbD 0) (w.getLsbD 1) (w.getLsbD 2))
  | 8 => some (.seqEpi p (w.extractLsb' 27 6) (w.extractLsb' 21 6))
  | 9 => some (.seqQfence p (w.extractLsb' 0 7))
  | 10 => some (.seqTsend p (w.extractLsb' 33 2) (w.extractLsb' 27 6) (w.extractLsb' 21 6) (w.extractLsb' 15 6))
  | 11 => some (.seqTrecv p (w.extractLsb' 27 6) (w.extractLsb' 0 4))
  | 12 => some (.seqColl p (w.extractLsb' 33 2) (w.extractLsb' 21 6) (w.extractLsb' 0 2) (w.extractLsb' 2 3) (w.getLsbD 5))
  | _ => none

/-- The instruction that the D slot's map names (R70). -/
def slotD (w : BitVec 48) : Option Instr :=
  let p := predOf w
  match (w.extractLsb' 40 8).toNat with
  | 0 => some .seqNop
  | 1 => some (.seqBr p (w.extractLsb' 0 32))
  | 2 => some (.seqBrc p (w.extractLsb' 29 6))
  | 3 => some (.seqKloop p (w.extractLsb' 0 32))
  | 4 => some (.seqCall p (w.extractLsb' 0 32))
  | 5 => some (.seqRet p)
  | 6 => some (.seqTop p (w.extractLsb' 27 8) (w.extractLsb' 21 6) (w.extractLsb' 15 6) (w.extractLsb' 9 6) (w.extractLsb' 3 6))
  | 7 => some (.seqBind p (w.extractLsb' 29 6) (w.extractLsb' 23 6))
  | 8 => some (.seqRebind p (w.extractLsb' 29 6) (w.extractLsb' 23 6))
  | 9 => some (.seqTrestart p (w.extractLsb' 29 6) (w.getLsbD 0))
  | 10 => 
    match (w.extractLsb' 15 2).toNat with
    | 0 => some (.seqTwaitState p (w.extractLsb' 7 6) (w.extractLsb' 0 7))
    | 1 => some (.seqTwaitAll p)
    | 2 => some (.seqTwaitCh p (w.extractLsb' 13 2))
    | _ => none
  | 11 => some (.seqLaunch p (w.extractLsb' 29 6) (w.getLsbD 4) (w.extractLsb' 0 4))
  | 12 => some (.seqTenq p (w.extractLsb' 29 6) (w.getLsbD 4) (w.extractLsb' 0 4))
  | 13 => 
    match (w.extractLsb' 15 2).toNat with
    | 0 => some (.seqDdec p (w.extractLsb' 29 6) (w.extractLsb' 23 6) (w.extractLsb' 0 3))
    | 1 => some (.seqDdecCancel p (w.extractLsb' 29 6) (w.extractLsb' 0 3))
    | _ => none
  | 14 => some (.seqMark p (w.extractLsb' 0 32))
  | 15 => some (.seqIpatch p (w.extractLsb' 29 6) (w.extractLsb' 23 6) (w.getLsbD 0))
  | 16 => 
    let a := w.extractLsb' 29 6
    let b := w.extractLsb' 23 6
    let d := w.extractLsb' 17 6
    let n := w.extractLsb' 0 9
    match (w.extractLsb' 9 8).toNat with
    | 1 => some (.seqSysCsrr p d a n)
    | 2 => some (.seqSysCsrw p a b n)
    | 3 => some (.seqSysCsrs p d a b n)
    | 4 => some (.seqSysCsrc p d a b n)
    | 8 => some (.seqSysInt p a)
    | 16 => some (.seqSysRkreg p d a b)
    | 17 => some (.seqSysRkrev p a)
    | _ => none
  | 17 => some (.seqEret p)
  | 18 => some (.seqTrap p (w.extractLsb' 0 32))
  | _ => none

/-- The instruction that the lane map names (R86). -/
def laneCand (w : BitVec 64) : Option Instr :=
  let h := hdrOf w
  match (w.extractLsb' 54 9).toNat with
  | 0x1 => some (.laneNop h (vOf w))
  | 0x2 => some (.laneBra h (w.extractLsb' 0 32))
  | 0x3 => some (.laneBrx h (vOf w))
  | 0x4 => some (.laneCall h (w.extractLsb' 0 32))
  | 0x5 => some (.laneRet h (vOf w))
  | 0x6 => some (.laneJoin h (w.extractLsb' 0 32))
  | 0x7 => some (.laneExit h (vOf w))
  | 0x8 => some (.laneYield h (vOf w))
  | 0x9 => some (.laneWait h (vOf w))
  | 0x20 => some (.laneIadd h (vOf w))
  | 0x21 => some (.laneIsub h (vOf w))
  | 0x22 => some (.laneImul h (vOf w))
  | 0x23 => some (.laneImad h (vOf w))
  | 0x24 => some (.laneImulh h (vOf w))
  | 0x25 => some (.laneIdiv h (vOf w))
  | 0x26 => some (.laneIrem h (vOf w))
  | 0x27 => some (.laneImin h (vOf w))
  | 0x28 => some (.laneImax h (vOf w))
  | 0x29 => some (.laneIshift h (vOf w))
  | 0x2a => some (.laneIlogic h (vOf w))
  | 0x2b => some (.laneIbit h (vOf w))
  | 0x2c => some (.laneBfx h (vOf w))
  | 0x2d => some (.laneBfi h (vOf w))
  | 0x2e => some (.laneIcmp h (vOf w))
  | 0x2f => some (.laneSel h (vOf w))
  | 0x30 => some (.laneIabs h (vOf w))
  | 0x31 => some (.laneIneg h (vOf w))
  | 0x38 => some (.laneIaddImm h (iOf w))
  | 0x39 => some (.laneIsubImm h (iOf w))
  | 0x3a => some (.laneImulImm h (iOf w))
  | 0x3b => some (.laneIminImm h (iOf w))
  | 0x3c => some (.laneImaxImm h (iOf w))
  | 0x40 => some (.laneFadd h (vOf w))
  | 0x41 => some (.laneFsub h (vOf w))
  | 0x42 => some (.laneFmul h (vOf w))
  | 0x43 => some (.laneFfma h (vOf w))
  | 0x44 => some (.laneFmin h (vOf w))
  | 0x45 => some (.laneFmax h (vOf w))
  | 0x46 => some (.laneFcmp h (vOf w))
  | 0x47 => some (.laneFsf h (vOf w))
  | 0x58 => some (.laneFaddImm h (iOf w))
  | 0x59 => some (.laneFmulImm h (iOf w))
  | 0x60 => some (.laneSladd h (vOf w))
  | 0x61 => some (.laneSlsub h (vOf w))
  | 0x62 => some (.laneSlmul h (vOf w))
  | 0x63 => some (.laneSldiv h (vOf w))
  | 0x64 => some (.laneSlcmp h (vOf w))
  | 0x80 => some (.laneCvt h (vOf w))
  | 0x81 => some (.laneCvtw h (vOf w))
  | 0x82 => some (.laneCvtn h (vOf w))
  | 0x83 => some (.lanePack h (vOf w))
  | 0x84 => some (.laneUnpk h (vOf w))
  | 0xa0 => some (.laneMov h (vOf w))
  | 0xa1 => some (.laneMovi h (iOf w))
  | 0xa2 => some (.laneB2v h (vOf w))
  | 0xa3 => some (.laneV2b h (vOf w))
  | 0xa4 => some (.laneShfl h (vOf w))
  | 0xa5 => some (.laneVote h (vOf w))
  | 0xa6 => some (.laneBred h (vOf w))
  | 0xc0 => some (.laneLd h (mOf w))
  | 0xc1 => some (.laneSt h (mOf w))
  | 0xc2 => some (.laneLdt h (mOf w))
  | 0xc3 => some (.laneStt h (mOf w))
  | 0xc4 => some (.laneLdb h (mOf w))
  | 0xc5 => some (.laneStb h (mOf w))
  | 0xc6 => some (.laneAtom h (mOf w))
  | 0xc7 => some (.laneRed h (mOf w))
  | 0xc8 => some (.laneCpy h (vOf w))
  | 0xc9 => some (.laneDrain h (vOf w))
  | 0xca => some (.lanePref h (mOf w))
  | 0xe0 => some (.lanePacq h (iOf w))
  | 0xe1 => some (.lanePrel h (iOf w))
  | 0xe2 => some (.laneFence h (iOf w))
  | 0xe3 => some (.laneBar h (iOf w))
  | 0xe4 => some (.laneQfence h (iOf w))
  | 0x100 => some (.laneQbind h (vOf w))
  | 0x101 => some (.laneMmj h (vOf w))
  | 0x102 => some (.laneTopn h (vOf w))
  | 0x103 => some (.laneTenq h (vOf w))
  | 0x104 => some (if (vOf w).fn == 0#4 then .laneDdec h (vOf w) else .laneDdecCancel h (vOf w))
  | 0x105 => some (.laneLaunch h (vOf w))
  | 0x120 => some (.laneTrap h (iOf w))
  | 0x121 => some (.laneBkpt h (iOf w))
  | 0x122 => some (.laneChkt h (vOf w))
  | 0x123 => some (.laneCsrr h (iOf w))
  | 0x124 => some (.laneCsrw h (iOf w))
  | 0x125 => some (.laneFlgr h (vOf w))
  | _ => none

/-- The instruction that the policy map names (R89). -/
def polCand (w : BitVec 32) : Option Instr :=
  match (w.extractLsb' 26 6).toNat with
  | 0 => some (.polNop)
  | 1 => some (.polLdi (w.extractLsb' 22 4) (w.extractLsb' 0 18))
  | 2 => some (.polMov (w.extractLsb' 22 4) (w.extractLsb' 18 4))
  | 3 => some (.polAdd (w.extractLsb' 22 4) (w.extractLsb' 18 4) (w.extractLsb' 14 4))
  | 35 => some (.polAddImm (w.extractLsb' 22 4) (w.extractLsb' 18 4) (w.extractLsb' 0 18))
  | 4 => some (.polSub (w.extractLsb' 22 4) (w.extractLsb' 18 4) (w.extractLsb' 14 4))
  | 36 => some (.polSubImm (w.extractLsb' 22 4) (w.extractLsb' 18 4) (w.extractLsb' 0 18))
  | 5 => some (.polAnd (w.extractLsb' 22 4) (w.extractLsb' 18 4) (w.extractLsb' 14 4))
  | 37 => some (.polAndImm (w.extractLsb' 22 4) (w.extractLsb' 18 4) (w.extractLsb' 0 18))
  | 6 => some (.polOr (w.extractLsb' 22 4) (w.extractLsb' 18 4) (w.extractLsb' 14 4))
  | 38 => some (.polOrImm (w.extractLsb' 22 4) (w.extractLsb' 18 4) (w.extractLsb' 0 18))
  | 7 => some (.polXor (w.extractLsb' 22 4) (w.extractLsb' 18 4) (w.extractLsb' 14 4))
  | 39 => some (.polXorImm (w.extractLsb' 22 4) (w.extractLsb' 18 4) (w.extractLsb' 0 18))
  | 8 => some (.polShl (w.extractLsb' 22 4) (w.extractLsb' 18 4) (w.extractLsb' 14 4))
  | 40 => some (.polShlImm (w.extractLsb' 22 4) (w.extractLsb' 18 4) (w.extractLsb' 0 6))
  | 9 => some (.polShr (w.extractLsb' 22 4) (w.extractLsb' 18 4) (w.extractLsb' 14 4))
  | 41 => some (.polShrImm (w.extractLsb' 22 4) (w.extractLsb' 18 4) (w.extractLsb' 0 6))
  | 10 => some (.polMin (w.extractLsb' 22 4) (w.extractLsb' 18 4) (w.extractLsb' 14 4))
  | 42 => some (.polMinImm (w.extractLsb' 22 4) (w.extractLsb' 18 4) (w.extractLsb' 0 18))
  | 11 => some (.polMax (w.extractLsb' 22 4) (w.extractLsb' 18 4) (w.extractLsb' 14 4))
  | 43 => some (.polMaxImm (w.extractLsb' 22 4) (w.extractLsb' 18 4) (w.extractLsb' 0 18))
  | 12 => some (.polCmp (w.extractLsb' 22 4) (w.extractLsb' 18 4) (w.extractLsb' 14 4) (w.extractLsb' 7 3))
  | 13 => some (.polSel (w.extractLsb' 22 4) (w.extractLsb' 18 4) (w.extractLsb' 14 4) (w.extractLsb' 10 4))
  | 14 => some (.polBf (w.extractLsb' 18 4) (w.extractLsb' 0 18))
  | 15 => some (.polJf (w.extractLsb' 0 18))
  | 16 => some (.polLoop (w.extractLsb' 0 18))
  | 17 => some (.polEndl)
  | 18 => some (.polLdv (w.extractLsb' 22 4) (w.extractLsb' 18 4) (w.extractLsb' 15 3) (w.extractLsb' 10 5))
  | 19 => some (if w.getLsbD 9 then .polScanMax (w.extractLsb' 22 4) (w.extractLsb' 18 4) (w.extractLsb' 15 3) (w.extractLsb' 10 5) else .polScanMin (w.extractLsb' 22 4) (w.extractLsb' 18 4) (w.extractLsb' 15 3) (w.extractLsb' 10 5))
  | 20 => some (.polCnt (w.extractLsb' 22 4) (w.extractLsb' 18 4))
  | 21 => some (.polDec (w.extractLsb' 18 4) (w.extractLsb' 22 4) (w.extractLsb' 14 4) (w.extractLsb' 0 14))
  | 22 => some (.polEnd)
  | _ => none

/-! ### The decoders -/

/-- The slots of a bundle (R59). -/
inductive Slot where
  | a | b | m | e | d
deriving DecidableEq, Repr

/-- The candidate of a slot's own map. -/
def slotCand : Slot → BitVec 48 → Option Instr
  | .a, w => slotAB w
  | .b, w => slotAB w
  | .m, w => slotM w
  | .e, w => slotE w
  | .d, w => slotD w

/-- The instruction of one slot, or none for ILLEGAL_OP (R61 to R70). -/
def decodeSlot (sl : Slot) (w : BitVec 48) : Option Instr :=
  match slotCand sl w with
  | some i => if encodeSlot i = w ∧ i.wf = true then some i else none
  | none => none

/-- A lane instruction, or none for ILLEGAL_OP (R77 to R87). -/
def decodeLane (w : BitVec 64) : Option Instr :=
  match laneCand w with
  | some i => if encodeLane i = w ∧ i.wf = true then some i else none
  | none => none

/-- A policy instruction, or none where the word is outside the map or holds a nonzero unused field (R89, R90). The other
checks of admission are `Instr.wf`'s and the program's. -/
def decodePol (w : BitVec 32) : Option Instr :=
  match polCand w with
  | some i => if encodePol i = w then some i else none
  | none => none

/-- A decoded bundle (R59). -/
structure Bundle where
  wait : BitVec 4
  mark : Bool
  dup : Bool
  a : Instr
  b : Instr
  m : Instr
  e : Instr
  d : Instr
deriving DecidableEq, Repr

/-- A register that an instruction writes, by file and name as written: s, c, t, KC, FC, ROT (R73). -/
inductive DReg where
  | s (n : BitVec 6)
  | c (n : BitVec 4)
  | t (n : BitVec 6)
  | kc | fc | rot
deriving DecidableEq, Repr

/-- The conditions c1 to c15. -/
def allConds : List DReg := (upFrom 1 15).map (fun n => DReg.c (BitVec.ofNat 4 n))

/-- MOVC's destination (R154). -/
def movcDests (op : BitVec 4) (d : BitVec 6) : List DReg :=
  match op.toNat with
  | 1 => [.c (d.setWidth 4)]
  | 3 => allConds
  | 4 => [.kc]
  | 5 => [.fc]
  | 6 => [.rot]
  | _ => [.s d]

/-- The registers that a slot instruction names as destinations (R73, R140, R153 to R155, R333). -/
def slotDests : Instr → List DReg
  | .seqAdd _ d _ _ | .seqSub _ d _ _ | .seqMul _ d _ _ | .seqAnd _ d _ _ | .seqOr _ d _ _ | .seqXor _ d _ _
  | .seqAndn _ d _ _ | .seqShl _ d _ _ | .seqShr _ d _ _ | .seqSar _ d _ _ => [.s d]
  | .seqMulh _ d _ _ _ | .seqMin _ d _ _ _ | .seqMax _ d _ _ _ => [.s d]
  | .seqAddImm _ d _ _ | .seqSubImm _ d _ _ | .seqMulImm _ d _ _ | .seqAndImm _ d _ _ | .seqOrImm _ d _ _
  | .seqXorImm _ d _ _ | .seqMinImm _ d _ _ | .seqMaxImm _ d _ _ => [.s d]
  | .seqShlImm _ d _ _ | .seqShrImm _ d _ _ | .seqSarImm _ d _ _ => [.s d]
  | .seqCmp _ d _ _ _ => [.c d]
  | .seqCmpImm _ d _ _ _ => [.c d]
  | .seqFcmp _ d _ _ _ => [.c d]
  | .seqSel _ d _ _ _ => [.s d]
  | .seqMov _ d _ => [.s d]
  | .seqMovi _ d _ => [.s d]
  | .seqMovh _ d _ _ => [.s d]
  | .seqFadd _ d _ _ _ _ | .seqFsub _ d _ _ _ _ | .seqFmul _ d _ _ _ _ => [.s d]
  | .seqFfma _ d _ _ _ _ _ => [.s d]
  | .seqCvt _ d _ _ _ _ _ => [.s d]
  | .seqLds _ d _ _ _ _ _ => [.s d]
  | .seqTset _ d _ => [.t d]
  | .seqTalloc _ d _ => [.t d]
  | .seqTget _ d _ => [.s d]
  | .seqTfree _ a => [.t a]
  | .seqMovc _ op d _ => movcDests op d
  | .seqKloop _ _ => [.kc, .fc, .rot, .c 15#4]
  | .seqCall _ _ => [.s 31#6]
  | .seqLaunch _ _ nb n | .seqTenq _ _ nb n => if nb then [.c n] else []
  | .seqSysCsrr _ d _ _ => [.s d]
  | .seqSysCsrs _ d _ _ _ | .seqSysCsrc _ d _ _ _ => [.s d]
  | .seqSysRkreg _ d _ _ => [.s d]
  | _ => []

/-- Two destination lists share a register other than s0 (R73). -/
def destClash (x y : List DReg) : Bool := x.any (fun r => r != .s 0#6 && y.contains r)

/-- No two slots name the same destination (R73). -/
def noClash : List (List DReg) → Bool
  | [] => true
  | x :: t => t.all (fun y => !destClash x y) && noClash t

/-- R72: with DUP, slot A holds an operation other than NOP and CHK, and slot B the same bits but for another D. -/
def dupOk (wa wb : BitVec 48) (a : Instr) : Bool :=
  let mask : BitVec 48 := 0x3F#48 <<< 29
  let da := wa.extractLsb' 29 6
  let db := wb.extractLsb' 29 6
  let plain : Bool := match a with
    | .seqNop => false
    | .seqChk _ _ _ => false
    | _ => true
  plain && (wa ||| mask) == (wb ||| mask) && (da != db || da == 0#6)

/-- The D slot holds MARK. -/
def isMark : Instr → Bool
  | .seqMark _ _ => true
  | _ => false

/-- The bundle-level rules (R71 to R73). -/
def bundleOk (w : BitVec 256) (x : Bundle) : Bool :=
  w.extractLsb' 240 10 == 0#10 && x.mark == isMark x.d &&
    (!x.dup || dupOk (w.extractLsb' 192 48) (w.extractLsb' 144 48) x.a) &&
    noClash [slotDests x.a, slotDests x.b, slotDests x.m, slotDests x.e, slotDests x.d]

/-- A 256-bit bundle, or none for ILLEGAL_OP (R59, R71 to R73). -/
def decodeBundle (w : BitVec 256) : Option Bundle :=
  match decodeSlot .a (w.extractLsb' 192 48), decodeSlot .b (w.extractLsb' 144 48), decodeSlot .m (w.extractLsb' 96 48),
      decodeSlot .e (w.extractLsb' 48 48), decodeSlot .d (w.extractLsb' 0 48) with
  | some a, some b, some m, some e, some d =>
    let x : Bundle := ⟨w.extractLsb' 252 4, w.getLsbD 251, w.getLsbD 250, a, b, m, e, d⟩
    if bundleOk w x then some x else none
  | _, _, _, _, _ => none

/-- A bundle's bits (R59). -/
def encodeBundle (x : Bundle) : BitVec 256 :=
  x.wait ++ ofBool x.mark ++ ofBool x.dup ++ 0#10 ++ encodeSlot x.a ++ encodeSlot x.b ++ encodeSlot x.m ++
    encodeSlot x.e ++ encodeSlot x.d

/-- The first slot of a bundle that holds an instruction. -/
def Bundle.first (x : Bundle) : Instr :=
  if x.a ≠ .seqNop then x.a else if x.b ≠ .seqNop then x.b else if x.m ≠ .seqNop then x.m
  else if x.e ≠ .seqNop then x.e else x.d

/-- The instruction that the decoder reads from `w`: 4 bytes are a policy instruction, 8 a lane instruction, 32 a bundle,
of which the first slot that holds one is answered. -/
def decodeTableWord (nbits w : Nat) : Option Instr :=
  if nbits ≤ 32 then decodePol (BitVec.ofNat 32 w)
  else if nbits ≤ 64 then decodeLane (BitVec.ofNat 64 w)
  else (decodeBundle (BitVec.ofNat 256 w)).map Bundle.first

end Sys2Proof
end

