-- ==== Sys2Proof/Machine/State.lean ====
section
/-!
DEFINITION. The state of the device: everything the specification gives it, as plain data, and the state after module reset.
Sparse tables are lists of keys and entries with rising keys (`aget`, `aput`); a key that is not listed has the entry that
the table's docstring names.
-/

namespace Sys2Proof.Machine

/-! ### Memory -/

/-- A byte-addressed store: the listed bytes, rising by address, and the ranges (first byte, byte after the last) whose
unlisted bytes are undefined (R8); every other unlisted byte is zero. No listed byte equals what its address would read as
unlisted. -/
structure Memory where
  cells : List Host.Cell
  undef : List (Nat × Nat)
deriving DecidableEq, Repr

/-! ### Faults -/

/-- The kinds of fault records (R347, R391, R405). -/
inductive FKind where
  | illegalOp | fetchAlign | regRange | queueUnbound | chkMismatch | trap
  | sysArg | seqAddr | seqAlign | ueSeq | decisionFailed
  | tileHandle | tileState | tileWrite | topUnbound | topArgs | snapRange | nestDenied | nestDepth | nestSelf
  | nestWindow | bindArg | bindInvalid | bindBusy | bindKind | restartState | restartDenied
  | copyDesc | copyFormat | copyBounds | copySparse | copyMeta | xcRefused | xcShape
  | arrayDegraded | mxArg | mxFormat | mxScale | mxNoWeight | mxSchedule | mxDesc | mxBounds | ueArray | epiParam
  | mmjMismatch | mmjArg | mmjQueue
  | intDivZero | divOverflow | brxDiverge | callDiverge | queueDir | queueBusy | queueArg | ueStrand
  | addrRange | tensorInvalid | tensorBounds | tableInvalid | polderFault | keyInvalid | memAlign | tileAddr | tileAlign
  | pageUnmapped | pageAccess | pagePoisoned | inputLocked | keyRevoked | remoteRefused | uePage
  | pennantArg | pennantFree | barArg | barDiverge | barMismatch | taskArg | taskInvalid | depArg | taskLaunch
  | linkFailed | linkQueue | linkShape | linkTileLost | collDesc | collMismatch | linkArg
  | debugHalt | breakHit | watchHit | bkptHit | ipatchArg | hang
deriving DecidableEq, Repr

/-- What a fault record holds (R346). -/
structure FRec where
  kind : FKind
  core : BitVec 6
  slice : BitVec 3
  band : BitVec 4
  seqf : Bool
  rtn : Bool
  nest : Bool
  topc : BitVec 8
  itop : BitVec 8
  mask : Word
  pc : Word
  scyc : BitVec 32
  invid : BitVec 32
  vaddr : Word
  pte : Word
  hreg : Word
  rowprog : Word
deriving DecidableEq, Repr

/-! ### Agents -/

/-- Who acts. -/
inductive Agent where
  | env
  | seq (core : Nat)
  | band (core n : Nat)
  | chan (core ch : Nat)
  | array (core : Nat)
  | link (core q : Nat)
  | epi (core : Nat)
deriving DecidableEq, Repr

/-! ### The sequencer (R57, R74, R110, R133) -/

/-- A result inside its landing range (R74, R75, R110): the file (0 s, 1 c, 2 t, 3 KC, 4 FC), the physical register, the
value (none when it is undefined), and the first and last cycle of the range. -/
structure Landing where
  file : Nat
  reg : Nat
  value : Option Word
  first : Nat
  last : Nat
deriving DecidableEq, Repr

/-- Why a bundle did not issue in a cycle (R135). -/
inductive Stall where
  | wait | fetch | halt | tile | range | equeue
  /-- `TRECV` or (`out`) `TSEND` waits for packets of these devices. -/
  | linkq (out : Bool) (devs : List Nat)
  | store | twait
deriving DecidableEq, Repr

/-- Where a sequencer stands between bundles. -/
inductive SeqPhase where
  /-- No unit runs. -/
  | idle
  /-- Bundles issue. -/
  | run
  /-- A fault record waits for its decision; nothing is fetched (R76, R138). -/
  | faulted
  /-- The unit has ended and waits to retire (R134). -/
  | ended
deriving DecidableEq, Repr

/-- What a sequencer fault needs while its decision is awaited (R112). -/
structure SeqFault where
  kind : FKind
  epc : Word
  erec : Word
  rtn : Bool
deriving DecidableEq, Repr

/-- One sequencer. A register value of none reads undefined (R8); `callAt` is the cycle in which its last `CALL` issued (R155). -/
structure Seq where
  phase : SeqPhase
  s : Vector (Option Word) 64
  c : Vector (Option Bool) 16
  t : Vector (Option Word) 64
  kc : Option Word
  fc : Option Word
  rot : BitVec 5
  land : List Landing
  mode : Word
  flag : Word
  epc : Word
  ecause : Word
  erec : Word
  tvec : Word
  escr : Word
  handler : Bool
  fault : Option SeqFault
  pc : Word
  readyAt : Nat
  entry : Option Nat
  lastIssue : Nat
  stall : Option Stall
  patching : Bool
  halted : Bool
  bpSkip : Bool
  invNext : Nat
  callAt : Option Nat
deriving DecidableEq, Repr

/-! ### The tile store's scoreboards (R160, R183) and routines (R164 to R174) -/

/-- Tile states (R160). -/
inductive TState where
  | free | alloc | filling | ready | bound | writing | draining
deriving DecidableEq, Repr

/-- A scoreboard entry (R160). -/
structure TEntry where
  st : TState
  crd : Nat
  xrd : Nat
deriving DecidableEq, Repr

/-- For which write a range is held (R183). -/
inductive ROwner where
  | copy (id : Nat)
  | arrive (core id : Nat)
  | recv (id : Nat)
  | snap (inv : Nat)
  | nest (inv : Nat)
deriving DecidableEq, Repr

/-- A held byte range of the tile store: first byte and the byte after the last (R183). -/
structure Range where
  lo : Nat
  hi : Nat
  owner : ROwner
deriving DecidableEq, Repr

/-- Invocation states (R173). -/
inductive IState where
  | queued | running | faulted
deriving DecidableEq, Repr

/-- An invocation record (R168): captured entry, handles, `t` registers, scalars; `parent` of a nested one; the band slots
of its gang; whether its snap copy has still to be made. -/
structure Inv where
  id : Nat
  opc : BitVec 8
  entry : BitVec 256
  handles : List Word
  tregs : List (BitVec 6)
  sargs : List Word
  parent : Option Nat
  parentOp : BitVec 8
  abyte : BitVec 8
  st : IState
  formed : Bool
  bands : List Nat
  snapPending : Bool
  cls : Nat
deriving DecidableEq, Repr

/-! ### Copy channels (R178 to R186) -/

/-- What a copy channel's queue entry does. -/
inductive CopyOp where
  | cin | cout | cxc | push | marker | fence
deriving DecidableEq, Repr

/-- How far an entry has come: waiting in the queue, started with its transfers open, parked on a page, waiting for the
destination entry (R182), or waiting for the remote arrival's end. -/
inductive CopySt where
  | queued | moving | parked | waitDest | acks
deriving DecidableEq, Repr

/-- Where a line request goes (R270, R284): a local home (0 HBM, 1 package store) at a byte address, a peer device's region,
the control node's memory, or the core's tile store. -/
inductive Loc where
  | home (h addr : Nat)
  | peer (dev key roff : Nat)
  | host (addr : Nat)
  | tile (addr : Nat)
deriving DecidableEq, Repr

/-- A copy command (R180, R228, R291). `treg` is the scoreboard entry that it holds, none for a lane's; `start` the element
at which it goes on after a page fault; `remote` the remote reads that it waits for, `acks` the remote writes; `tlr` the TLR
that it read when it started (R268); `data` the elements that it has read; `ctx` and `cls` its issuer's context slot and class; `unit` the
index of the lane unit that issued it (R330). -/
structure CopyCmd where
  id : Nat
  op : CopyOp
  treg : Option (BitVec 6)
  handle : Word
  desc : BitVec 256
  dest : Word
  tr : Bool
  sp : Bool
  cv : Bool
  base : Word
  data : List Word
  issuer : Agent
  task : Option Nat
  inv : Option Nat
  fence : Nat
  st : CopySt
  start : Nat
  remote : List Nat
  tlr : BitVec 512
  mtlr : BitVec 512
  acks : List Nat
  ctx : Nat
  cls : Nat
  unit : Option Nat
deriving DecidableEq, Repr

/-! ### The array and the epilogue (R189 to R212) -/

/-- The shadow latch's status (R189). -/
inductive ShadowSt where
  | empty | filling | full
deriving DecidableEq, Repr

/-- A weight latch (R191): format code, the nonzero elements w[k][j] under key 256·k + j, column scales by
column; `undef` after a resume without the WEIGHT component (R109). -/
structure Latch where
  valid : Bool
  undef : Bool
  fmt : Nat
  w : List (Nat × Nat)
  scales : List (Nat × Nat)
deriving DecidableEq, Repr

/-- What an array-queue entry does (R194). -/
inductive ArrOp where
  | ldw | swap | mul | fence
deriving DecidableEq, Repr

/-- An array-queue entry: `num` counts entries from 1 (R201). -/
structure ArrCmd where
  num : Nat
  op : ArrOp
  treg : BitVec 6
  handle : Word
  scales : List (Nat × Nat)
  ns : Bool
  word : Word
  ten : Bool
  acc : Bool
  z : Bool
  desc : BitVec 256
  pair : Nat
  fence : Nat
  started : Bool
  entered : Bool
deriving DecidableEq, Repr

/-- Where a row's results go (R196, R204): the paired EPI, a bank, the result queues of bands of a gang (an invocation's, by rank). -/
inductive RowDst where
  | fin (pair : Nat)
  | bank (b blk : Nat) (z : Bool)
  | queues (inv : Nat) (ranks : List Nat)
deriving DecidableEq, Repr

/-- A row that has entered the array and whose results have not been written (R187). -/
structure RowRes where
  num : Nat
  row : Nat
  dst : RowDst
  isInt : Bool
  vals : List Nat
  left : Bool
  last : Bool
deriving DecidableEq, Repr

/-- A stream that is entering rows (R197): the queue entry's number, the next row, whether it is stopped, and the TLR that a tensor source
was checked against when it started (R268). -/
structure Stream where
  num : Nat
  next : Nat
  stopped : Bool
  tlr : BitVec 512
deriving DecidableEq, Repr

/-- Why the array is FAULTED (R189). -/
inductive ArrFault where
  | operand | ue
deriving DecidableEq, Repr

/-- A joint operation in the rendezvous latch (R203, R237): the operands that the first band fixed and who has arrived. -/
structure Joint where
  inv : Nat
  ty : BitVec 4
  desc : Word
  arrived : List (Nat × Nat × Option Nat)
deriving DecidableEq, Repr

/-- An epilogue-queue entry (R209): the captured block, scales and table. -/
structure EpiCmd where
  num : Nat
  isFence : Bool
  treg : BitVec 6
  handle : Word
  addr : Nat
  block : BitVec 512
  biasReg : BitVec 6
  biasHandle : Word
  scales : List Nat
  lut : List Nat
  pair : Nat
  fence : Nat
  started : Bool
  nextRow : Nat
  stat : Nat
deriving DecidableEq, Repr

/-- The array, its queue, its hazard monitor, its banks and its epilogue; `entering` are the rows of a joint operation that has entered which
follow, one at a time, each with the band (invocation and rank) whose operand entry ends with it (R238). -/
structure ArrayS where
  live : Latch
  shadow : Latch
  shadowSt : ShadowSt
  queue : List ArrCmd
  nextNum : Nat
  stream : Option Stream
  pipe : List RowRes
  entering : List (RowRes × Option (Nat × Nat))
  fault : Option ArrFault
  rowprog : Word
  disabled : List Nat
  monitor : Option (Nat × Nat)
  ldwSince : Bool
  swapped : Bool
  lastLdw : Nat
  pendFmt : Nat
  mulPairs : Nat
  epiPairs : Nat
  joint : Option Joint
  bank0 : Memory
  bank1 : Memory
  epi : List EpiCmd
  epiNum : Nat
deriving DecidableEq, Repr

/-! ### Bands (R213 to R241) -/

/-- Band states (R216). -/
inductive BState where
  | free | loading | ready | issuing | waiting | parked | held | halted | done
deriving DecidableEq, Repr

/-- A divergence-stack entry (R223). -/
structure DivEntry where
  pc : Word
  join : Bool
  mask : Word
deriving DecidableEq, Repr

/-- A queue register's binding (R226, R236): kind, channel, endpoint word, pushes made since it was bound. -/
structure QBinding where
  kind : Nat
  ch : Nat
  word : Word
  pushes : Nat
deriving DecidableEq, Repr

/-- What an outstanding memory access of a band does (R287 to R289). -/
inductive AccKind where
  | load | store | atom | red
deriving DecidableEq, Repr

/-- One part of an outstanding access: the strand, the part's offset in the strand's access and its length, where it goes,
the tensor and page whose translation tags it (R280), the data of a store or the operands of an atomic (`data2` the new
value of a compare-and-swap), the home word of the pennant that the tensor is bound to (R301), the remote request that
carries it, and whether it is performed, with the data read; `page` the page number by which it was translated. -/
structure Piece where
  strand : Nat
  off : Nat
  n : Nat
  loc : Loc
  va : Word
  data : Word
  data2 : Word
  pen : Option Nat
  remote : Option Nat
  performed : Bool
  page : Nat
deriving DecidableEq, Repr

/-- An outstanding memory access of a band: `tile` for LDT and STT; destination, size in bytes, sign extension; operation,
type and scope of an atomic; the instruction's address; the strands whose every part was issued. -/
structure Access where
  id : Nat
  kind : AccKind
  tile : Bool
  dst : BitVec 8
  size : Nat
  sx : Bool
  op : Nat
  ty : BitVec 4
  scope : Nat
  pc : Word
  whole : Word
  pieces : List Piece
deriving DecidableEq, Repr

/-- What a band waits for before its next instruction (R220, R310 to R312, R320, R239): all its accesses, the accesses and
copies of a fence, a pennant operation, a barrier phase, a drain marker, a nested invocation, room in a full queue. -/
inductive BWait where
  | none
  | mem
  | fence (accs copies : List Nat)
  | pennant (id : Nat)
  | bar (leaf : Nat)
  | marker (id : Nat)
  | nested (inv : Nat)
  | joint
deriving DecidableEq, Repr

/-- Why a band has stopped (R216, R356, R398). -/
inductive HaltWhy where
  | none | fault | debug | invocation
deriving DecidableEq, Repr

/-- What a band belongs to: a gang (invocation, rank), or a lane unit (the task's slot in the store, the unit's index, the
band's index in the unit, and the unit's cores). -/
inductive BandOf where
  | gang (inv rank : Nat)
  | unit (task index j : Nat)
deriving DecidableEq, Repr

/-- One band. The vector registers are listed by 64·register + strand; what is not listed is undefined (R218).
`popped` holds what the instruction that is to issue has popped so far, by operand place (R82); `inFlight` the registers that an earlier instruction
still writes, with the cycle from which they may be used (R220, R244). -/
structure Band where
  st : BState
  of : BandOf
  part : BitVec 4
  ctx : BitVec 8
  vregs : Nat
  v : List (Nat × Word)
  b : Vector Word 112
  p : Vector Word 7
  bp : BitVec 7
  q : List (Nat × QBinding)
  resultQ : List (List Word)
  mmjQ : List (List Word)
  staging : List (Nat × List Word)
  popped : List (Nat × List Word)
  stack : List DivEntry
  tileCtr : Nat
  acc : List Access
  mode : Word
  flag : Word
  pc : Word
  live : Word
  dead : Word
  exited : Word
  unfinished : Option Word
  cls : Nat
  readySince : Nat
  readyAt : Nat
  halt : HaltWhy
  faultPc : Word
  faultMask : Word
  heldDecision : Bool
  drains : List Nat
  bpSkip : Bool
  lastIssue : Nat
  wait : BWait
  parkRec : Option FRec
  faultVa : Word
  inFlight : List (Nat × Nat)
deriving DecidableEq, Repr

/-! ### Leaf barriers are in the barrier section; the core -/

/-- A unit on a core's sequencer (R132, R133, R323): the launch, the task's slot when a task started it, the unit's index,
its priority class, and whether a strand of one of its gangs has died (R122). -/
structure SeqUnit where
  part : BitVec 4
  ctx : BitVec 8
  launch : BitVec 32
  task : Option Nat
  index : Nat
  cls : Nat
  degraded : Bool
deriving DecidableEq, Repr

/-- What a local-list entry asks for (R340). -/
inductive LKind where
  | seqUnit | laneUnit
deriving DecidableEq, Repr

/-- A local-list entry (R340): the task's slot (none for a pre-empted start-vector unit), the unit's index, the cores it names; `saved` for a
pre-empted unit that resumes from its save image. -/
structure LEntry where
  kind : LKind
  task : Option Nat
  unit : Nat
  cores : List Nat
  ctx : BitVec 8
  saved : Bool
deriving DecidableEq, Repr

/-! ### Contexts (R103 to R121) -/

/-- Context states (R105), in the order of their codes. -/
inductive CState where
  | empty | loading | ready | running | preempted | recovering | failed | retired
deriving DecidableEq, Repr

/-- Launch states (R131, R132). -/
inductive LState where
  | pending | running | draining | done | cancelled | replaying
deriving DecidableEq, Repr

/-- A launch (R130, R132, R330): its start-vector entries (none for one started by a task), the next unit index, the
cores whose unit has ended and those whose unit has retired, and whether some task of it has ended. -/
structure Launch where
  id : BitVec 32
  st : LState
  vector : Option (List (Nat × Word))
  nextIndex : Nat
  ended : List Nat
  retired : List Nat
  taskEnded : Bool
deriving DecidableEq, Repr

/-- A dependency counter (R326). -/
structure Dep where
  count : Int
  ovf : Bool
deriving DecidableEq, Repr

/-- A replay-log entry (R118): kind, sequence number, payload; `core` is the core into whose receive queue a fragment came (log entry 6:
the tag of R376 does not name it). -/
structure LogEntry where
  kind : Nat
  seq : Nat
  payload : List Byte
  core : Nat
deriving DecidableEq, Repr


/-! ### The barrier tree (R314 to R320) -/

/-- Node states, in the order of their codes (R319). -/
inductive NState where
  | idle | armed | collecting | flipping
deriving DecidableEq, Repr

/-- The operands of a BAR (R320); the counts are the fields, one less than the numbers they stand for. -/
structure BarOps where
  leaf : BitVec 6
  lcnt : BitVec 7
  lvl : BitVec 2
  rid : BitVec 4
  dcnt : BitVec 4
  ccnt : BitVec 2
  f : Bool
deriving DecidableEq, Repr

/-- An arrival: the context it comes from (256 slots), its operands, and the arriving band (band slot), leaf (64·core + leaf)
or die. -/
structure Arrival where
  ctx : Nat
  ops : BarOps
  src : Nat
deriving DecidableEq, Repr

/-- A node: state, phase, what its first arrival latched, what arrived in this phase, what is held for the next. -/
structure BarNode where
  st : NState
  ph : Bool
  pf : Bool
  latched : Option Arrival
  came : List Nat
  held : List Arrival
deriving DecidableEq, Repr

/-- A barrier message on its way up (R315): to die root 16·die + r (level 1) or chip root r (level 2). -/
structure BarMsg where
  level : Nat
  node : Nat
  arrival : Arrival
deriving DecidableEq, Repr

/-- A barrier broadcast on its way down (R316): to the node of the level (0 leaf 64·core + leaf, 1 die root, 2 chip root). -/
structure BarFlip where
  level : Nat
  node : Nat
deriving DecidableEq, Repr

/-- A flip held for the save image of a context slot's core number (R318). -/
structure HeldFlip where
  ctx : Nat
  image : Nat
  leaf : Nat
deriving DecidableEq, Repr

/-! ### Pennants (R296 to R311) -/

/-- A packet (R368); `good` says that its ECRC is that of its contents. -/
structure Packet where
  seq : Nat
  key : BitVec 32
  roff : Word
  op : BitVec 8
  len : Nat
  dst : Nat
  src : Nat
  opx : BitVec 16
  part : BitVec 4
  ctx : BitVec 4
  payload : List Byte
  good : Bool
deriving DecidableEq, Repr

/-- Who asked for a pennant operation: a band, a link send queue's collective, or another device's packet. -/
inductive PenBy where
  | band (core n : Nat)
  | coll (core q id : Nat)
  | packet (src seq : Nat)
deriving DecidableEq, Repr

/-- A pennant operation that has issued: `PACQ` (with or without a condition) or `PREL`; the home word's address (home and
byte), or the forward word when another device holds it; the accesses and copies that a `PREL` waits for; whether it is
recorded as a waiter; the packet that carries another device's operation. -/
structure PenOp where
  id : Nat
  who : PenBy
  acquire : Bool
  ge : Bool
  home : Nat
  addr : Nat
  forward : Option Word
  target : BitVec 30
  vop : BitVec 2
  val : BitVec 32
  scope : Nat
  dst : BitVec 8
  accs : List Nat
  copies : List Nat
  waiting : Bool
  remote : Option Nat
  pkt : Option Packet
deriving DecidableEq, Repr

/-! ### The link (R363 to R391) -/

/-- The requester of a remote request (R375). -/
inductive Requester where
  | none
  | band (core n acc : Nat)
  | copy (core ch id : Nat)
  | stream (core num : Nat)
  | lq (core q id : Nat)
  | pennant (id : Nat)
  | page (mig : Nat)
  | recv (core q id : Nat)
  | packet (src seq : Nat)
deriving DecidableEq, Repr

/-- How a remote or host-access request stands. -/
inductive RStat where
  | waiting
  | answered (data : List Byte)
  | refused (kind : FKind)
deriving DecidableEq, Repr

/-- A request that another device or the control node serves (R284, R436): its number, requester, what it reads or writes. -/
structure RReq where
  id : Nat
  who : Requester
  host : Bool
  part : Nat
  ctx : Nat
  isRead : Bool
  addr : Nat
  n : Nat
  stat : RStat
  peer : Nat
  seq : Nat
deriving DecidableEq, Repr

/-- A sequenced packet that its destination has not acknowledged (R370, R374): the port it was last sent on (none before it has left) and the
remote request that it carries. -/
structure Unacked where
  pkt : Packet
  port : Option Nat
  req : Option Nat
deriving DecidableEq, Repr

/-- What the device keeps for one peer (R370 to R372): next number to send, number expected, packets held beyond it,
packets unacknowledged, packets waiting in the egress queue, responses kept, the port on which a packet of the peer last travelled (R375). -/
structure Peer where
  next : Nat
  expect : Nat
  held : List (Nat × Packet)
  unacked : List Unacked
  egress : List (Packet × Option Nat)
  resps : List (Nat × Packet)
  inPort : Option Nat
deriving DecidableEq, Repr

/-- Port states, in the order of their codes (R364). -/
inductive PortSt where
  | down | training | up | replay | recovering | failed
deriving DecidableEq, Repr

/-- A flit (R363): its 12-bit link sequence number and CRC-32C, which travel outside its 64 bytes, and the bytes. -/
structure Flit where
  seq : Nat
  crc : Nat
  data : List Byte
deriving DecidableEq, Repr

/-- A Drila port (R363, R364, R366, R367, R373): enable, width, state, counters; the packets that wait to leave on it and the partition that it
served last; the number of its next flit, its replay buffer (the flits sent and not acknowledged) and every flit that it has put on the link;
the number of the flit that it expects (hop acknowledgements name it) and the bytes of the packet that is arriving. -/
structure Port where
  en : Bool
  width : Nat
  st : PortSt
  crcerr : Nat
  replays : Nat
  queue : List Packet
  lastPart : Nat
  txSeq : Nat
  replay : List Flit
  wire : List Flit
  rxSeq : Nat
  rx : List Byte
deriving DecidableEq, Repr

/-- What a link send-queue entry does (R381, R387). -/
inductive LqOp where
  | tsend | coll | fence
deriving DecidableEq, Repr

/-- A link send-queue entry: tile and handle, destination word, key and message number of a TSEND; descriptor with its address,
options, ordinal (R388), status, the result's header (key 0 of `got`) and the residual still to write (key 1), and how many result
bytes have come (`msg`) of a collective; the requests that its packets made; whether its release has issued (`rel`); whether it waits
for a page (`parked`). -/
structure LqCmd where
  id : Nat
  op : LqOp
  treg : BitVec 6
  handle : Word
  dest : Word
  key : BitVec 32
  msg : Nat
  desc : BitVec 512
  descAddr : Nat
  opt : BitVec 15
  fence : Nat
  ordinal : Nat
  started : Bool
  done : Bool
  failed : Bool
  pulled : Bool
  remote : List Nat
  got : List (Nat × List Byte)
  stat : BitVec 6
  rel : Bool
  parked : Bool
deriving DecidableEq, Repr

/-- An entry of a core's channel table (R381): destination word, key, pending count, messages numbered so far. -/
structure Chan where
  dest : Word
  key : BitVec 32
  pending : Nat
  sent : Nat
deriving DecidableEq, Repr

/-- A receive queue's owner (R381). -/
inductive RqOwner where
  | none | seq | band (n : Nat)
deriving DecidableEq, Repr

/-- A message that a receive queue has been notified of (R369 TNOTE): its number and source shape. -/
structure Note where
  msg : Nat
  rows : Nat
  cols : Nat
  fmt : Nat
deriving DecidableEq, Repr

/-- A message on its way to a receive queue (R383 to R385): its number, the pull's identifier, the `t` register and handle of the tile
that takes it (0 when a band's queue pulls ahead), the bytes that have come and the bytes that it has. -/
structure Pull where
  msg : Nat
  id : Nat
  treg : BitVec 6
  handle : Word
  got : Nat
  size : Nat
deriving DecidableEq, Repr

/-- A receive queue (R381, R384, R385): owner, bound channel (device and core), notified messages, messages being pulled, the endpoint
bytes of a band, and whether the message at their end is there as a whole. -/
structure RecvQ where
  owner : RqOwner
  chan : Option (Nat × Nat)
  notes : List Note
  pulls : List Pull
  buf : List Byte
  ended : Bool
deriving DecidableEq, Repr

/-- A collective at the switch reduction units (R388, R389): fabric group, ordinal, member count, what each rank asked for
(kind, operation, format, count, root, residual) and its contribution bytes. -/
structure SwitchColl where
  group : Nat
  ordinal : Nat
  members : Nat
  asks : List (Nat × Nat)
  devs : List (Nat × Nat)
  data : List (Nat × List Byte)
deriving DecidableEq, Repr

/-! ### Translation (R266 to R280) -/

/-- Kinds of access (R276): reads, writes, atomics, instruction fetch, and what the front end writes on the control node's
behalf (R437). -/
inductive AKind where
  | read | write | atomic | fetch | front
deriving DecidableEq, Repr

/-- How an access within one page comes out (R272, R275 to R277): where it goes, a fault with the page's leaf entry, a wait
for a migrating page, or a read of a poisoned page. -/
inductive TOut where
  | ok (l : Loc)
  | fault (k : FKind) (pte : Word)
  | hold
  | poison (pte : Word)
deriving DecidableEq, Repr

/-- A copy of a leaf entry in a core's layout unit (R274, R280): context slot, tensor, page, where the entry lies, the
entry, its hotness counter, whether `D` was set through this copy, and the remote key that its `KSLOT` gave (R281). -/
structure TlbEntry where
  ctx : Nat
  tensor : Nat
  page : Nat
  eaddr : Nat
  ehome : Nat
  entry : Word
  hot : Nat
  hotAddr : Option Nat
  dSet : Bool
  key : Nat
deriving DecidableEq, Repr

/-- A copy of a TLR in a core's layout unit (R268). -/
structure TlrCopy where
  ctx : Nat
  tensor : Nat
  tlr : BitVec 512
deriving DecidableEq, Repr

/-- A translation invalidate that is not acknowledged yet (R280): what it names, and the accesses, copies and streams that a
removed entry had translated. -/
structure Inval where
  ctx : Nat
  tensor : Option Nat
  lo : Nat
  hi : Nat
  accs : List Nat
  mig : Option Nat
deriving DecidableEq, Repr

/-- A page that moves (R273): the old entry, the target home and frame, the FAULT record whose waiting agents resume. -/
structure Migration where
  id : Nat
  ctx : Nat
  tensor : Nat
  page : Nat
  eaddr : Nat
  ehome : Nat
  old : Word
  home : Nat
  frame : Nat
  acked : Bool
deriving DecidableEq, Repr

/-! ### The watch (R392 to R405) -/

/-- Trigger states (R397), in the order of ITRIG's codes. -/
inductive Trig where
  | off | armed | triggered | draining
deriving DecidableEq, Repr

/-- A breakpoint register (R399) or watchpoint register (R400) and its trigger state. -/
structure Break where
  word : BitVec 128
  trig : Trig
deriving DecidableEq, Repr

/-- A stop that is not reported yet (R398): the agent, the kind, the record's VADDR and MASK, the entry that caused it, the record's
PC where it is not the address at which the agent stands (R401). -/
structure StopReq where
  who : Agent
  kind : FKind
  vaddr : Word
  mask : Word
  entry : Option Nat
  pc : Option Word
deriving DecidableEq, Repr

/-- A core's watch (R392 to R400). `recs` are the ring's records by index; `window` the watched bundles left; `scnt` the
stall cycles of the bundle that is stalled, by cause. -/
structure Watch where
  dthr : BitVec 32
  tidx : Nat
  twrap : Bool
  wexp : Nat
  itrig : Trig
  mslice : BitVec 8
  memt : Bool
  drift : Bool
  ilk : Bool
  recs : List (Nat × BitVec 512)
  window : Nat
  scnt : List (Nat × Nat)
  sbp : List (Nat × Break)
  lbp : List (Nat × Break)
  wps : List (Nat × Break)
  stops : List StopReq
  hang : List (Nat × Nat)
  dwin : Word
deriving DecidableEq, Repr

/-! ### The core -/

/-- What ends or delays a bundle that is being issued (R76, R135, R138): its slots act on the core as it stood before the
bundle (R135). -/
structure Frame where
  stall : Option Stall
  trap : Option FKind
  fault : Option FKind
  vaddr : Word
  target : Option Word
  eret : Bool
  slot : Nat
deriving DecidableEq, Repr

/-- A core's save image as the device keeps it beside the bytes in the save area (R108): what the specification gives no byte layout. `bands` are
listed by the band slot of the LANE component, `vbase` gives the vector register of the slice at which each one's registers begin there; a leaf names
an arrived band that is in the image by 1000 + that slot. -/
structure SaveImage where
  sset : BitVec 10
  unit : Option SeqUnit
  seq : Seq
  frozen : Nat
  tiles : List (Nat × TEntry)
  ranges : List Range
  chans : Vector (List CopyCmd) 4
  arr : ArrayS
  invs : List Inv
  bands : List (Nat × Band)
  vbase : List (Nat × Nat)
  leaves : List (Nat × BarNode)
  lq : Vector (List LqCmd) 4
  chtab : List (Nat × Chan)
  rq : List (Nat × RecvQ)
deriving DecidableEq, Repr

/-- One core: its sequencer and unit, its stores, scoreboards and binding table (8,192 bytes, R165), its queues, array,
bands, the cycle in which its slices' pipes (5·slice + pipe, pipes X, Y, M, S, U; R219) last took an instruction and the first free one after it, leaf barriers, local list with the pre-empted
units that have still to re-enter its head (R340), credits and watch. -/
structure Core where
  unit : Option SeqUnit
  seq : Seq
  tile : Memory
  scalar : Memory
  bind : Memory
  tiles : List (Nat × TEntry)
  ranges : List Range
  chans : Vector (List CopyCmd) 4
  arr : ArrayS
  invs : List Inv
  bands : List (Nat × Band)
  pipes : List (Nat × Nat × Nat)
  leaves : List (Nat × BarNode)
  lq : Vector (List LqCmd) 4
  chtab : List (Nat × Chan)
  rq : List (Nat × RecvQ)
  list : List LEntry
  returning : List LEntry
  credits : Nat
  failed : Bool
  tlb : List TlbEntry
  tlrs : List TlrCopy
  watch : Watch
deriving DecidableEq, Repr

/-! ### Tasks and partitions (R98 to R102, R321 to R362) -/

/-- Task states (R328). -/
inductive TaskSt where
  | pending | blocked | ready | placed | running | done | cancelled
deriving DecidableEq, Repr

/-- A task in the pending-launch store (R324, R328): its slot, context, record, launch, first unit index, units placed and
ended, those with a band freed that had dead strands (R122), when it became READY, `order` the number that orders its enqueue among its core's
messages (R15) and then its place among BLOCKED tasks (R327), the completion sequence's stage. -/
structure Task where
  slot : Nat
  ctx : BitVec 4
  record : BitVec 512
  isLaunch : Bool
  st : TaskSt
  launch : BitVec 32
  first : Nat
  placed : Nat
  ended : List Nat
  lastCore : Nat
  readyAt : Nat
  order : Nat
  deadUnits : List Nat
  degraded : Bool
  completed : Bool
deriving DecidableEq, Repr

/-- Sluices (R339), in the order of their codes. -/
inductive Sluice where
  | dispatch | steal | preempt | fault | complete
deriving DecidableEq, Repr

/-- A pending invocation of a partition (R339, R344): its sluice, the fields of EV, the task of a COMPLETE or PREEMPT
invocation and of the unit of a FAULT one, the record of a FAULT invocation with its place in the ring, the sched cycle in which it was
raised, and whether the fault was raised in handler mode (R112). -/
structure SReq where
  sl : Sluice
  core : Nat
  queue : Nat
  kind : Nat
  prio : Nat
  ctx : Option (BitVec 4)
  tflags : Nat
  task : Option Nat
  record : Option FRec
  recAddr : Word
  who : Agent
  raised : Nat
  handler : Bool
deriving DecidableEq, Repr

/-- A decision to apply (R354, R361). -/
structure Decided where
  req : SReq
  kind : BitVec 4
  opa : Word
  opb : Word
  imm : BitVec 14
  fb : Bool
  ovr : Bool
  rej : Bool
  logged : Bool
deriving DecidableEq, Repr

/-- Policy slot states (R336), in the order of their codes. -/
inductive PState where
  | absent | loaded | checked | active | disabled | retired
deriving DecidableEq, Repr

/-- Shadow states (R336), in the order of their codes. -/
inductive PShadow where
  | empty | loaded | checking | checked | rejected
deriving DecidableEq, Repr

/-- A policy slot (R335, R336). -/
structure PSlot where
  st : PState
  shadow : PShadow
  active : List (BitVec 32)
  words : List (Nat × BitVec 32)
  ovrn : Nat
  cfail : Nat
  cidx : Nat
  slen : Nat
  alen : Nat
  ring : List Word
  invc : Word
deriving DecidableEq, Repr

/-- A partition (R98): core mask, root mask, quota, polder ranges, vectors, policy slot, free-frame lists, task store,
queues, pending sluices, the decision to apply, security. -/
structure Partition where
  cores : Word
  roots : BitVec 16
  bandq : Nat
  polders : Vector Word 16
  vecs : Word
  slot : PSlot
  free0 : List (Nat × Nat)
  free1 : List (Nat × Nat)
  tasks : List (Nat × Task)
  enqs : List Nat
  queues : Vector (List Nat) 8
  sluices : List SReq
  inFlight : Bool
  decided : Option Decided
  notBefore : Nat
  creditNext : Nat
  key : Bool
  debug : Nat
  grant : Bool
deriving DecidableEq, Repr

/-- A decrement on its way to its counter: the core that sent it and the number that orders it among that core's messages to the scheduler (R15,
R326). -/
structure DecMsg where
  core : Nat
  num : Nat
  ctx : Nat
  counter : Nat
  amount : Int
deriving DecidableEq, Repr

/-- A cancel on its way to the scheduler (R15, R331): the core that it comes from (64 the control node), context slot, level, id, unit index, and the number that orders it among
its core's messages. -/
structure CancelMsg where
  core : Nat
  num : Nat
  ctx : Nat
  level : Nat
  id : Nat
  unit : Nat
deriving DecidableEq, Repr

/-- A sequenced packet that a context sent since the last kernel boundary (R121): its destination, number, operation and word, and
whether it has been acknowledged. -/
structure OutPkt where
  dst : Nat
  seq : Nat
  op : BitVec 8
  roff : Word
  acked : Bool
deriving DecidableEq, Repr

/-- A context (R103 to R121): the descriptor's fields, the launches since the last kernel boundary (`firstLid` the id with which they begin),
counters, replay log,
save images, cores that are frozen for a save (core, class threshold, cycle); the check value of the last registration at each region index and the
cycle from which that region admits requests (R379); `outs` the sequenced packets sent since the last kernel boundary (destination, number,
acknowledged) and `outPos` how many of them a replay has passed, `liveResps` the responses that wait for the replay's end (R121); `rqs` the
receive-queue words, by 16·core number + queue, of cores on which it neither runs nor has a save image (R381). -/
structure Context where
  st : CState
  record : Bool
  rsafe : Bool
  ttab : Word
  ptab : Word
  log : Word
  logsz : BitVec 32
  save : Word
  sset : BitVec 10
  keys : Word
  hot : Word
  frec : Word
  cores : Word
  frecNext : Nat
  launches : List (Nat × Launch)
  nextLid : Nat
  firstLid : Nat
  lastLid : Nat
  lstate : Nat
  deps : List (Nat × Dep)
  dsn : BitVec 24
  cancelWord : Word
  launchSel : BitVec 32
  start : List (Nat × Word)
  logs : List LogEntry
  logHead : Nat
  logSeq : Nat
  logging : Bool
  replay : List LogEntry
  replayLive : Bool
  outs : List OutPkt
  outPos : Nat
  liveResps : List Packet
  rqs : List (Nat × RecvQ)
  images : List (Nat × SaveImage)
  freezing : List (Nat × Nat × Nat)
  checks : List (Nat × Nat)
  keyFrom : List (Nat × Nat)
deriving DecidableEq, Repr

/-! ### Policy engines (R341) -/

/-- A running policy invocation (R341, R348, R359). -/
structure Engine where
  part : Nat
  req : SReq
  prog : List (BitVec 32)
  view : List (List (List Nat))
  k : Vector Word 16
  pc : Nat
  cost : Nat
  loops : List (Nat × Nat)
deriving DecidableEq, Repr

/-! ### The front end and the module -/

/-- Messages that the front end sends to the control node (R102, R131, R330, R406, R417, R436). -/
inductive DevMsg where
  | vector (part vec : Nat) (ctx : Option (BitVec 4))
  | launch (part : Nat) (ctx : BitVec 4) (lid : Nat) (lstate : Nat)
  | level (part : Nat) (ctx : BitVec 4) (level id : Nat)
  | health
  | hostReq (tag : Nat) (words : List Word)
deriving DecidableEq, Repr

/-- Status codes of the control port (R407). -/
inductive Status where
  | ok
  | cpFrame | coreOwned | partitionBusy | contextBusy | debugDenied | contextBases
  | polderHome | polderOverlap | polderFault | rootOwned
  | imgMagic | imgLength | imgCrc | imgSection | imgCores | imgPolder | imgTranslate | imgTlr | imgBind
  | startEmpty | startCore | startAlign
  | policyCmd | policyBusy | policyUnchecked
  | linkParam | watchParam | framesFull
  | fwSignature | fwRollback | attestExhausted | powerState
deriving DecidableEq, Repr

/-- The response to the last control-port request (R406). -/
structure Resp where
  status : Status
  data : List Byte
deriving DecidableEq, Repr

/-- What an event is given: the operands of a control-node command or of a device event that the state alone does not fix.
`part` and `ctx` name a context slot, `core` and `n` an agent or a node, `addr` a register-space or memory address or an
index, `value` the written value, `auth` whether the tenant's key authenticates the request, `bytes` transferred bytes. -/
structure Request where
  part : Nat
  ctx : Nat
  core : Nat
  n : Nat
  m : Nat
  addr : Nat
  value : Nat
  auth : Bool
  bytes : List Byte
  pkt : Packet
deriving DecidableEq, Repr

/-- Who acts next: an event with its request, a cycle of the arithmetic clock, a sequencer that issues its next bundle, a
band that issues its next instruction, a policy engine that runs its next instruction, a Drila port that sends its next packet, the other side of a
link that acknowledges a port's flits or sends it one, the control node that reads a register or sends a frame. -/
inductive Turn where
  | event (i : Instr) (r : Request)
  | cycle
  | seq (core : Nat)
  | band (core n : Nat)
  | engine (e : Nat)
  | portSend (port : Nat)
  | flitAck (port seq : Nat)
  | flitIn (port : Nat) (f : Flit)
  | cpRead (r : Request)
  | frame (bs : List Byte)
deriving DecidableEq, Repr

/-- Why a run ends (raised by `step`; safe). -/
inductive Fault where
  /-- A policy engine came to an instruction outside the encoding that admission checks (R358). Raised by `step`; no
  admitted program has one. Safe. -/
  | policyWord
deriving DecidableEq, Repr

/-- Why a step has no meaning here. -/
inductive Refusal where
  /-- The instruction has no meaning in this model. Raised by `exec`. Safe. -/
  | notModelled (mnemonic : String)
deriving DecidableEq, Repr

/-- The device. `cycle` counts cycles since module reset; `fresh` numbers the undefined values seen; `nextId` numbers
requests, accesses and entries; `cur` names the agent whose instruction is being run, with the core's state before its
bundle; `laneDry` says that a band's instruction only makes its checks and pops (the first pass over a DP pair, R80, R82);
`agenda` says who acts next. -/
structure State where
  cycle : Nat
  fresh : Nat
  nextId : Nat
  agenda : List Turn
  cur : Agent
  pre : Option Core
  preBand : Option Band
  laneDry : Bool
  frame : Frame
  req : Request
  engineCur : Nat
  cores : Vector Core 64
  hbm : Memory
  pkg : Memory
  parts : Vector Partition 16
  ctxs : Vector Context 256
  engines : Vector (Option Engine) 4
  decs : List DecMsg
  cancels : List CancelMsg
  dieRoots : List (Nat × BarNode)
  chipRoots : List (Nat × BarNode)
  barMsgs : List BarMsg
  barFlips : List BarFlip
  heldFlips : List HeldFlip
  pens : List PenOp
  ports : Vector Port 16
  devid : Nat
  e2et : Nat
  dupcnt : Nat
  peers : List (Nat × Peer)
  groups : List (Nat × Word)
  collCount : List (Nat × Nat)
  switch : List SwitchColl
  sent : List Packet
  unsent : List Packet
  remote : List (Nat × RReq)
  invals : List Inval
  migs : List Migration
  msgs : List DevMsg
  resp : Resp
  answers : List (List Byte)
  health : BitVec 128
  temp : Nat
  fcur : Nat
  fmax : Nat
  pst : Nat
  held : List (Nat × Nat)
  booted : Bool
  fwStatus : Status
  fwVersion : Nat
  minVersion : Nat
  fuses : Nat
  counter : Nat
  vendor : Bool
deriving DecidableEq, Repr

/-! ### Reset (R411) -/

/-- A store of zeros. -/
def Memory.zero : Memory := ⟨[], []⟩

/-- A fault record of zeros. -/
def FRec.zero : FRec := ⟨.illegalOp, 0, 0, 0, false, false, false, 0, 0, 0, 0, 0, 0, 0, 0, 0, 0⟩

/-- The mode word's reset value (R30): RNE, no FTZ. -/
def modeReset : Word := 0

/-- A sequencer on which no unit runs. Registers that no rule gives a reset value are zero (log entry 4). -/
def Seq.reset : Seq where
  phase := .idle
  s := Vector.replicate 64 (some 0)
  c := Vector.replicate 16 (some false)
  t := Vector.replicate 64 (some 0)
  kc := some 0
  fc := some 0
  rot := 0
  land := []
  mode := modeReset
  flag := 0
  epc := 0
  ecause := 0
  erec := 0
  tvec := 0
  escr := 0
  handler := false
  fault := none
  pc := 0
  readyAt := 0
  entry := none
  lastIssue := 0
  stall := none
  patching := false
  halted := false
  bpSkip := false
  invNext := 1
  callAt := none

/-- A latch that holds no weights (R191). -/
def Latch.empty : Latch := ⟨false, false, 0, [], []⟩

/-- An idle array (R189). -/
def ArrayS.reset : ArrayS where
  live := Latch.empty
  shadow := Latch.empty
  shadowSt := .empty
  queue := []
  nextNum := 1
  stream := none
  pipe := []
  entering := []
  fault := none
  rowprog := 0
  disabled := []
  monitor := none
  ldwSince := false
  swapped := false
  lastLdw := 0
  pendFmt := 0
  mulPairs := 0
  epiPairs := 0
  joint := none
  bank0 := Memory.zero
  bank1 := Memory.zero
  epi := []
  epiNum := 1

/-- The watch after reset (R392, R393, R399, R400): DTHR 0x1000, WEXP 32, everything else off. -/
def Watch.reset : Watch where
  dthr := 0x1000
  tidx := 0
  twrap := false
  wexp := 32
  itrig := .off
  mslice := 0
  memt := false
  drift := false
  ilk := false
  recs := []
  window := 0
  scnt := []
  sbp := []
  lbp := []
  wps := []
  stops := []
  hang := []
  dwin := 0

/-- A core after reset: stores written with zeros (R411), everything free. -/
def Core.reset : Core where
  unit := none
  seq := Seq.reset
  tile := Memory.zero
  scalar := Memory.zero
  bind := Memory.zero
  tiles := []
  ranges := []
  chans := Vector.replicate 4 []
  arr := ArrayS.reset
  invs := []
  bands := []
  pipes := []
  leaves := []
  lq := Vector.replicate 4 []
  chtab := []
  rq := []
  list := []
  returning := []
  credits := 0
  failed := false
  tlb := []
  tlrs := []
  watch := Watch.reset

/-- An empty policy slot (R336, R338). -/
def PSlot.reset : PSlot := ⟨.absent, .empty, [], [], 0, 0, 0, 0, 0, [], 0⟩

/-- An empty partition slot (R98, R409). -/
def Partition.reset : Partition where
  cores := 0
  roots := 0
  bandq := 0
  polders := Vector.replicate 16 0
  vecs := 0
  slot := PSlot.reset
  free0 := []
  free1 := []
  tasks := []
  enqs := []
  queues := Vector.replicate 8 []
  sluices := []
  inFlight := false
  decided := none
  notBefore := 0
  creditNext := 0
  key := false
  debug := 0
  grant := false

/-- An empty context slot (R103): SSET 0x3FF, everything else 0. -/
def Context.reset : Context where
  st := .empty
  record := false
  rsafe := false
  ttab := 0
  ptab := 0
  log := 0
  logsz := 0
  save := 0
  sset := 0x3FF
  keys := 0
  hot := 0
  frec := 0
  cores := 0
  frecNext := 0
  launches := []
  nextLid := 1
  firstLid := 1
  lastLid := 0
  lstate := 0
  deps := []
  dsn := 0
  cancelWord := 0
  launchSel := 0
  start := []
  logs := []
  logHead := 0
  logSeq := 0
  logging := false
  replay := []
  replayLive := false
  outs := []
  outPos := 0
  liveResps := []
  rqs := []
  images := []
  freezing := []
  checks := []
  keyFrom := []

/-- The frame in which no bundle is being issued. -/
def Frame.start : Frame := ⟨none, none, none, 0, none, false, 0⟩

/-- A packet of zeros. -/
def Packet.zero : Packet := ⟨0, 0, 0, 0, 0, 0, 0, 0, 0, 0, [], true⟩

/-- A request of zeros. -/
def Request.zero : Request := ⟨0, 0, 0, 0, 0, 0, 0, false, [], Packet.zero⟩

/-- A port that is down (R364). -/
def Port.reset : Port := ⟨false, 0, .down, 0, 0, [], 15, 0, [], [], 0, []⟩

/-- The device right after module reset (R411): P0, every partition slot empty, every port DOWN, stores of zeros; E2ET 50
(R365), FCUR and FMAX 36 (R414). What the specification gives no reset value is named in log entries 4 and 5. -/
def State.reset : State where
  cycle := 0
  fresh := 0
  nextId := 1
  agenda := []
  cur := .env
  pre := none
  preBand := none
  laneDry := false
  frame := Frame.start
  req := Request.zero
  engineCur := 0
  cores := Vector.replicate 64 Core.reset
  hbm := Memory.zero
  pkg := Memory.zero
  parts := Vector.replicate 16 Partition.reset
  ctxs := Vector.replicate 256 Context.reset
  engines := Vector.replicate 4 none
  decs := []
  cancels := []
  dieRoots := []
  chipRoots := []
  barMsgs := []
  barFlips := []
  heldFlips := []
  pens := []
  ports := Vector.replicate 16 Port.reset
  devid := 0
  e2et := 50
  dupcnt := 0
  peers := []
  groups := []
  collCount := []
  switch := []
  sent := []
  unsent := []
  remote := []
  invals := []
  migs := []
  msgs := []
  resp := ⟨.ok, []⟩
  health := 0
  temp := 0
  fcur := 36
  fmax := 36
  pst := 0
  held := []
  booted := true
  answers := []
  fwStatus := .ok
  fwVersion := 0
  minVersion := 0
  fuses := 0
  counter := 0
  vendor := false

end Sys2Proof.Machine
end

