-- ==== Sys2Proof/Machine/Ops.lean ====
section
/-!
DEFINITION. The named operations over the state that every family shares: byte stores, undefined values, the parts of the
device, vectors, the health register, fault records and sluices (taking an exception), and the context's bases.
-/

namespace Sys2Proof.Machine

/-! ### Numbers and bytes -/

/-- Bits [lo+n-1 : lo] of a number. -/
def bf (w lo n : Nat) : Nat := (w >>> lo) % 2 ^ n

/-- Bit i of a number. -/
def bitN (w i : Nat) : Bool := w.testBit i

/-- The number that little-endian bytes stand for (R3). -/
def natOfBytes : List Byte → Nat
  | [] => 0
  | b :: t => b.toNat + 256 * natOfBytes t

/-- The n low bytes of a number, little-endian (R3). -/
def bytesOfNat : Nat → Nat → List Byte
  | 0, _ => []
  | n + 1, w => BitVec.ofNat 8 w :: bytesOfNat n (w / 256)

/-- The numbers below `n` whose bit is set in a mask. -/
def bitsOf (mask n : Nat) : List Nat := (List.range n).filter fun i => mask.testBit i

/-- The mask with the listed bits. -/
def maskOf (l : List Nat) : Nat := l.foldl (fun m i => m ||| (1 <<< i)) 0

/-- How many bits below `n` are set. -/
def popcount (w n : Nat) : Nat := (bitsOf w n).length

/-- One step of the CRC-32C shift register (Castagnoli polynomial, reflected). -/
def crcBit (c : Nat) : Nat := if c % 2 = 1 then (c / 2) ^^^ 0x82F63B78 else c / 2

/-- CRC-32C over bytes (R126, R368). -/
def crc32c (bs : List Byte) : Nat :=
  (bs.foldl (fun c b => (List.range 8).foldl (fun c _ => crcBit c) (c ^^^ b.toNat)) 0xFFFFFFFF) ^^^ 0xFFFFFFFF

/-- Replaces the elements of a list that satisfy a test. -/
def updWhere {α : Type} (p : α → Bool) (f : α → α) (l : List α) : List α := l.map fun x => if p x then f x else x

/-! ### Byte stores -/

/-- Whether an address lies in one of the ranges. -/
def inRanges (u : List (Nat × Nat)) (a : Nat) : Bool := u.any fun r => r.1 ≤ a && a < r.2

/-- What an address that is not listed reads as: zero, or nothing (an undefined byte, R8). -/
def Memory.base (m : Memory) (a : Nat) : Option Byte := if inRanges m.undef a then none else some 0

/-- The byte at an address, or nothing where it is undefined. -/
def Memory.read (m : Memory) (a : Nat) : Option Byte :=
  match aget m.cells a with
  | some b => some b
  | none => m.base a

/-- Stores one byte. -/
def Memory.write (m : Memory) (a : Nat) (b : Byte) : Memory :=
  if m.base a = some b then { m with cells := adel m.cells a } else { m with cells := aput m.cells a b }

/-- Stores bytes at rising addresses. -/
def Memory.writeBytes (m : Memory) (a : Nat) : List Byte → Memory
  | [] => m
  | b :: t => Memory.writeBytes (m.write a b) (a + 1) t

/-- The n bytes from an address; `free` supplies the undefined ones. -/
def Memory.readBytes (m : Memory) (free : Nat → Byte) (a : Nat) : Nat → List Byte
  | 0 => []
  | n + 1 => (m.read a).getD (free a) :: Memory.readBytes m free (a + 1) n

/-- The ranges without the addresses lo … hi-1. -/
def cutRanges (u : List (Nat × Nat)) (lo hi : Nat) : List (Nat × Nat) :=
  u.flatMap fun r => [(r.1, min r.2 lo), (max r.1 hi, r.2)].filter fun q => decide (q.1 < q.2)

/-- Makes the bytes lo … hi-1 zero. -/
def Memory.zeroRange (m : Memory) (lo hi : Nat) : Memory :=
  ⟨m.cells.filter fun c => decide (c.1 < lo ∨ hi ≤ c.1), cutRanges m.undef lo hi⟩

/-- Makes the bytes lo … hi-1 undefined (R8). -/
def Memory.undefRange (m : Memory) (lo hi : Nat) : Memory :=
  ⟨m.cells.filter fun c => decide (c.1 < lo ∨ hi ≤ c.1), cutRanges m.undef lo hi ++ [(lo, hi)]⟩

/-- The listed bytes below, from and above a range, in that order. -/
def cellsBelow (l : List Host.Cell) (lo : Nat) : List Host.Cell := l.filter fun c => decide (c.1 < lo)
/-- The listed bytes at or above an address. -/
def cellsFrom (l : List Host.Cell) (lo : Nat) : List Host.Cell := l.filter fun c => decide (lo ≤ c.1)

/-- Copies n bytes from one store to another, undefined bytes as undefined ones. -/
def Memory.blit (src : Memory) (lo n : Nat) (dst : Memory) (dlo : Nat) : Memory :=
  ⟨cellsBelow dst.cells dlo
      ++ (cellsBelow (cellsFrom src.cells lo) (lo + n)).map (fun c => (c.1 - lo + dlo, c.2))
      ++ cellsFrom dst.cells (dlo + n),
   cutRanges dst.undef dlo (dlo + n)
      ++ (cutRanges (cutRanges src.undef 0 lo) (lo + n) (lo + n + 2 ^ 60)).map
          (fun r => (r.1 - lo + dlo, min r.2 (lo + n) - lo + dlo))⟩

/-- Whether the list's addresses rise strictly. -/
def rising : List Host.Cell → Bool
  | [] => true
  | [_] => true
  | a :: b :: t => decide (a.1 < b.1) && rising (b :: t)

/-- The canonical form of a store: addresses strictly rising, and no listed byte equal to what its address reads as when it
is not listed. -/
def Memory.wf (m : Memory) : Bool :=
  rising m.cells && m.cells.all fun c => decide (m.base c.1 ≠ some c.2)

/-! ### Undefined values (R8) -/

/-- An undefined value seen in this step at a read site. -/
def State.free (s : State) (site : Nat) : Word := Config.freeWord site s.fresh

/-- An undefined byte seen in this step: of store number `st` at an address. -/
def State.freeByte (s : State) (st a : Nat) : Byte := (s.free (2 ^ 64 * (st + 1) + a)).truncate 8

/-! ### Parts of the device -/

/-- The core with a number. -/
def State.core (s : State) (c : Nat) : Core := (s.cores[c]?).getD Core.reset
/-- Replaces a core. -/
def State.setCore (s : State) (c : Nat) (k : Core) : State := { s with cores := s.cores.setIfInBounds c k }
/-- Changes a core. -/
def State.onCore (s : State) (c : Nat) (f : Core → Core) : State := s.setCore c (f (s.core c))
/-- The partition with a number. -/
def State.part (s : State) (p : Nat) : Partition := (s.parts[p]?).getD Partition.reset
/-- Changes a partition. -/
def State.onPart (s : State) (p : Nat) (f : Partition → Partition) : State :=
  { s with parts := s.parts.setIfInBounds p (f (s.part p)) }
/-- The context in a slot (16·partition + index). -/
def State.ctx (s : State) (x : Nat) : Context := (s.ctxs[x]?).getD Context.reset
/-- Changes a context. -/
def State.onCtx (s : State) (x : Nat) (f : Context → Context) : State :=
  { s with ctxs := s.ctxs.setIfInBounds x (f (s.ctx x)) }
/-- The context slot of a partition's context. -/
def ctxSlot (p : BitVec 4) (x : Nat) : Nat := 16 * p.toNat + x % 16
/-- A band of a core. -/
def State.band (s : State) (c n : Nat) : Option Band := aget (s.core c).bands n
/-- Changes a band. -/
def State.onBand (s : State) (c n : Nat) (f : Band → Band) : State :=
  s.onCore c fun k => { k with bands := amod k.bands n f }
/-- Gives out the next identifier. -/
def State.newId (s : State) : Nat × State := (s.nextId, { s with nextId := s.nextId + 1 })
/-- Puts turns at the head of the agenda. -/
def State.push (s : State) (t : List Turn) : State := { s with agenda := t ++ s.agenda }
/-- Sends a message to the control node. -/
def State.tell (s : State) (m : DevMsg) : State := { s with msgs := s.msgs ++ [m] }
/-- Answers a control-port request with a status and data (R406). -/
def State.answer (s : State) (st : Status) (d : List Byte := []) : State := { s with resp := ⟨st, d⟩ }

/-- A control-port request: with no firmware that verifies, every request is answered with that status (R411). -/
def State.ctl (s : State) (f : State → State) : State := if s.fwStatus = .ok then f s else s.answer s.fwStatus

/-- The bytes of a local home (0 HBM, 1 package store). -/
def State.home (s : State) (h : Nat) : Memory := if h = 0 then s.hbm else s.pkg
/-- Replaces the bytes of a local home. -/
def State.setHome (s : State) (h : Nat) (m : Memory) : State :=
  if h = 0 then { s with hbm := m } else { s with pkg := m }
/-- The n bytes of a local home from an address. -/
def State.homeBytes (s : State) (h a n : Nat) : List Byte := (s.home h).readBytes (s.freeByte h) a n
/-- The n-byte number at an address of a local home. -/
def State.homeNat (s : State) (h a n : Nat) : Nat := natOfBytes (s.homeBytes h a n)
/-- Writes bytes to a local home. -/
def State.homeWrite (s : State) (h a : Nat) (bs : List Byte) : State := s.setHome h ((s.home h).writeBytes a bs)
/-- The n bytes of a core's scalar store from an address. -/
def State.scalarBytes (s : State) (k : Core) (a n : Nat) : List Byte := k.scalar.readBytes (s.freeByte 2) a n
/-- The n bytes of a core's tile store from an address. -/
def State.tileBytes (s : State) (k : Core) (a n : Nat) : List Byte := k.tile.readBytes (s.freeByte 3) a n

/-! ### Vectors and health -/

/-- Raises an interrupt vector of a partition (R102): sets its pending bit and sends a message unless it was pending. -/
def State.raiseVector (s : State) (p v : Nat) (x : Option (BitVec 4)) : State :=
  if (s.part p).vecs.toNat.testBit v then s
  else (s.onPart p fun q => { q with vecs := q.vecs ||| BitVec.ofNat 64 (1 <<< v) }).tell (.vector p v x)

/-- Sets HEALTH (R417): a change sends one message and raises vector 6 in every partition. -/
def State.setHealth (s : State) (h : BitVec 128) : State :=
  if h = s.health then s
  else (List.range 16).foldl (fun s p => s.raiseVector p 6 none) ({ s with health := h }.tell .health)

/-- Sets bits of HEALTH. -/
def State.health1 (s : State) (bits : List Nat) : State := s.setHealth (s.health ||| BitVec.ofNat 128 (maskOf bits))

/-! ### Bases and polders (R99, R100, R103) -/

/-- Whether a base is set. -/
def baseSet (w : Word) : Bool := w.getLsbD 63
/-- A base's home. -/
def baseHome (w : Word) : Nat := bf w.toNat 61 2
/-- A base's frame. -/
def baseFrame (w : Word) : Nat := bf w.toNat 0 40

/-- Whether a frame number is valid for its home (R23). -/
def frameValid (h f : Nat) : Bool := if h = 0 then decide (f < 0x6000000) else h = 1 && decide (f < 0x40000)

/-- Whether a frame lies inside a partition's polders (R100). -/
def Partition.inPolder (q : Partition) (h f : Nat) : Bool :=
  frameValid h f && q.polders.toList.any fun e =>
    e.getLsbD 63 && decide (bf e.toNat 61 2 = h) && decide (bf e.toNat 32 27 ≤ f) &&
      decide (f < bf e.toNat 32 27 + bf e.toNat 0 27)

/-- The frame after the polder range that reaches furthest beyond frame f; f itself where none holds it. -/
def Partition.polderEnd (q : Partition) (h f : Nat) : Nat :=
  q.polders.toList.foldl (fun m e =>
    if e.getLsbD 63 && bf e.toNat 61 2 = h && bf e.toNat 32 27 ≤ f && f < bf e.toNat 32 27 + bf e.toNat 0 27 then
      max m (bf e.toNat 32 27 + bf e.toNat 0 27) else m) f
/-- Whether every frame from f up to l (not l itself) lies in the polder ranges of a home. -/
def Partition.polderRun (q : Partition) (h l : Nat) : Nat → Nat → Bool
  | 0, f => decide (l ≤ f)
  | n + 1, f => decide (l ≤ f) || (q.polderEnd h f != f && Partition.polderRun q h l n (q.polderEnd h f))
/-- Whether n frames from a frame lie inside a partition's polders (R100). -/
def Partition.framesIn (q : Partition) (h f n : Nat) : Bool :=
  frameValid h f && frameValid h (f + n - 1) && q.polderRun h (f + max n 1) 65 f

/-- The partition of a context slot. -/
def State.partOf (s : State) (x : Nat) : Partition := s.part (x / 16)

/-! ### Fault records (R346, R347) and sluices (R339) -/

/-- The code of a fault kind (R347, R377, R403). -/
def FKind.code : FKind → Nat
  | .illegalOp => 0x01 | .fetchAlign => 0x02 | .regRange => 0x03 | .queueUnbound => 0x04 | .chkMismatch => 0x05
  | .trap => 0x06
  | .sysArg => 0x10 | .seqAddr => 0x11 | .seqAlign => 0x12 | .ueSeq => 0x13 | .decisionFailed => 0x14
  | .tileHandle => 0x20 | .tileState => 0x21 | .tileWrite => 0x22 | .topUnbound => 0x23 | .topArgs => 0x24
  | .snapRange => 0x25 | .nestDenied => 0x26 | .nestDepth => 0x27 | .nestSelf => 0x28 | .nestWindow => 0x29
  | .bindArg => 0x2A | .bindInvalid => 0x2B | .bindBusy => 0x2C | .bindKind => 0x2D | .restartState => 0x2E
  | .restartDenied => 0x2F
  | .copyDesc => 0x30 | .copyFormat => 0x31 | .copyBounds => 0x32 | .copySparse => 0x33 | .copyMeta => 0x34
  | .xcRefused => 0x35 | .xcShape => 0x36
  | .arrayDegraded => 0x40 | .mxArg => 0x41 | .mxFormat => 0x42 | .mxScale => 0x43 | .mxNoWeight => 0x44
  | .mxSchedule => 0x45 | .mxDesc => 0x46 | .mxBounds => 0x47 | .ueArray => 0x48 | .epiParam => 0x49
  | .mmjMismatch => 0x4A | .mmjArg => 0x4B | .mmjQueue => 0x4C
  | .intDivZero => 0x50 | .divOverflow => 0x51 | .brxDiverge => 0x52 | .callDiverge => 0x53 | .queueDir => 0x54
  | .queueBusy => 0x55 | .queueArg => 0x56 | .ueStrand => 0x57
  | .addrRange => 0x60 | .tensorInvalid => 0x61 | .tensorBounds => 0x62 | .tableInvalid => 0x63 | .polderFault => 0x64
  | .keyInvalid => 0x65 | .memAlign => 0x66 | .tileAddr => 0x67 | .tileAlign => 0x68 | .pageUnmapped => 0x69
  | .pageAccess => 0x6A | .pagePoisoned => 0x6B | .inputLocked => 0x6C | .keyRevoked => 0x6D | .remoteRefused => 0x6E
  | .uePage => 0x6F
  | .pennantArg => 0x70 | .pennantFree => 0x71 | .barArg => 0x72 | .barDiverge => 0x73 | .barMismatch => 0x74
  | .taskArg => 0x75 | .taskInvalid => 0x76 | .depArg => 0x77 | .taskLaunch => 0x78
  | .linkFailed => 0x80 | .linkQueue => 0x81 | .linkShape => 0x82 | .linkTileLost => 0x83 | .collDesc => 0x84
  | .collMismatch => 0x85 | .linkArg => 0x86
  | .hang => 0x90 | .breakHit => 0x91 | .watchHit => 0x92 | .bkptHit => 0x93 | .debugHalt => 0x94 | .ipatchArg => 0x95

/-- The kind with a code. -/
def FKind.all : List FKind :=
  [.illegalOp, .fetchAlign, .regRange, .queueUnbound, .chkMismatch, .trap, .sysArg, .seqAddr, .seqAlign, .ueSeq,
   .decisionFailed, .tileHandle, .tileState, .tileWrite, .topUnbound, .topArgs, .snapRange, .nestDenied, .nestDepth,
   .nestSelf, .nestWindow, .bindArg, .bindInvalid, .bindBusy, .bindKind, .restartState, .restartDenied, .copyDesc,
   .copyFormat, .copyBounds, .copySparse, .copyMeta, .xcRefused, .xcShape]
  ++ [.arrayDegraded, .mxArg, .mxFormat, .mxScale, .mxNoWeight, .mxSchedule, .mxDesc, .mxBounds, .ueArray, .epiParam,
   .mmjMismatch, .mmjArg, .mmjQueue, .intDivZero, .divOverflow, .brxDiverge, .callDiverge, .queueDir, .queueBusy,
   .queueArg, .ueStrand, .addrRange, .tensorInvalid, .tensorBounds, .tableInvalid, .polderFault, .keyInvalid, .memAlign]
  ++ [.tileAddr, .tileAlign, .pageUnmapped, .pageAccess, .pagePoisoned, .inputLocked, .keyRevoked, .remoteRefused,
   .uePage, .pennantArg, .pennantFree, .barArg, .barDiverge, .barMismatch, .taskArg, .taskInvalid, .depArg, .taskLaunch,
   .linkFailed, .linkQueue, .linkShape, .linkTileLost, .collDesc, .collMismatch, .linkArg, .hang, .breakHit, .watchHit,
   .bkptHit, .debugHalt, .ipatchArg]

/-- The eight words of a fault record, lowest first (R346). -/
def FRec.words (r : FRec) (ctx : Nat) : List Nat :=
  [r.kind.code ||| r.core.toNat <<< 20 ||| r.slice.toNat <<< 26 ||| r.band.toNat <<< 29 ||| b2n r.seqf <<< 33
     ||| b2n r.rtn <<< 34 ||| b2n r.nest <<< 35 ||| r.topc.toNat <<< 36 ||| r.itop.toNat <<< 44 ||| (ctx % 16) <<< 52,
   r.mask.toNat, r.pc.toNat, r.scyc.toNat ||| r.invid.toNat <<< 32, r.vaddr.toNat, r.pte.toNat, r.hreg.toNat,
   r.rowprog.toNat]

/-- Adds a sluice for a partition, or merges it into a pending one (R339). -/
def Partition.raise (q : Partition) (r : SReq) : Partition :=
  let merged : Bool := match r.sl with
    | .dispatch => q.sluices.any fun t => t.sl = .dispatch
    | .preempt => q.sluices.any fun t => t.sl = .preempt
    | .steal => q.sluices.any fun t => t.sl = .steal && t.core = r.core
    | .fault => false
    | .complete => q.sluices.any fun t => t.sl = .complete && t.task = r.task
  if merged then q else { q with sluices := q.sluices ++ [r] }

/-- Raises a sluice of a partition (R339). -/
def State.raiseSluice (s : State) (p : Nat) (r : SReq) : State := s.onPart p fun q => q.raise { r with raised := s.cycle / 2 }

/-- Writes a fault record to the next slot of the context's FREC ring (R103, R346); gives the record's location in the form of
EREC (R117). -/
def State.writeRecord (s : State) (x : Nat) (r : FRec) : Word × State :=
  let k := s.ctx x
  let h := baseHome k.frec
  let a := baseFrame k.frec * 4096 + 64 * (k.frecNext % 64)
  let s := s.homeWrite h a ((r.words x).flatMap (bytesOfNat 8))
  (BitVec.ofNat 64 (2 ^ 63 + h * 2 ^ 61 + a % 2 ^ 52), s.onCtx x fun k => { k with frecNext := (k.frecNext + 1) % 64 })

/-- The task's slot of the unit that an agent works for; none for a start-vector launch's. -/
def State.agentTask (s : State) (who : Agent) : Option Nat :=
  let ofSeq (c : Nat) : Option Nat := (s.core c).unit.bind fun u => u.task
  match who with
  | .env => none
  | .band c n => (s.band c n).bind fun b => match b.of with
    | .unit t _ _ => some t
    | .gang _ _ => ofSeq c
  | .chan c ch => (((s.core c).chans[ch]?).getD []).head?.bind fun m => m.task
  | .seq c | .array c | .link c _ | .epi c => ofSeq c

/-- Taking a fault (R112, R339): the record is written to the ring and a FAULT sluice is raised with it. `who` is the agent
that waits for the decision, `kind` EV.KIND, `prio` the unit's class and `tflags` the first TFLAGS (R344). -/
def State.takeFault (s : State) (x : Nat) (r : FRec) (who : Agent) (kind prio : Nat) (tflags : Nat := 0) : State :=
  let (addr, s) := s.writeRecord x r
  s.raiseSluice (x / 16)
    { sl := .fault, core := r.core.toNat, queue := 0xFF, kind := kind, prio := prio, ctx := some (BitVec.ofNat 4 x),
      tflags := tflags, task := s.agentTask who, record := some r, recAddr := addr, who := who, raised := 0,
      handler := (r.seqf || r.rtn) && (s.core r.core.toNat).seq.handler }

/-! ### Units -/

/-- The context slot of the unit on a core's sequencer. -/
def Core.unitCtx (k : Core) : Nat :=
  match k.unit with
  | some u => ctxSlot u.part u.ctx.toNat
  | none => 0

/-- Whether a core's sequencer unit belongs to a context slot. -/
def Core.runs (k : Core) (x : Nat) : Bool :=
  match k.unit with
  | some u => decide (ctxSlot u.part u.ctx.toNat = x)
  | none => false

/-- The context slot of a band. -/
def Band.slot (b : Band) : Nat := ctxSlot b.part b.ctx.toNat

/-- Whether a core holds a band of a context slot. -/
def Core.hasBands (k : Core) (x : Nat) : Bool := k.bands.any fun b => decide (b.2.slot = x)

/-- The context slot whose work is on a core: its sequencer unit's, else its first band's. -/
def Core.owner (k : Core) : Option Nat :=
  match k.unit with
  | some u => some (ctxSlot u.part u.ctx.toNat)
  | none => k.bands.head?.map fun b => b.2.slot

/-- The logical number of a core in a CORES mask (R108). -/
def logical (cores : Word) (c : Nat) : Nat := popcount (cores.toNat % 2 ^ c) 64

/-- Whether a copy command is a lane unit's rather than the sequencer unit's or its routines'. -/
def CopyCmd.ofLanes (m : CopyCmd) : Bool :=
  match m.issuer with
  | .band _ _ => m.inv.isNone
  | _ => false

/-- A scoreboard entry. -/
def Core.entry (k : Core) (n : Nat) : TEntry := (aget k.tiles n).getD ⟨.free, 0, 0⟩
/-- Changes a scoreboard entry. -/
def Core.onEntry (k : Core) (n : Nat) (f : TEntry → TEntry) : Core := { k with tiles := aput k.tiles n (f (k.entry n)) }
/-- Puts an entry in a state. -/
def Core.toState (k : Core) (n : Nat) (st : TState) : Core := k.onEntry n fun e => { e with st := st }
/-- Removes the ranges of an owner. -/
def Core.dropRange (k : Core) (o : ROwner) : Core := { k with ranges := k.ranges.filter fun r => r.owner ≠ o }

/-- The destination core of a CPYXC (R180). -/
def CopyCmd.destCore (m : CopyCmd) : Nat := bf m.dest.toNat 0 6
/-- The destination `t` register of a CPYXC. -/
def CopyCmd.destReg (m : CopyCmd) : Nat := bf m.dest.toNat 8 6

/-- Whether a held range belongs to one of some copy commands. -/
def Range.ofCopies (r : Range) (ids : List Nat) : Bool :=
  match r.owner with
  | .copy id => ids.contains id
  | .arrive _ id => ids.contains id
  | _ => false

/-- Whether a band slot holds a lane unit's band. -/
def Core.laneBand (k : Core) (n : Nat) : Bool :=
  match aget k.bands n with
  | some b => match b.of with | .unit _ _ _ => true | .gang _ _ => false
  | none => false

/-- Whether a receive queue is owned by a band of a lane unit. -/
def Core.laneQueue (k : Core) (r : RecvQ) : Bool :=
  match r.owner with
  | .band n => k.laneBand n
  | _ => false

/-- The lane units' commands in each channel. -/
def Core.laneChans (k : Core) : Vector (List CopyCmd) 4 := k.chans.map fun (l : List CopyCmd) => l.filter CopyCmd.ofLanes

/-- Frees what a core's sequencer unit held (R134, R162, R190): its tiles, ranges, queues, invocations and array. What lane units on the
core have under way stays. -/
def Core.clearUnit (k : Core) : Core :=
  let ids := k.laneChans.toList.flatMap fun l => l.map fun m => m.id
  { k with
    unit := none
    seq := { k.seq with phase := .idle, fault := none, land := [], stall := none, patching := false }
    tiles := []
    ranges := k.ranges.filter fun r => r.ofCopies ids
    chans := k.laneChans
    arr := { ArrayS.reset with disabled := k.arr.disabled }
    invs := []
    lq := Vector.replicate 4 []
    chtab := []
    rq := k.rq.filter fun e => k.laneQueue e.2 }

/-- Whether a node's phase is a context's. -/
def BarNode.ofCtx (n : BarNode) (x : Nat) : Bool := match n.latched with | some a => a.ctx = x | none => false
/-- Nodes of the barrier tree that hold arrivals of a context go IDLE (R316). -/
def dropArrivals (x : Nat) (l : List (Nat × BarNode)) : List (Nat × BarNode) :=
  l.map fun e => if e.2.ofCtx x then (e.1, { e.2 with st := .idle, latched := none, came := [], held := [] })
    else (e.1, { e.2 with held := e.2.held.filter fun h => h.ctx ≠ x })

/-- Discards everything of a context slot on a core (R331, R105): its unit with all it holds, and its bands. -/
def Core.discard (k : Core) (x : Nat) : Core :=
  let k := { k with
    bands := k.bands.filter fun b => decide (b.2.slot ≠ x)
    chans := k.chans.map fun (l : List CopyCmd) => l.filter fun m => !(m.ofLanes && m.ctx = x) }
  let k := if k.runs x then k.clearUnit else k
  { k with leaves := if k.owner = none then [] else dropArrivals x k.leaves }

/-- Applies a function to every core named by a mask. -/
def State.onCores (s : State) (mask : Word) (f : Nat → Core → Core) : State :=
  (bitsOf mask.toNat 64).foldl (fun s c => s.onCore c (f c)) s

/-- Whether a launch is active (R105, R132). -/
def LState.active : LState → Bool
  | .pending | .running | .draining | .replaying => true
  | .done | .cancelled => false

/-- Whether a launch of a context is active. -/
def Context.active (k : Context) : Bool := k.launches.any fun l => l.2.st.active

/-- Whether a context is RUNNING or RECOVERING. -/
def Context.busy (k : Context) : Bool := k.st = .running || k.st = .recovering

/-- Whether some context of a partition is RUNNING or RECOVERING. -/
def State.partBusy (s : State) (p : Nat) : Bool := (List.range 16).any fun x => (s.ctx (16 * p + x)).busy

end Sys2Proof.Machine
end

