-- ==== Sys2Proof/Machine/Tasks.lean ====
section
/-!
DEFINITION. The replay log's front end, launches, tasks, dependency counters, work levels and cancels (R118, R119, R130 to
R132, R321 to R332).
-/

namespace Sys2Proof.Machine

/-! ### The replay log (R118, R119) -/

/-- The bytes of a log entry (R118): header and payload, padded to 16 bytes. -/
def LogEntry.bytes (e : LogEntry) : List Byte :=
  bytesOfNat 2 e.kind ++ bytesOfNat 2 e.payload.length ++ bytesOfNat 4 0 ++ bytesOfNat 8 e.seq ++ e.payload
    ++ bytesOfNat ((16 - e.payload.length % 16) % 16) 0

/-- The ring bytes that an entry takes. -/
def LogEntry.size (e : LogEntry) : Nat := 16 + (e.payload.length + 15) / 16 * 16

/-- Writes bytes into a ring of a local home. -/
def State.ringWrite (s : State) (h base cap pos : Nat) : List Byte → State
  | [] => s
  | b :: t => State.ringWrite (s.homeWrite h (base + pos % cap) [b]) h base cap (pos + 1) t

/-- Appends an entry to a context's replay log (R118); an input that would overwrite an entry that is not freed ends the
logging, clears RSAFE and raises vector 2 (R119). Sequence numbers count from 0 (log entry 113). -/
def State.log (s : State) (x kind : Nat) (payload : List Byte) (core : Nat := 0) : State :=
  let k := s.ctx x
  let cap := k.logsz.toNat * 4096
  if !k.record || cap = 0 || !k.logging then s
  else
    let e : LogEntry := ⟨kind, k.logSeq, payload, core⟩
    let used := (k.logs.map LogEntry.size).sum
    if cap < used + e.size then
      (s.onCtx x fun k => { k with logging := false, rsafe := false }).raiseVector (x / 16) 2 (some (BitVec.ofNat 4 x))
    else
      let s := s.ringWrite (baseHome k.log) (baseFrame k.log * 4096) cap k.logHead e.bytes
      s.onCtx x fun k => { k with logs := k.logs ++ [e], logHead := (k.logHead + e.size) % cap, logSeq := k.logSeq + 1 }

/-- The payload of a kind-6 entry: the dependency counters and their OVF map (R332). -/
def depPayload (deps : List (Nat × Dep)) : List Byte :=
  (List.range 256).flatMap (fun n => match aget deps n with
    | some d => bytesOfNat 4 (d.count % 2 ^ 32).toNat
    | none => bytesOfNat 4 0)
  ++ (List.range 32).map fun i => BitVec.ofNat 8 (maskOf ((List.range 8).filter fun j =>
    match aget deps (8 * i + j) with | some d => d.ovf | none => false))

/-- A kernel boundary (R105, R119): a kind-6 entry, earlier entries freed, logging started again, RSAFE set. -/
def State.boundary (s : State) (x : Nat) : State :=
  let k := s.ctx x
  if !k.record || k.logsz = 0 then s
  else
    let s := s.onCtx x fun k => { k with logs := [], logging := true }
    let s := s.log x 6 (depPayload k.deps)
    s.onCtx x fun k => { k with rsafe := k.logging, outs := [], outPos := 0 }

/-! ### The task record (R321, R322) -/

/-- A field of a task record. -/
def tf (r : BitVec 512) (lo n : Nat) : Nat := bf r.toNat lo n
/-- KIND: 1 sequencer units, 2 lane units. -/
def recKind (r : BitVec 512) : Nat := tf r 384 3
/-- The unit count. -/
def recUnits (r : BitVec 512) : Nat := tf r 360 24
/-- Strands per lane unit. -/
def recStrands (r : BitVec 512) : Nat := tf r 344 16
/-- The priority. -/
def recPrio (r : BitVec 512) : Nat := tf r 340 4
/-- The task queue. -/
def recQueue (r : BitVec 512) : Nat := tf r 337 3
/-- Whether a lane unit may span cores. -/
def recCoop (r : BitVec 512) : Bool := tf r 336 1 = 1
/-- The cores on which units may run. -/
def recAff (r : BitVec 512) : Nat := tf r 128 64
/-- Bands that a lane unit needs. -/
def recBands (r : BitVec 512) : Nat := (recStrands r + 63) / 64

/-- Whether a counter field (WAIT, DEC0, DEC1) has its zero bits zero. -/
def depField (w : Nat) : Bool := bf w 8 7 = 0

/-- A valid record (R322); `launch` for LAUNCH, `cores` the context's CORES. -/
def recValid (r : BitVec 512) (launch : Bool) (cores : Word) : Bool :=
  let kind := recKind r
  tf r 464 48 = 0 && tf r 392 56 = 0 && tf r 387 2 = 0 && tf r 320 8 = 0 && tf r 240 24 = 0
  && (kind = 1 || kind = 2) && (2 ≤ tf r 389 3 && tf r 389 3 ≤ 4) && 1 ≤ recUnits r
  && (tf r 332 1 = 1 || tf r 328 4 = 0) && (!launch || tf r 288 32 = 0)
  && depField (tf r 224 16) && depField (tf r 208 16) && depField (tf r 192 16)
  && (recAff r &&& cores.toNat) ≠ 0 && tf r 0 64 ≠ 0
  && (if kind = 1 then
        recUnits r ≤ 64 && recStrands r = 0 && !recCoop r && tf r 333 3 = 0 && tf r 0 5 = 0
          && recUnits r ≤ popcount (recAff r &&& cores.toNat) 64
      else
        tf r 448 16 = 0 && 1 ≤ recStrands r && recStrands r ≤ (if recCoop r then 32768 else 8192) && tf r 0 3 = 0)

/-! ### Looking at tasks -/

/-- Whether a task still counts in its levels: its completion sequence lowers them in step 3 (R329, R330). -/
def Task.isOpen (t : Task) : Bool := t.st ≠ .done && t.st ≠ .cancelled && !t.completed

/-- The context slot of a task of partition p. -/
def Task.slotOf (t : Task) (p : Nat) : Nat := 16 * p + t.ctx.toNat

/-- Whether a task carries an id of a level: 1 launch, 2 graph, 3 phase, 4 job. -/
def Task.carries (t : Task) (level id : Nat) : Bool :=
  match level with
  | 1 => t.launch.toNat = id && id ≠ 0
  | 2 => tf t.record 278 10 = id
  | 3 => tf t.record 270 8 = id
  | 4 => tf t.record 264 6 = id
  | _ => false

/-- The completion counter of a level of a context (R330), of tasks alone. -/
def State.levelCount (s : State) (x level id : Nat) : Nat :=
  ((s.part (x / 16)).tasks.filter fun t => t.2.isOpen && t.2.ctx.toNat = x % 16 && t.2.carries level id).length

/-- The counter of a unit (R330): 1 while it runs or its queue entries are outstanding, on a core or in a save image. -/
def State.unitCount (s : State) (x id index : Nat) : Nat :=
  let tasks := ((s.part (x / 16)).tasks.filter fun t => t.2.ctx.toNat = x % 16 && t.2.launch.toNat = id).map fun t => t.1
  let unit := fun (u : Option SeqUnit) => u.any fun u => ctxSlot u.part u.ctx.toNat == x && u.launch.toNat == id && u.index == index
  let band := fun (b : Band) => b.slot == x && match b.of with
    | .unit t i _ => i == index && tasks.contains t
    | .gang _ _ => false
  let here := s.cores.toList.any fun k => unit k.unit || k.bands.any (fun b => band b.2)
    || k.chans.toList.any fun l => l.any fun m => m.ofLanes && m.ctx == x && m.unit == some index && (m.task.map tasks.contains).getD false
  b2n (here || (s.ctx x).images.any fun e => unit e.2.unit || e.2.bands.any fun b => band b.2)

/-- The completion counter of a launch (R330). -/
def State.launchCount (s : State) (x id : Nat) : Nat :=
  s.levelCount x 1 id + match aget (s.ctx x).launches id with
    | some l => match l.vector with
      | some v => (v.filter fun e => !l.retired.contains e.1).length
      | none => 0
    | none => 0

/-- Changes a task. -/
def State.onTask (s : State) (p slot : Nat) (f : Task → Task) : State :=
  s.onPart p fun q => { q with tasks := amod q.tasks slot f }

/-- The head of a task queue: its oldest task with unplaced units (R342). -/
def Partition.head (q : Partition) (n : Nat) : Option Task :=
  ((q.queues[n]?).getD []).head?.bind fun slot => aget q.tasks slot

/-- Whether some queue of a partition holds a task with unplaced units. -/
def Partition.hasWork (q : Partition) : Bool := q.queues.toList.any fun l => !l.isEmpty

/-! ### Cores as the scheduler sees them (R343) -/

/-- The band slots that a core has free. -/
def Core.freeSlots (k : Core) : Nat := 128 - k.bands.length

/-- The units that run on a core: its sequencer unit and its lane units, each with its class. -/
def Core.classes (k : Core) : List Nat :=
  (match k.unit with | some u => [u.cls] | none => [])
  ++ (k.bands.foldl (fun (acc : List (Nat × Nat × Nat)) b =>
      match b.2.of with
      | .unit t i _ => if acc.any (fun e => e.1 = t && e.2.1 = i) then acc else (t, i, min b.2.cls 15) :: acc
      | .gang _ _ => acc) []).map fun e => e.2.2

/-- The lowest class among a core's running units; 16 when none. -/
def Core.minClass (k : Core) : Nat := k.classes.foldl min 16

/-- A DISPATCH sluice for a partition whose queues hold work (R339). -/
def State.raiseDispatch (s : State) (p : Nat) : State :=
  if (s.part p).hasWork then
    s.raiseSluice p ⟨.dispatch, 0xFF, 0xFF, 0, 0, none, 0, none, none, 0, .env, 0, false⟩
  else s

/-- STEAL sluices for the cores of a partition that could take an entry of another core's list (R339). -/
def State.raiseSteals (s : State) (p : Nat) : State :=
  let q := s.part p
  if q.hasWork then s
  else
    let mem := bitsOf q.cores.toNat 64
    mem.foldl (fun s c =>
      let k := s.core c
      if k.list.isEmpty && (0 < k.freeSlots || k.unit.isNone)
          && mem.any (fun d => d ≠ c && (s.core d).list.any fun e => !e.saved) then
        s.raiseSluice p ⟨.steal, c, 0xFF, 0, 0, none, 0, none, none, 0, .env, 0, false⟩
      else s) s

/-- What follows when a core of a partition frees a list entry, a band slot or its sequencer (R339). -/
def State.coreFreed (s : State) (c : Nat) : State :=
  (List.range 16).foldl (fun s p =>
    if (s.part p).cores.toNat.testBit c then (s.raiseDispatch p).raiseSteals p else s) s

/-! ### Task states (R328) -/

/-- A task enters READY: it goes to the tail of its queue; DISPATCH and PREEMPT sluices are raised (R328, R339). -/
def State.readyTask (s : State) (p slot : Nat) : State :=
  match aget (s.part p).tasks slot with
  | none => s
  | some t =>
    let r := t.record
    let n := recQueue r
    let s := s.onPart p fun q => { q with
      tasks := amod q.tasks slot fun t => { t with st := .ready, readyAt := s.cycle / 2 }
      queues := q.queues.setIfInBounds n ((q.queues[n]?).getD [] ++ [slot]) }
    let s := s.raiseDispatch p
    let on := bitsOf (recAff r &&& (s.ctx (t.slotOf p)).cores.toNat) 64
    if on.all (fun c => 8 ≤ (s.core c).list.length) && on.any (fun c => (s.core c).minClass < recPrio r) then
      s.raiseSluice p ⟨.preempt, 0xFF, n, recKind r, recPrio r, some t.ctx, 0, some slot, none, 0, .env, 0, false⟩
    else s

/-- A dependency counter's value. -/
def State.dep (s : State) (x n : Nat) : Dep := (aget (s.ctx x).deps n).getD ⟨0, false⟩

/-- Adds to a dependency counter with clamping (R326); a count of 0 or less makes the tasks that wait on it READY, in the
order in which they became BLOCKED (R327). -/
def State.addDep (s : State) (x n : Nat) (d : Int) : State :=
  let o := s.dep x n
  let v := o.count + d
  let c := max (-2 ^ 31) (min (2 ^ 31 - 1) v)
  let s := s.onCtx x fun k => { k with deps := aput k.deps n ⟨c, o.ovf || c ≠ v⟩ }
  if 0 < c then s
  else
    let p := x / 16
    let ws := ((s.part p).tasks.filter fun t =>
      t.2.st = .blocked && t.2.ctx.toNat = x % 16 && tf t.2.record 224 8 = n).mergeSort fun a b => a.2.order ≤ b.2.order
    ws.foldl (fun s t => s.readyTask p t.1) s

/-- The messages for the levels of a task whose counter is 0 (R330). -/
def State.levelMessages (s : State) (p : Nat) (t : Task) : State :=
  [(2, tf t.record 278 10), (3, tf t.record 270 8), (4, tf t.record 264 6)].foldl (fun s e =>
    if e.2 ≠ 0 && s.levelCount (t.slotOf p) e.1 e.2 = 0 then s.tell (.level p t.ctx e.1 e.2) else s) s

/-- A pending invocation whose task leaves its slot: its TFLAGS say how the task stood, and that it was CANCELLED if it was (R344). -/
def SReq.taskGone (slot flags : Nat) (r : SReq) : SReq :=
  if r.task = some slot then { r with task := none, tflags := r.tflags ||| flags } else r
/-- The same of an invocation that runs. -/
def Engine.taskGone (e : Engine) (p slot flags : Nat) : Engine := if e.part = p then { e with req := e.req.taskGone slot flags } else e
/-- TFLAGS of a task (R344): DEGRADED-RESULT, and CANCELLED where it leaves its slot without being DONE. -/
def Task.flags (t : Task) : Nat := b2n t.degraded ||| (if t.st = .done then 0 else 2)

/-- Takes a task out of its partition's store and queues (R328); a level whose counter falls to 0 sends a message (R330), and where no task with
unplaced units remains, cores may steal (R339). -/
def State.dropTask (s : State) (p slot : Nat) : State :=
  match aget (s.part p).tasks slot with
  | none => s
  | some t =>
    let x := t.slotOf p
    let s := s.onPart p fun q => { q with
      tasks := adel q.tasks slot
      enqs := q.enqs.filter fun n => n ≠ slot
      queues := q.queues.map fun l => l.filter fun n => n ≠ slot
      sluices := q.sluices.map (SReq.taskGone slot t.flags)
      decided := q.decided.map fun d => { d with req := d.req.taskGone slot t.flags } }
    let s := { s with engines := s.engines.map fun e => e.map fun g => g.taskGone p slot t.flags }
    let s := if t.completed then s else s.levelMessages p t
    if t.st = .ready || t.st = .placed then s.raiseSteals p else s

/-- The next launch id of a context (R130): ids held by active launches are skipped; 0 is never given. -/
def Context.freeLid (k : Context) (fuel id : Nat) : Nat :=
  match fuel with
  | 0 => id
  | fuel + 1 =>
    if k.launches.any fun l => l.1 = id && l.2.st.active then
      Context.freeLid k fuel (if id = 0xFFFFFFFF then 1 else id + 1)
    else id

/-- Opens a launch in PENDING with the context's next id (R130); a READY context goes RUNNING, with its log started when REC
is 1 (R105). -/
def State.openLaunch (s : State) (x : Nat) (v : Option (List (Nat × Word))) : Nat × State :=
  let k := s.ctx x
  let id := k.freeLid k.launches.length k.nextLid
  let l : Launch := ⟨BitVec.ofNat 32 id, .pending, v, if v.isSome then 64 else 0, [], [], false⟩
  (id, s.onCtx x fun k =>
    let starts := k.st = .ready && k.record && k.logsz ≠ 0
    { k with
      launches := aput k.launches id l
      nextLid := if id = 0xFFFFFFFF then 1 else id + 1
      lastLid := if v.isSome then id else k.lastLid
      lstate := if v.isSome then 1 else k.lstate
      st := if k.st = .ready then .running else k.st
      logging := k.logging || starts
      rsafe := k.rsafe || starts })

/-- Sets a launch's state; the status word follows the most recent start-vector launch, and DONE and CANCELLED send a
message (R131). -/
def State.setLaunch (s : State) (x id : Nat) (st : LState) : State :=
  let code := match st with
    | .pending => 1 | .running => 2 | .draining => 3 | .done => 4 | .cancelled => 5 | .replaying => 6
  let last := (s.ctx x).lastLid = id
  let s := s.onCtx x fun k => { k with
    launches := amod k.launches id fun l => { l with st := st }
    lstate := if last then code else k.lstate }
  if last && (code = 4 || code = 5) then s.tell (.launch (x / 16) (BitVec.ofNat 4 x) id code) else s

/-- The context goes READY at a kernel boundary once no launch of it is active (R105): the launches that it lists begin after the boundary. -/
def State.settleContext (s : State) (x : Nat) : State :=
  let k := s.ctx x
  if !k.active && (k.st = .running || k.st = .preempted) then
    (s.onCtx x fun k => { k with st := .ready, images := [], freezing := [], launches := [], firstLid := k.nextLid }).boundary x
  else s

/-- Moves a launch to DRAINING and DONE as its units and tasks end (R132, R330); one that is PENDING has no row for it. -/
def State.checkLaunch (s : State) (x id : Nat) : State :=
  match aget (s.ctx x).launches id with
  | none => s
  | some l =>
    let ends := match l.vector with
      | some v => v.all fun e => l.ended.contains e.1
      | none => l.taskEnded && s.launchCount x id = 0
    let began : Bool := l.st = .running || l.st = .replaying
    let s := if began && ends then s.setLaunch x id .draining else s
    let st := ((aget (s.ctx x).launches id).map fun l => l.st).getD .done
    let open1 := (s.part (x / 16)).tasks.any fun t => t.2.ctx.toNat = x % 16 && t.2.launch.toNat = id
    if st = .draining && s.launchCount x id = 0 && !open1 then (s.setLaunch x id .done).settleContext x else s

/-- What the scheduler does with a task whose launch is not active (R328): CANCELLED, with a TASK_LAUNCH record. -/
def State.refuseTask (s : State) (p slot : Nat) (t : Task) : State :=
  let x := t.slotOf p
  (s.dropTask p slot).takeFault x { FRec.zero with kind := .taskLaunch, core := BitVec.ofNat 6 t.lastCore } .env
    (recKind t.record) (recPrio t.record) 2

/-- The launch of a `LAUNCH` that the scheduler processes: a new one; in RECOVERING the launch that is REPLAYING, or still PENDING, under the next id
is taken up again, so that the replay numbers its launches as the first run did (R121, R130). -/
def State.taskLaunch (s : State) (x : Nat) : Nat × State :=
  let k := s.ctx x
  match aget k.launches k.nextLid with
  | some l =>
    if k.st = .recovering && (l.st = .replaying || l.st = .pending) && l.vector.isNone then
      (k.nextLid, s.onCtx x fun k => { k with nextLid := if k.nextLid = 0xFFFFFFFF then 1 else k.nextLid + 1 })
    else s.openLaunch x none
  | none => s.openLaunch x none

/-- The scheduler processes a task (R328): its launch, its counters raised (R326), its unit indices (R330), BLOCKED or
READY. -/
def State.processTask (s : State) (p slot : Nat) : State :=
  match aget (s.part p).tasks slot with
  | none => s
  | some t =>
    if t.st ≠ .pending then s
    else
      let x := t.slotOf p
      let r := t.record
      let s := s.onPart p fun q => { q with enqs := q.enqs.filter fun n => n ≠ slot }
      let live := match aget (s.ctx x).launches t.launch.toNat with
        | some l => l.st.active
        | none => false
      if !t.isLaunch && !live then s.refuseTask p slot t
      else
        let (id, s) := if t.isLaunch then s.taskLaunch x else (t.launch.toNat, s)
        let first := ((aget (s.ctx x).launches id).map fun l => l.nextIndex).getD 0
        let s := s.onCtx x fun k => { k with
          launches := amod k.launches id fun l => { l with nextIndex := l.nextIndex + recUnits r } }
        let s := s.onTask p slot fun t => { t with launch := BitVec.ofNat 32 id, first := first }
        let blocked := tf r 239 1 = 1 && 0 < (s.dep x (tf r 224 8)).count
        let s := if tf r 223 1 = 1 then s.addDep x (tf r 208 8) 1 else s
        let s := if tf r 207 1 = 1 then s.addDep x (tf r 192 8) 1 else s
        if blocked then
          let (n, s) := s.newId
          s.onTask p slot fun t => { t with st := .blocked, order := n }
        else s.readyTask p slot

/-! ### Enqueue (R324, R333) -/

/-- The slot of the store that a task takes: the lowest free one. -/
def Partition.freeTaskSlot (q : Partition) : Nat :=
  ((List.range (q.tasks.length + 1)).find? fun n => !(q.tasks.any fun t => t.1 = n)).getD 0

/-- Takes one of a core's credits and enqueues a record in PENDING; `lid` is the issuer's launch (R321, R324, R328). -/
def State.enqueue (s : State) (c x : Nat) (r : BitVec 512) (launch : Bool) (lid : BitVec 32) : State :=
  let p := x / 16
  let slot := (s.part p).freeTaskSlot
  let (id, s) := s.newId
  let join := if tf r 288 32 = 0 then lid else BitVec.ofNat 32 (tf r 288 32)
  let t : Task :=
    { slot := slot, ctx := BitVec.ofNat 4 x, record := r, isLaunch := launch, st := .pending,
      launch := if launch then 0 else join, first := 0, placed := 0, ended := [], lastCore := c, readyAt := 0, order := id,
      deadUnits := [], degraded := false, completed := false }
  (s.onCore c fun k => { k with credits := k.credits - 1 }).onPart p fun q =>
    { q with tasks := aput q.tasks slot t, enqs := q.enqs ++ [slot] }

/-! ### Messages to the scheduler (R15, R326, R331) -/

/-- Sends a decrement of a counter from a core. -/
def State.sendDec (s : State) (core x counter : Nat) (amount : Int) : State :=
  let (id, s) := s.newId
  { s with decs := s.decs ++ [⟨core, id, x, counter, amount⟩] }
/-- Sends a cancel from a core; 64 is the control node. -/
def State.sendCancel (s : State) (core : Nat) (m : CancelMsg) : State :=
  let (id, s) := s.newId
  { s with cancels := s.cancels ++ [{ m with core := core, num := id }] }
/-- Whether a message that a core sent to the scheduler before the one with number `id` is still on its way: its messages arrive in the order in
which they were sent (R15). -/
def State.schedWaits (s : State) (core id : Nat) : Bool :=
  (s.decs.any fun d => d.core = core && d.num < id) || (s.cancels.any fun m => m.core = core && m.num < id)
    || s.parts.toList.any fun q => q.enqs.any fun n => ((aget q.tasks n).map fun t => t.lastCore = core && decide (t.order < id)).getD false

/-! ### Ends and cancels (R329, R331) -/

/-- A unit of a task has ended on a core (R329); a lane unit with dead strands has completed with DEGRADED-RESULT (R122). -/
def State.unitEnded (s : State) (p slot index c : Nat) : State :=
  let bad := ((aget (s.part p).tasks slot).map fun t => t.deadUnits.contains index).getD false
  let x := (aget (s.part p).tasks slot).map fun t => t.ctx
  let s := s.onTask p slot fun t => { t with
    ended := if t.ended.contains index then t.ended else t.ended ++ [index]
    lastCore := c
    degraded := t.degraded || bad }
  if bad then s.raiseVector p 4 x else s

/-- Whether every unit of a task has been placed and has ended (R329). -/
def Task.finished (t : Task) : Bool := t.st = .running && t.ended.length = recUnits t.record

/-- Takes discarded units out of a context's save images; images that hold nothing any more go. -/
def State.purgeImages (s : State) (x : Nat) (unit : SeqUnit → Bool) (band : Band → Bool) : State :=
  let part := fun (im : SaveImage) =>
    let gone := (im.unit.map unit).getD false
    { im with
      unit := if gone then none else im.unit
      bands := im.bands.filter fun (b : Nat × Band) => !band b.2 && !(gone && match b.2.of with | .gang _ _ => true | .unit _ _ _ => false) }
  s.onCtx x fun k => { k with
    images := (k.images.map fun e => (e.1, part e.2)).filter fun e => e.2.unit.isSome || !e.2.bands.isEmpty }

/-- The transfers that a discarded unit's commands on a core sent to other cores fail there: the tile goes ALLOC (R162). -/
def State.failArrivals (s : State) (c : Nat) (mine : CopyCmd → Bool) : State :=
  ((s.core c).chans.toList.flatMap fun l => l.filter fun m => m.op = .cxc && m.st = .moving && mine m).foldl (fun s m =>
    s.onCore m.destCore fun k => if k.ranges.any fun r => r.owner = .arrive c m.id
      then (k.toState m.destReg .alloc).dropRange (.arrive c m.id) else k) s

/-- Whether a band's pennant operation is still waited for: the operation of a band that is gone, or that goes on without it, is withdrawn
(R298); so is a collective's whose entry has been discarded. -/
def State.penLives (s : State) (o : PenOp) : Bool :=
  match o.who with
  | .band c n => (s.band c n).any fun b => b.wait = .pennant o.id
  | .coll c q id => (((s.core c).lq[q]?).getD []).any fun m => m.id = id
  | .packet _ _ => true
/-- Withdraws the operations of agents that no longer wait for them (R298). -/
def State.tidyPens (s : State) : State := { s with pens := s.pens.filter s.penLives }

/-- Removes a task's units from every core: its sequencer units, its bands and its list entries (R331). -/
def State.discardUnits (s : State) (p slot : Nat) (keep : Nat → Bool) : State :=
  let s := match aget (s.part p).tasks slot with
    | some t => s.purgeImages (t.slotOf p) (fun u => u.task = some slot && !keep u.index) (fun b => match b.of with
        | .unit n i _ => n = slot && !keep i
        | .gang _ _ => false)
    | none => s
  (List.range 64).foldl (fun s c =>
    let k := s.core c
    let mine := match k.unit with
      | some u => u.part.toNat = p && u.task = some slot && !keep u.index
      | none => false
    let bandMine := fun (b : Band) => b.part.toNat = p && match b.of with
      | .unit t i _ => t = slot && !keep i
      | .gang _ _ => mine
    let listMine := fun (e : LEntry) => e.task = some slot && (s.part p).cores.toNat.testBit c && !keep e.unit
    let cmdMine := fun (m : CopyCmd) => m.ofLanes && m.ctx / 16 = p && m.task = some slot && k.bands.any fun b => bandMine b.2 && m.issuer = .band c b.1
    if mine || k.bands.any (fun b => bandMine b.2) || (k.list ++ k.returning).any listMine then
      let s := s.failArrivals c fun m => cmdMine m || (mine && !m.ofLanes)
      let k := s.core c
      let k := { k with
        bands := k.bands.filter fun b => !bandMine b.2
        chans := k.chans.map fun (l : List CopyCmd) => l.filter fun m => !cmdMine m
        list := k.list.filter fun e => !listMine e
        returning := k.returning.filter fun e => !listMine e }
      (s.setCore c (if mine then k.clearUnit else k)).tidyPens.coreFreed c
    else s) s

/-- Notes that a task of a launch has ended or was cancelled (R330). -/
def State.markEnded (s : State) (x id : Nat) : State :=
  s.onCtx x fun k => { k with launches := amod k.launches id fun l => { l with taskEnded := true } }

/-- A task goes CANCELLED (R328): units discarded, slot freed, no counter lowered. -/
def State.cancelTask (s : State) (p slot : Nat) : State :=
  match aget (s.part p).tasks slot with
  | none => s
  | some t => ((s.discardUnits p slot fun _ => false).dropTask p slot).markEnded (t.slotOf p) t.launch.toNat

/-- A start-vector launch's unit on a core is discarded (R331): it counts as ended and retired. -/
def State.discardVector (s : State) (x id c : Nat) : State :=
  let k := s.core c
  let mine := match k.unit with
    | some u => ctxSlot u.part u.ctx.toNat = x && u.task = none && u.launch.toNat = id
    | none => false
  let s := if mine then
      let s := s.failArrivals c fun m => !m.ofLanes
      let k := s.core c
      (s.setCore c { k.clearUnit with bands := k.bands.filter fun b => match b.2.of with | .gang _ _ => false | .unit _ _ _ => true }).tidyPens.coreFreed c
    else s
  let s := s.purgeImages x (fun u => u.task = none && u.launch.toNat = id && u.index = c) fun _ => false
  s.onCtx x fun k => { k with launches := amod k.launches id fun l => { l with
    ended := if l.ended.contains c then l.ended else l.ended ++ [c]
    retired := if l.retired.contains c then l.retired else l.retired ++ [c] } }

/-- A cancel reaches the scheduler (R331): level 0 a unit, 1 a launch, 2 a graph, 3 a phase, 4 a job. -/
def State.cancel (s : State) (m : CancelMsg) : State :=
  let x := m.ctx
  let p := x / 16
  if m.level = 0 then
    match aget (s.ctx x).launches m.id with
    | none => s
    | some l =>
      match (s.part p).tasks.find? fun t =>
          t.2.ctx.toNat = x % 16 && t.2.launch.toNat = m.id && t.2.st ≠ .pending
            && t.2.first ≤ m.unit && m.unit < t.2.first + recUnits t.2.record with
      | some t => (s.cancelTask p t.1).checkLaunch x m.id
      | none =>
        if l.vector.any (fun v => v.any fun e => e.1 = m.unit) then (s.discardVector x m.id m.unit).checkLaunch x m.id else s
  else
    let ts := (s.part p).tasks.filter fun t => t.2.ctx.toNat = x % 16 && t.2.carries m.level m.id
    let s := ts.foldl (fun s t => s.cancelTask p t.1) s
    if m.level = 1 then
      match aget (s.ctx x).launches m.id with
      | none => s
      | some l =>
        if l.st = .pending || l.st = .running || l.st = .draining then
          let s := match l.vector with
            | some v => v.foldl (fun (s : State) (e : Nat × Word) => s.discardVector x m.id e.1) s
            | none => s
          (s.setLaunch x m.id .cancelled).settleContext x
        else s
    else ts.foldl (fun s t => s.checkLaunch x t.2.launch.toNat) s

/-! ### A context ends (R105) -/

/-- Cancels every task of a context (R328). -/
def State.cancelTasks (s : State) (x : Nat) : State :=
  (((s.part (x / 16)).tasks.filter fun t => t.2.ctx.toNat = x % 16)).foldl (fun s t => s.dropTask (x / 16) t.1) s

/-- Whether a context has a unit, a band or a list entry on a core. -/
def State.onCoreOf (s : State) (x c : Nat) : Bool :=
  let k := s.core c
  k.runs x || k.hasBands x || (k.list ++ k.returning).any fun e => e.ctx.toNat = x % 16 && (s.part (x / 16)).cores.toNat.testBit c

/-- Discards what a context has on every core: units, bands, list entries (R105, R331); what they free raises sluices (R339). -/
def State.discardContext (s : State) (x : Nat) : State :=
  let held := (List.range 64).filter (s.onCoreOf x)
  let s := held.foldl (fun (s : State) c =>
    let s := s.failArrivals c fun m => m.ctx = x
    let k := s.core c
    let mine := fun (e : LEntry) => e.ctx.toNat = x % 16 && (s.part (x / 16)).cores.toNat.testBit c
    s.setCore c { k.discard x with list := k.list.filter fun e => !mine e, returning := k.returning.filter fun e => !mine e }) s
  held.foldl (fun (s : State) c => s.coreFreed c) s

/-- Arrivals of other contexts that such nodes of a level hold arrive at them anew (R315). -/
def heldAgain (x level : Nat) (l : List (Nat × BarNode)) : List BarMsg :=
  l.flatMap fun e => if e.2.ofCtx x then (e.2.held.filter fun h => h.ctx ≠ x).map fun h => ⟨level, e.1, h⟩ else []

/-- What the entry into FAILED, RETIRED or RECOVERING takes at once (R134, R298, R316, R328). -/
def State.stopContext (s : State) (x : Nat) : State :=
  let again := (List.range 64).flatMap fun c => heldAgain x 0 ((s.core c).leaves.map fun e => (64 * c + e.1, e.2))
  let s := ((s.cancelTasks x).discardContext x).tidyPens
  { s with
    dieRoots := dropArrivals x s.dieRoots
    chipRoots := dropArrivals x s.chipRoots
    barMsgs := (s.barMsgs.filter fun m => m.arrival.ctx ≠ x) ++ again ++ heldAgain x 1 s.dieRoots ++ heldAgain x 2 s.chipRoots
    heldFlips := s.heldFlips.filter fun f => f.ctx ≠ x }

/-- The launches of a context that are PENDING, RUNNING or DRAINING go CANCELLED (R132). -/
def State.cancelLaunches (s : State) (x : Nat) : State :=
  (s.ctx x).launches.foldl (fun s l =>
    match l.2.st with
    | .pending | .running | .draining => s.setLaunch x l.1 .cancelled
    | _ => s) s

/-- A context enters FAILED (R105): its cores stop, its launches are cancelled, vector 0 is raised; for a FAILED context the row gives
vector 0 again. -/
def State.failContext (s : State) (x : Nat) : State :=
  match (s.ctx x).st with
  | .empty | .retired => s
  | .failed => s.raiseVector (x / 16) 0 (some (BitVec.ofNat 4 x))
  | _ =>
    let s := (s.stopContext x).cancelLaunches x
    (s.onCtx x fun k => { k with st := .failed, replay := [], freezing := [] }).raiseVector (x / 16) 0
      (some (BitVec.ofNat 4 x))

end Sys2Proof.Machine
end

