-- ==== Sys2Proof/Machine/Policy.lean ====
section
/-!
DEFINITION. The policy: view tables, the default policy, admission, the policy instructions, invocations and the slot's
commands (R88 to R90, R335 to R353, R358 to R360).
-/

namespace Sys2Proof.Machine

/-! ### View tables (R342 to R346) -/

/-- DEGR of a core (R343): 2 failed, 1 array DEGRADED, 0 in service. -/
def Core.degr (k : Core) : Nat := if k.failed then 2 else if 8 < k.arr.disabled.length then 1 else 0

/-- The QV row of a task queue. -/
def State.viewQ (s : State) (p n : Nat) : List Nat :=
  let q := s.part p
  let depth := ((q.queues[n]?).getD []).length
  match q.head n with
  | none => [depth, 0, 0, 0, 0, 0, 0]
  | some t =>
    let r := t.record
    [depth, recPrio r, min (s.cycle / 2 - t.readyAt) 0xFFFFFFFF, recAff r &&& (s.ctx (t.slotOf p)).cores.toNat, recKind r,
     recUnits r - t.placed, b2n (recCoop r)]

/-- The CV row of a core. -/
def State.viewC (s : State) (p c : Nat) : List Nat :=
  if (s.part p).cores.toNat.testBit c then
    let k := s.core c
    [1, k.freeSlots, 4096 - (k.bands.map fun b => b.2.vregs).sum, b2n k.unit.isNone, k.classes.length, k.list.length, k.degr,
     k.minClass]
  else [0, 0, 0, 0, 0, 0, 0, 16]

/-- The bands that a list entry of a core stands for: those that its task needs, or of a pre-empted unit those in its image there. -/
def State.entryBands (s : State) (p c : Nat) (e : LEntry) : Nat :=
  if e.saved then
    let x := 16 * p + e.ctx.toNat % 16
    match aget (s.ctx x).images (logical (s.ctx x).cores c) with
    | some im => (im.bands.filter fun b => match b.2.of with | .unit t i _ => some t = e.task && i = e.unit | .gang _ _ => false).length
    | none => 0
  else ((e.task.bind fun t => aget (s.part p).tasks t).map fun t => recBands t.record).getD 0
/-- Band slots that the partition's lane units and list entries hold (R345). -/
def State.bandUse (s : State) (p : Nat) : Nat :=
  ((bitsOf (s.part p).cores.toNat 64).map fun c =>
    let k := s.core c
    (k.bands.filter fun b => match b.2.of with | .unit _ _ _ => true | .gang _ _ => false).length
    + (((k.list ++ k.returning).filter fun e => e.kind = .laneUnit && e.cores.head? = some c).map (s.entryBands p c)).sum).sum

/-- The entry that STEAL moves: the newest never-started one of a list. -/
def Core.newest (k : Core) : Option LEntry := (k.list.filter fun e => !e.saved).getLast?

/-- The contexts, plus 1, of a queue's head (row n below 8) and of the newest never-started entry of a core's list (row 8 + c): whom a PLACE
or STEAL of the invocation concerns (R361). -/
def State.viewOwner (s : State) (p n : Nat) : Nat :=
  if n < 8 then (((s.part p).head n).map fun t => t.ctx.toNat + 1).getD 0
  else if (s.part p).cores.toNat.testBit (n - 8) then ((s.core (n - 8)).newest.map fun e => e.ctx.toNat + 1).getD 0
  else 0

/-- TFLAGS of an invocation (R344): what is known since it was raised, and DEGRADED-RESULT of its task as it stands. -/
def State.taskFlags (s : State) (p : Nat) (r : SReq) : Nat :=
  r.tflags ||| b2n (((r.task.bind fun t => aget (s.part p).tasks t).map fun t => t.degraded).getD false)

/-- The tables that an invocation sees, by selector: QV, CV, FV, EV, PV; the last one, which no selector names, is `viewOwner`'s. -/
def State.view (s : State) (p : Nat) (r : SReq) : List (List (List Nat)) :=
  let q := s.part p
  let dsn := match r.sl, r.ctx with
    | .dispatch, _ | .steal, _ => 0
    | _, some x => (s.ctx (16 * p + x.toNat)).dsn.toNat
    | _, none => 0
  let code := match r.sl with | .dispatch => 0 | .steal => 1 | .preempt => 2 | .fault => 3 | .complete => 4
  [(List.range 8).map (s.viewQ p),
   (List.range 64).map (s.viewC p),
   [match r.record with | some f => f.words ((r.ctx.map fun x => x.toNat).getD 0) | none => List.replicate 8 0],
   [[code, r.core, r.queue, r.kind, r.prio, (r.ctx.map fun x => x.toNat).getD 0xFF, s.taskFlags p r, dsn]],
   [[q.cores.toNat, q.bandq, s.bandUse p, (q.free0.map fun e => e.2).sum, (q.free1.map fun e => e.2).sum, q.slot.ovrn,
     q.slot.invc.toNat]],
   [(List.range 72).map (s.viewOwner p)]]

/-- The table that a selector names. -/
def viewTable (v : List (List (List Nat))) (t : Nat) : List (List Nat) := if t ≤ 4 then v.getD t [] else []
/-- A field of a row of a table; 0 beyond it (R351). -/
def viewGet (v : List (List (List Nat))) (t row f : Nat) : Nat := ((viewTable v t).getD row []).getD f 0

/-! ### The default policy (R360) -/

/-- Whether the first of two candidate cores comes first: fewest list entries, most free slots, lowest number. -/
def coreBefore (s : State) (a b : Nat) : Bool :=
  let x := s.core a
  let y := s.core b
  if x.list.length ≠ y.list.length then x.list.length < y.list.length
  else if x.freeSlots ≠ y.freeSlots then y.freeSlots < x.freeSlots
  else a ≤ b

/-- Whether a core holds a sequencer unit of a task, running or listed. -/
def Core.holdsTask (k : Core) (p slot : Nat) : Bool :=
  (match k.unit with | some u => u.part.toNat = p && u.task = some slot | none => false)
  || k.list.any fun e => e.task = some slot

/-- The first cores, in order, whose free slots cover a number of bands, at most 4. -/
def coverCores (s : State) (need : Nat) : List Nat → List Nat → Option (List Nat)
  | _, [] => none
  | acc, c :: t =>
    let acc := acc ++ [c]
    if need ≤ (acc.map fun c => (s.core c).freeSlots).sum then some acc
    else if 4 ≤ acc.length then none
    else coverCores s need acc t

/-- Whether the quota forbids a PLACE (R355); a sequencer unit needs no bands. -/
def State.quotaBars (s : State) (p : Nat) (r : BitVec 512) : Bool :=
  (s.part p).bandq ≠ 0 && (s.part p).bandq < s.bandUse p + recBands r

/-- The queue whose head has the greatest priority, the lowest number on a tie. -/
def Partition.topQueue (q : Partition) : Option Nat :=
  ((List.range 8).foldl (fun (b : Option (Nat × Nat)) n =>
    match q.head n with
    | none => b
    | some t => match b with
      | some (_, pr) => if pr < recPrio t.record then some (n, recPrio t.record) else b
      | none => some (n, recPrio t.record)) none).map fun e => e.1

/-- The default decision of a DISPATCH sluice: a queue and the cores for its head, or nothing. -/
def State.defaultPlace (s : State) (p : Nat) : Option (Nat × List Nat) :=
  let q := s.part p
  match q.topQueue with
  | none => none
  | some n =>
    match q.head n with
    | none => none
    | some t =>
      let r := t.record
      let able := ((bitsOf (recAff r &&& (s.ctx (t.slotOf p)).cores.toNat) 64).filter fun c =>
        (s.core c).degr < 2 && (s.core c).list.length < 8).mergeSort (coreBefore s)
      if s.quotaBars p r then none
      else if recKind r = 1 then (able.find? fun c => !(s.core c).holdsTask p t.slot).map fun c => (n, [c])
      else if recCoop r then (coverCores s (recBands r) [] able).map fun l => (n, l)
      else able.head?.map fun c => (n, [c])

/-- The default policy's decision for a sluice (R360): kind, OPA, OPB. -/
def State.defaultDecision (s : State) (p : Nat) (r : SReq) : BitVec 4 × Word × Word :=
  match r.sl with
  | .dispatch => match s.defaultPlace p with
    | some (n, l) => (1, BitVec.ofNat 64 n, BitVec.ofNat 64 (maskOf l))
    | none => (0, 0, 0)
  | .fault => if (r.record.map fun f => f.kind) = some .ueStrand then (0, 0, 0) else (10, 0, 0)
  | _ => (0, 0, 0)

/-! ### Decisions are handed over -/

/-- The step that applies a decision of a kind. -/
def decisionStep (k : Nat) : Instr :=
  match k with
  | 1 => .decisionPlace | 2 => .decisionSteal | 3 => .decisionPreempt | 4 => .decisionKillstrand | 5 => .decisionRestart
  | 6 => .decisionPark | 7 => .decisionMap | 8 => .decisionMigrate | 9 => .decisionReplay | 10 => .decisionEscalate
  | 11 => .decisionRemap | _ => .decisionKeep

/-- Hands a decision to the scheduler block, which applies it next (R341). -/
def State.decide (s : State) (p : Nat) (d : Decided) : State :=
  (s.onPart p fun q => { q with decided := some d }).push
    [.event (decisionStep d.kind.toNat) { Request.zero with part := p }]

/-- Hands over the default policy's decision. -/
def State.decideDefault (s : State) (p : Nat) (r : SReq) (ovr rej : Bool) : State :=
  let (k, a, b) := s.defaultDecision p r
  s.decide p ⟨r, k, a, b, 0, true, ovr, rej, false⟩

/-! ### The policy instructions (R348 to R353) -/

/-- The invocation on the current policy engine. -/
def State.engine (s : State) : Option Engine := ((s.engines[s.engineCur]?).getD none)
/-- Sets the invocation on the current policy engine. -/
def State.setEngine (s : State) (e : Option Engine) : State := { s with engines := s.engines.setIfInBounds s.engineCur e }
/-- A policy register. -/
def Engine.reg (e : Engine) (r : BitVec 4) : Word := (e.k[r.toNat]?).getD 0
/-- Writes a policy register and goes on. -/
def Engine.put (e : Engine) (d : BitVec 4) (v : Word) : Engine :=
  { e with k := e.k.setIfInBounds d.toNat v, pc := e.pc + 1 }

/-- Runs one instruction of an invocation: its cost is counted (R348), then its effect. -/
def State.polRun (s : State) (cost : Nat) (f : Engine → Engine) : Host.Outcome State Fault Refusal :=
  match s.engine with
  | none => .next s
  | some e => .next (s.setEngine (some (f { e with cost := e.cost + cost })))

/-- An instruction that writes a register. -/
def State.polSet (s : State) (d : BitVec 4) (cost : Nat) (f : Engine → Word) : Host.Outcome State Fault Refusal :=
  s.polRun cost fun e => e.put d (f e)

/-- The request of an invocation that ends with a decision: a PLACE at DISPATCH and a STEAL concern the context of the unit that they name
(R361). -/
def Engine.request (e : Engine) (kind : BitVec 4) (opa : Word) : SReq :=
  let row := if e.req.sl = .dispatch && kind = 1 && opa.toNat < 8 then opa.toNat
    else if e.req.sl = .steal && kind = 2 && opa.toNat < 64 then 8 + opa.toNat else 72
  match ((e.view.getD 5 []).getD 0 []).getD row 0 with
  | 0 => e.req
  | n + 1 => { e.req with ctx := some (BitVec.ofNat 4 n) }

/-- The end of an invocation with a decision (R341, R353). -/
def State.polEnd (s : State) (kind : BitVec 4) (opa opb : Engine → Word) (imm : BitVec 14) : Host.Outcome State Fault Refusal :=
  match s.engine with
  | none => .next s
  | some e => .next ((s.setEngine none).decide e.part ⟨e.request kind (opa e), kind, opa e, opb e, imm, false, false, false, false⟩)

/-- The comparisons of CMP (R89). -/
def polCmp (cc : BitVec 3) (a b : Word) : Bool :=
  match cc.toNat with
  | 0 => a = b | 1 => a ≠ b | 2 => a.toNat < b.toNat | 3 => b.toNat ≤ a.toNat | 4 => a.toInt < b.toInt | _ => b.toInt ≤ a.toInt

/-- SCAN (R352): the selected row with the least or greatest field, the lowest index on ties; all ones with none. -/
def scanRows (rows : List (List Nat)) (mask : Word) (f : Nat) (mx : Bool) : Word :=
  let sel := (List.range rows.length).filter fun r => mask.toNat.testBit r
  match sel.foldl (fun (b : Option (Nat × Nat)) r =>
    let v := (rows.getD r []).getD f 0
    match b with
    | none => some (r, v)
    | some (_, w) => if (if mx then w < v else v < w) then some (r, v) else b) none with
  | some (r, _) => BitVec.ofNat 64 r
  | none => 0xFFFFFFFFFFFFFFFF

/-- NOP. -/
def execPolNop (s : State) := s.polRun 1 fun e => { e with pc := e.pc + 1 }
/-- LDI. -/
def execPolLdi (d : BitVec 4) (imm : BitVec 18) (s : State) := s.polSet d 1 fun _ => imm.signExtend 64
/-- MOV. -/
def execPolMov (d a : BitVec 4) (s : State) := s.polSet d 1 fun e => e.reg a
/-- ADD. -/
def execPolAdd (d a b : BitVec 4) (s : State) := s.polSet d 1 fun e => e.reg a + e.reg b
/-- ADD with an immediate, sign-extended (R88). -/
def execPolAddImm (d a : BitVec 4) (imm : BitVec 18) (s : State) := s.polSet d 1 fun e => e.reg a + imm.signExtend 64
/-- SUB. -/
def execPolSub (d a b : BitVec 4) (s : State) := s.polSet d 1 fun e => e.reg a - e.reg b
/-- SUB with an immediate, sign-extended (R88). -/
def execPolSubImm (d a : BitVec 4) (imm : BitVec 18) (s : State) := s.polSet d 1 fun e => e.reg a - imm.signExtend 64
/-- AND. -/
def execPolAnd (d a b : BitVec 4) (s : State) := s.polSet d 1 fun e => e.reg a &&& e.reg b
/-- AND with an immediate, zero-extended (R88). -/
def execPolAndImm (d a : BitVec 4) (imm : BitVec 18) (s : State) := s.polSet d 1 fun e => e.reg a &&& imm.setWidth 64
/-- OR. -/
def execPolOr (d a b : BitVec 4) (s : State) := s.polSet d 1 fun e => e.reg a ||| e.reg b
/-- OR with an immediate, zero-extended (R88). -/
def execPolOrImm (d a : BitVec 4) (imm : BitVec 18) (s : State) := s.polSet d 1 fun e => e.reg a ||| imm.setWidth 64
/-- XOR. -/
def execPolXor (d a b : BitVec 4) (s : State) := s.polSet d 1 fun e => e.reg a ^^^ e.reg b
/-- XOR with an immediate, zero-extended (R88). -/
def execPolXorImm (d a : BitVec 4) (imm : BitVec 18) (s : State) := s.polSet d 1 fun e => e.reg a ^^^ imm.setWidth 64
/-- SHL. -/
def execPolShl (d a b : BitVec 4) (s : State) := s.polSet d 1 fun e => e.reg a <<< ((e.reg b).toNat % 64)
/-- SHL with an immediate. -/
def execPolShlImm (d a : BitVec 4) (sh : BitVec 6) (s : State) := s.polSet d 1 fun e => e.reg a <<< sh.toNat
/-- SHR: zeros enter. -/
def execPolShr (d a b : BitVec 4) (s : State) := s.polSet d 1 fun e => e.reg a >>> ((e.reg b).toNat % 64)
/-- SHR with an immediate. -/
def execPolShrImm (d a : BitVec 4) (sh : BitVec 6) (s : State) := s.polSet d 1 fun e => e.reg a >>> sh.toNat
/-- The smaller of two unsigned words. -/
def wordMin (a b : Word) : Word := if a.toNat ≤ b.toNat then a else b
/-- The larger of two unsigned words. -/
def wordMax (a b : Word) : Word := if a.toNat ≤ b.toNat then b else a
/-- MIN. -/
def execPolMin (d a b : BitVec 4) (s : State) := s.polSet d 1 fun e => wordMin (e.reg a) (e.reg b)
/-- MIN with an immediate, zero-extended (R88). -/
def execPolMinImm (d a : BitVec 4) (imm : BitVec 18) (s : State) := s.polSet d 1 fun e => wordMin (e.reg a) (imm.setWidth 64)
/-- MAX. -/
def execPolMax (d a b : BitVec 4) (s : State) := s.polSet d 1 fun e => wordMax (e.reg a) (e.reg b)
/-- MAX with an immediate, zero-extended (R88). -/
def execPolMaxImm (d a : BitVec 4) (imm : BitVec 18) (s : State) := s.polSet d 1 fun e => wordMax (e.reg a) (imm.setWidth 64)
/-- CMP. -/
def execPolCmp (d a b : BitVec 4) (cc : BitVec 3) (s : State) := s.polSet d 1 fun e => b2w (polCmp cc (e.reg a) (e.reg b))
/-- SEL. -/
def execPolSel (d a b c : BitVec 4) (s : State) := s.polSet d 1 fun e => if e.reg c ≠ 0 then e.reg a else e.reg b
/-- CNT. -/
def execPolCnt (d a : BitVec 4) (s : State) := s.polSet d 1 fun e => BitVec.ofNat 64 (popcount (e.reg a).toNat 64)
/-- BF: branches forward when the register is 0 (R350). -/
def execPolBf (a : BitVec 4) (off : BitVec 18) (s : State) :=
  s.polRun 1 fun e => { e with pc := if e.reg a = 0 then e.pc + off.toNat else e.pc + 1 }
/-- JF. -/
def execPolJf (off : BitVec 18) (s : State) := s.polRun 1 fun e => { e with pc := e.pc + off.toNat }
/-- LOOP. -/
def execPolLoop (n : BitVec 18) (s : State) :=
  s.polRun 1 fun e => { e with loops := (n.toNat, e.pc + 1) :: e.loops, pc := e.pc + 1 }
/-- ENDL. -/
def execPolEndl (s : State) :=
  s.polRun 1 fun e => match e.loops with
    | (n, st) :: t => if 1 < n then { e with loops := (n - 1, st) :: t, pc := st } else { e with loops := t, pc := e.pc + 1 }
    | [] => { e with pc := e.pc + 1 }
/-- LDV (R351); FV, EV and PV have the one row 0. -/
def execPolLdv (d a : BitVec 4) (t : BitVec 3) (f : BitVec 5) (s : State) :=
  s.polSet d 2 fun e => BitVec.ofNat 64 (viewGet e.view t.toNat (if t.toNat ≤ 1 then (e.reg a).toNat else 0) f.toNat)
/-- SCAN.MIN. -/
def execPolScanMin (d a : BitVec 4) (t : BitVec 3) (f : BitVec 5) (s : State) :=
  s.polSet d 8 fun e => scanRows (viewTable e.view t.toNat) (e.reg a) f.toNat false
/-- SCAN.MAX. -/
def execPolScanMax (d a : BitVec 4) (t : BitVec 3) (f : BitVec 5) (s : State) :=
  s.polSet d 8 fun e => scanRows (viewTable e.view t.toNat) (e.reg a) f.toNat true
/-- DEC: ends the invocation with a decision (R353). -/
def execPolDec (a b k : BitVec 4) (imm : BitVec 14) (s : State) := s.polEnd k (fun e => e.reg a) (fun e => e.reg b) imm
/-- END: KEEP with zero operands (R350). -/
def execPolEnd (s : State) := s.polEnd 0 (fun _ => 0) (fun _ => 0) 0

/-! ### Admission (R358) -/

/-- The cost of a policy instruction in sched cycles (R348). -/
def polCost : Instr → Nat
  | .polLdv _ _ _ _ | .polDec _ _ _ _ => 2
  | .polScanMin _ _ _ _ | .polScanMax _ _ _ _ => 8
  | _ => 1

/-- The reason codes 1 to 6, 10 and 11 that an instruction's word breaks by itself, given the program's last index. -/
def wordCodes (w : BitVec 32) (i last : Nat) : List Nat :=
  let op := bf w.toNat 26 6
  match polCand w with
  | none => [1]
  | some c =>
    (if (op = 0x28 || op = 0x29) && bf w.toNat 6 12 ≠ 0 then [6] else if encodePol c = w then [] else [2])
    ++ match c with
    | .polBf _ off => if off = 0 || last < i + off.toNat then [3] else []
    | .polJf off => if off = 0 || last < i + off.toNat then [3] else []
    | .polCmp _ _ _ cc => if 5 < cc.toNat then [4] else []
    | .polLoop n => if n = 0 || 64 < n.toNat then [5] else []
    | .polLdv _ a t f => (if 2 ≤ t.toNat && t.toNat ≤ 4 && a ≠ 0 then [2] else []) ++ if viewOk t f then [] else [10]
    | .polScanMin _ _ t f => if t ≤ 1#3 && viewOk t f then [] else [10]
    | .polScanMax _ _ t f => if t ≤ 1#3 && viewOk t f then [] else [10]
    | .polDec _ _ k imm => if decOk k imm then [] else [11]
    | _ => []

/-- The innermost loop of each instruction, as the index of its LOOP, and where the nesting breaks (code 7). -/
def loopScan : List (BitVec 32) → Nat → List Nat → List (Option Nat) × List Nat
  | [], _, st => ([], st)
  | w :: t, i, st =>
    match polCand w with
    | some (.polLoop _) =>
      let (a, b) := loopScan t (i + 1) (i :: st)
      (st.head? :: a, if 2 ≤ st.length then i :: b else b)
    | some .polEndl =>
      match st with
      | [] => let (a, b) := loopScan t (i + 1) []
              (none :: a, i :: b)
      | l :: st' => let (a, b) := loopScan t (i + 1) st'
                    (some l :: a, b)
    | _ => let (a, b) := loopScan t (i + 1) st
           (st.head? :: a, b)

/-- The failures of a program (R358), as index and code. -/
def programFails (ws : List (BitVec 32)) : List (Nat × Nat) :=
  let last := ws.length - 1
  let (inner, bad) := loopScan ws 0 []
  (List.range ws.length).flatMap fun i =>
    let w := ws.getD i 0
    (wordCodes w i last).map (fun c => (i, c))
    ++ (if bad.contains i then [(i, 7)] else [])
    ++ (match polCand w with
      | some (.polBf _ off) => if i + off.toNat ≤ last && inner.getD (i + off.toNat) none ≠ inner.getD i none then [(i, 8)] else []
      | some (.polJf off) => if i + off.toNat ≤ last && inner.getD (i + off.toNat) none ≠ inner.getD i none then [(i, 8)] else []
      | _ => [])
    ++ (if i = last then match polCand w with
      | some .polEnd => []
      | some (.polDec _ _ _ _) => []
      | _ => [(i, 9)] else [])

/-- CHECK of a shadow of `len` words (R358): nothing when it passes, else the index and the code of the first failure. Code
12 names the first unwritten word. -/
def checkProgram (words : List (Nat × BitVec 32)) (len : Nat) : Option (Nat × Nat) :=
  let miss := match (List.range len).find? fun i => (aget words i).isNone with
    | some i => if words.length < len then [(i, 12)] else []
    | none => []
  ((programFails ((List.range len).map fun i => (aget words i).getD 0)) ++ miss).foldl (fun b f =>
    match b with
    | none => some f
    | some g => if f.1 < g.1 || (f.1 = g.1 && f.2 < g.2) then some f else b) none

/-! ### The slot's commands (R337, R338) -/

/-- Changes a partition's policy slot. -/
def State.onSlot (s : State) (p : Nat) (f : PSlot → PSlot) : State := s.onPart p fun q => { q with slot := f q.slot }

/-- A shadow word is written: request `addr` the index, `value` the word. -/
def evPolicyShadowWrite (s : State) : State :=
  s.ctl fun s =>
  let p := s.req.part
  let sl := (s.part p).slot
  if sl.shadow = .checking then s.answer .policyBusy
  else if sl.st = .retired then s.answer .partitionBusy
  else
    (s.onSlot p fun sl => { sl with
      words := aput sl.words (s.req.addr % 512) (BitVec.ofNat 32 s.req.value)
      shadow := .loaded
      st := if sl.st = .absent then .loaded else sl.st }).answer .ok

/-- A PCMD write (R337): refused on a reserved bit or another command than the expected one, and while a check runs. -/
def State.pcmd (s : State) (cmd : Nat) (f : State → State) : State :=
  let v := s.req.value
  if bf v 0 4 ≠ cmd || bf v 26 38 ≠ 0 || bf v 4 12 ≠ 0 then s.answer .policyCmd
  else if (s.part s.req.part).slot.shadow = .checking then s.answer .policyBusy
  else f s

/-- CHECK: the check starts. -/
def evPolicyCheck (s : State) : State :=
  s.ctl fun s => s.pcmd 1 fun s =>
    let p := s.req.part
    let sl := (s.part p).slot
    if sl.st ≠ .retired && (sl.shadow = .loaded || sl.shadow = .checked || sl.shadow = .rejected) then
      (s.onSlot p fun sl => { sl with shadow := .checking, slen := bf s.req.value 16 10 }).answer .ok
    else s.answer .partitionBusy

/-- The check ends. -/
def evPolicyCheckDone (s : State) : State :=
  let p := s.req.part
  let sl := (s.part p).slot
  if sl.shadow ≠ .checking then s
  else
    match checkProgram sl.words (sl.slen + 1) with
    | some (i, c) => s.onSlot p fun sl => { sl with shadow := .rejected, cfail := c, cidx := i }
    | none => s.onSlot p fun sl => { sl with shadow := .checked, st := if sl.st = .loaded then .checked else sl.st }

/-- SWAP: the checked shadow becomes the active program. -/
def evPolicySwap (s : State) : State :=
  s.ctl fun s => s.pcmd 2 fun s =>
    let p := s.req.part
    let sl := (s.part p).slot
    if sl.shadow ≠ .checked then s.answer .policyUnchecked
    else if sl.st = .checked || sl.st = .active || sl.st = .disabled then
      (s.onSlot p fun sl => { sl with
        st := .active, shadow := .empty, active := (List.range (sl.slen + 1)).map fun i => (aget sl.words i).getD 0
        alen := sl.slen, words := [], ovrn := 0, ring := [] }).answer .ok
    else s.answer .partitionBusy

/-- DISABLE. -/
def evPolicyDisable (s : State) : State :=
  s.ctl fun s => s.pcmd 3 fun s =>
    if (s.part s.req.part).slot.st = .active then
      ((s.onSlot s.req.part fun sl => { sl with st := .disabled }).raiseVector s.req.part 1 none).answer .ok
    else s.answer .partitionBusy

/-- RETIRE: both programs are discarded. -/
def evPolicyRetire (s : State) : State :=
  s.ctl fun s => s.pcmd 4 fun s =>
    let p := s.req.part
    if (s.part p).slot.st ≠ .retired && !s.partBusy p then
      (s.onSlot p fun sl => { sl with st := .retired, shadow := .empty, active := [], words := [] }).answer .ok
    else s.answer .partitionBusy

/-- SCRUB. -/
def evPolicyScrub (s : State) : State :=
  s.ctl fun s => s.pcmd 5 fun s =>
    if (s.part s.req.part).slot.st = .retired then (s.onSlot s.req.part fun _ => PSlot.reset).answer .ok
    else s.answer .partitionBusy

/-! ### Invocations (R339, R341, R359) -/

/-- The rank of a sluice among a partition's pending invocations (R339). -/
def Sluice.rank : Sluice → Nat
  | .fault => 0 | .preempt => 1 | .complete => 2 | .steal => 3 | .dispatch => 4

/-- The position of a partition's next invocation among its pending ones: first kind, then raise order. -/
def Partition.nextIdx (q : Partition) : Option Nat :=
  (List.range q.sluices.length).foldl (fun (b : Option (Nat × Nat)) i =>
    match q.sluices[i]? with
    | none => b
    | some r => match b with
      | some (_, k) => if r.sl.rank < k then some (i, r.sl.rank) else b
      | none => some (i, r.sl.rank)) none |>.map fun e => e.1

/-- A partition's next invocation, when one may start (R341). -/
def Partition.next (q : Partition) : Option (Nat × SReq) :=
  if q.inFlight || q.decided.isSome then none
  else q.nextIdx.bind fun i => (q.sluices[i]?).map fun r => (i, r)

/-- The next logged decision of a RECOVERING context (R362). -/
def State.nextRecord (s : State) (x : Nat) : Option LogEntry :=
  let k := s.ctx x
  if k.st = .recovering && !k.replayLive then k.replay.find? fun e => e.kind = 5 else none

/-- The low and the high word of a logged decision record (R361). -/
def LogEntry.decision (e : LogEntry) : Nat × Nat := (natOfBytes (e.payload.take 8), natOfBytes (e.payload.drop 8))

/-- Whether a context's next logged decision is for a STEAL sluice of a core: it keeps, or steals for the core from a list whose newest entry
is the context's. -/
def State.stealsFor (s : State) (p i c : Nat) : Bool :=
  match s.nextRecord (16 * p + i) with
  | none => false
  | some e =>
    let d := e.decision
    bf d.1 4 3 = 1 && (bf d.1 0 4 = 0 || d.2.testBit c && match (s.core (bf d.1 48 6)).newest with
      | some u => u.ctx.toNat = i
      | none => false)

/-- The context whose logged decisions a sluice takes (R121, R332, R362): the one concerned; at DISPATCH that of the first head by
priority; at STEAL one whose next record steals for the core. -/
def State.sluiceContext (s : State) (p : Nat) (r : SReq) : Option Nat :=
  match r.sl with
  | .dispatch => ((s.part p).topQueue.bind fun n => (s.part p).head n).map fun t => t.slotOf p
  | .steal => ((List.range 16).find? fun i => s.stealsFor p i r.core).map fun i => 16 * p + i
  | _ => r.ctx.map fun x => 16 * p + x.toNat

/-- The logged decision that a sluice meets, with its context (R362). -/
def State.loggedDecision (s : State) (p : Nat) (r : SReq) : Option (Nat × LogEntry) :=
  (s.sluiceContext p r).bind fun x => (s.nextRecord x).map fun e => (x, e)

/-- The partition whose next invocation has waited longest, the lowest number on a tie (R341). -/
def State.nextPartition (s : State) (engineFree : Bool) : Option Nat :=
  ((List.range 16).foldl (fun (b : Option (Nat × Nat)) p =>
    match (s.part p).next with
    | none => b
    | some (_, r) =>
      if ((s.part p).slot.st = .active && !engineFree) || (s.loggedDecision p r).isSome then b
      else match b with
        | some (_, t) => if r.raised < t then some (p, r.raised) else b
        | none => some (p, r.raised)) none).map fun e => e.1

/-- Takes an invocation out of a partition's pending ones. -/
def State.takeSluice (s : State) (p i : Nat) : State :=
  s.onPart p fun q => { q with sluices := q.sluices.eraseIdx i, inFlight := true }

/-- A free engine takes the partition that has waited longest; where the slot is not ACTIVE the default policy decides at once
(R338, R341). -/
def evPolicyInvocationStart (s : State) : State :=
  let free := (List.range 4).find? fun e => ((s.engines[e]?).getD none).isNone
  match s.nextPartition free.isSome with
  | none => s
  | some p =>
    match (s.part p).next with
    | none => s
    | some (i, r) =>
      let s := s.takeSluice p i
      if (s.part p).slot.st = .active then
        match free with
        | none => s
        | some e =>
          let s := s.onSlot p fun sl => { sl with invc := sl.invc + 1 }
          let eng : Engine := ⟨p, r, (s.part p).slot.active, s.view p r, Vector.replicate 16 0, 0, 0, []⟩
          { s with engines := s.engines.setIfInBounds e (some eng) }
      else s.decideDefault p r false false

/-- Whether the engine's next instruction would pass its budget of 512 sched cycles (R359). -/
def Engine.overBudget (e : Engine) : Bool :=
  match (e.prog[e.pc]?).bind decodePol with
  | some i => 512 < e.cost + polCost i
  | none => false

/-- An invocation that would pass its budget is abandoned (R359): request `n` the engine. -/
def evPolicyOverrun (s : State) : State :=
  let s := { s with engineCur := s.req.n }
  match s.engine with
  | none => s
  | some e =>
    if !e.overBudget then s
    else
      let p := e.part
      let s := s.setEngine none
      let s := s.onSlot p fun sl => { sl with ovrn := min 15 (sl.ovrn + 1), ring := (sl.invc :: sl.ring).take 16 }
      let sl := (s.part p).slot
      let s := if sl.st = .active && sl.ring.length = 16
            && (sl.ring.headD 0 - sl.ring.getLastD 0).toNat < 2 ^ 20 then
          (s.onSlot p fun sl => { sl with st := .disabled }).raiseVector p 1 none
        else s
      s.decideDefault p e.req true false

/-- POLICY_SHADOW_WRITE. -/
def execPolicyShadowWrite (s : State) : Host.Outcome State Fault Refusal := .next (evPolicyShadowWrite s)
/-- POLICY_CHECK. -/
def execPolicyCheck (s : State) : Host.Outcome State Fault Refusal := .next (evPolicyCheck s)
/-- POLICY_CHECK_DONE. -/
def execPolicyCheckDone (s : State) : Host.Outcome State Fault Refusal := .next (evPolicyCheckDone s)
/-- POLICY_SWAP. -/
def execPolicySwap (s : State) : Host.Outcome State Fault Refusal := .next (evPolicySwap s)
/-- POLICY_DISABLE. -/
def execPolicyDisable (s : State) : Host.Outcome State Fault Refusal := .next (evPolicyDisable s)
/-- POLICY_RETIRE. -/
def execPolicyRetire (s : State) : Host.Outcome State Fault Refusal := .next (evPolicyRetire s)
/-- POLICY_SCRUB. -/
def execPolicyScrub (s : State) : Host.Outcome State Fault Refusal := .next (evPolicyScrub s)
/-- POLICY_INVOCATION_START. -/
def execPolicyInvocationStart (s : State) : Host.Outcome State Fault Refusal := .next (evPolicyInvocationStart s)
/-- POLICY_OVERRUN. -/
def execPolicyOverrun (s : State) : Host.Outcome State Fault Refusal := .next (evPolicyOverrun s)

end Sys2Proof.Machine
end

