-- ==== Sys2Proof/Machine/Numbers.lean ====
section
/-!
DEFINITION. The number formats (R26 to R42): exact values, IEEE rounding and arithmetic, T8, and integers.
An exact magnitude is `m * 2^e`, with a sticky mark for a nonzero rest below its last bit.
-/

namespace Sys2Proof.Machine

/-- The four rounding modes (R29). -/
inductive RMode where
  | rne | rtz | rdn | rup
deriving DecidableEq, Repr

/-- The 2-bit codes of the rounding modes (R29). -/
def RMode.ofBits (b : BitVec 2) : RMode :=
  if b = 0#2 then .rne else if b = 1#2 then .rtz else if b = 2#2 then .rdn else .rup

/-- The number formats (R26). -/
inductive Fmt where
  | i4 | u4 | i8 | u8 | i16 | u16 | i32 | u32 | fp16 | bf16 | fp32 | t8 | sli16 | sli32 | i64
deriving DecidableEq, Repr

/-- A format's code (R26). -/
def Fmt.code : Fmt → Nat
  | .i4 => 0 | .u4 => 1 | .i8 => 2 | .u8 => 3 | .i16 => 4 | .u16 => 5 | .i32 => 6 | .u32 => 7
  | .fp16 => 8 | .bf16 => 9 | .fp32 => 10 | .t8 => 11 | .sli16 => 12 | .sli32 => 13 | .i64 => 14

/-- The format of a code (R26); a reserved code names none. -/
def Fmt.ofCode : Nat → Option Fmt
  | 0 => some .i4 | 1 => some .u4 | 2 => some .i8 | 3 => some .u8 | 4 => some .i16 | 5 => some .u16
  | 6 => some .i32 | 7 => some .u32 | 8 => some .fp16 | 9 => some .bf16 | 10 => some .fp32 | 11 => some .t8
  | 12 => some .sli16 | 13 => some .sli32 | 14 => some .i64 | _ => none

/-- A format's width in bits (R26). -/
def Fmt.width : Fmt → Nat
  | .i4 | .u4 => 4
  | .i8 | .u8 | .t8 => 8
  | .i16 | .u16 | .fp16 | .bf16 | .sli16 => 16
  | .i32 | .u32 | .fp32 | .sli32 => 32
  | .i64 => 64

/-- Integer formats (R27). -/
def Fmt.isInt : Fmt → Bool
  | .i4 | .u4 | .i8 | .u8 | .i16 | .u16 | .i32 | .u32 | .i64 => true
  | _ => false

/-- Signed integer formats (R27). -/
def Fmt.signed : Fmt → Bool
  | .i4 | .i8 | .i16 | .i32 | .i64 => true
  | _ => false

/-- IEEE formats (R28). -/
def Fmt.isIeee : Fmt → Bool
  | .fp16 | .bf16 | .fp32 => true
  | _ => false

/-- Symmetric level-index formats (R43). -/
def Fmt.isSli : Fmt → Bool
  | .sli16 | .sli32 => true
  | _ => false

/-- A result and the flags its computation raises. -/
structure Res where
  bits : Nat
  flags : Flags
deriving DecidableEq, Repr

/-- An exact nonnegative real: `m * 2^e`, plus a rest strictly between 0 and `2^e` when `st`. -/
structure Mag where
  m : Nat
  e : Int
  st : Bool
deriving DecidableEq, Repr

/-- An IEEE format's parameters: fraction bits and exponent bits (R28). -/
structure Ieee where
  fb : Nat
  eb : Nat
deriving DecidableEq, Repr

/-- FP32 (R28). -/
def ieee32 : Ieee := ⟨23, 8⟩
/-- FP16 (R28). -/
def ieee16 : Ieee := ⟨10, 5⟩
/-- BF16 (R28). -/
def ieeeB16 : Ieee := ⟨7, 8⟩

/-- The parameters of an IEEE format. -/
def Fmt.ieee : Fmt → Ieee
  | .fp16 => ieee16
  | .bf16 => ieeeB16
  | _ => ieee32

/-- The exponent bias (R28). -/
def Ieee.bias (f : Ieee) : Nat := 2 ^ (f.eb - 1) - 1
/-- The sign bit of a pattern (R28). -/
def Ieee.signBit (f : Ieee) (neg : Bool) : Nat := if neg then 2 ^ (f.fb + f.eb) else 0
/-- The pattern of +∞ (R28). -/
def Ieee.infPat (f : Ieee) : Nat := (2 ^ f.eb - 1) * 2 ^ f.fb
/-- The default NaN: sign 0, quiet bit set, payload zero (R28). -/
def Ieee.defNan (f : Ieee) : Nat := f.infPat + 2 ^ (f.fb - 1)
/-- The pattern of an infinity. -/
def Ieee.inf (f : Ieee) (neg : Bool) : Nat := f.signBit neg + f.infPat
/-- The largest finite magnitude with a sign (R28). -/
def Ieee.largest (f : Ieee) (neg : Bool) : Nat := f.signBit neg + (f.infPat - 1)

/-- The value that a pattern of some format holds. A NaN keeps its fraction field and that field's width. -/
inductive Val where
  | zero (neg : Bool)
  | fin (neg : Bool) (m : Nat) (e : Int)
  | inf (neg : Bool)
  | nan (neg quiet : Bool) (frac fb : Nat)
  | nar
  | nav
  | sli (neg : Bool) (k : Int) (ib : Nat)
deriving DecidableEq, Repr

/-- The value of an IEEE pattern (R28). -/
def Ieee.val (f : Ieee) (x : Nat) : Val :=
  let neg := x.testBit (f.fb + f.eb)
  let ex := (x >>> f.fb) % 2 ^ f.eb
  let fr := x % 2 ^ f.fb
  if ex = 2 ^ f.eb - 1 then
    if fr = 0 then .inf neg else .nan neg (fr.testBit (f.fb - 1)) fr f.fb
  else if ex = 0 then
    if fr = 0 then .zero neg else .fin neg fr (1 - (f.bias : Int) - f.fb)
  else .fin neg (2 ^ f.fb + fr) ((ex : Int) - f.bias - f.fb)

/-- A subnormal input reads as a zero of its sign when the agent flushes (R31). -/
def Ieee.valFtz (f : Ieee) (ftz : Bool) (x : Nat) : Val :=
  if ftz ∧ (x >>> f.fb) % 2 ^ f.eb = 0 then .zero (x.testBit (f.fb + f.eb)) else f.val x

/-- A NaN's pattern in a format, quieted: sign and the leading payload bits that fit are kept (R33). -/
def Ieee.quiet (f : Ieee) (neg : Bool) (frac fb : Nat) : Nat :=
  let fr := if f.fb ≤ fb then frac >>> (fb - f.fb) else frac <<< (f.fb - fb)
  f.signBit neg + f.infPat + (fr ||| 2 ^ (f.fb - 1))

/-- One magnitude cut to a multiple of `2^q`: the multiple rounded under the mode, and whether it is inexact (R29). -/
def cutMag (rm : RMode) (neg : Bool) (v : Mag) (q : Int) : Nat × Bool :=
  let s := q - v.e
  if s ≤ 0 then
    let k := v.m <<< (-s).toNat
    (if v.st ∧ ((rm = .rup ∧ ¬ neg) ∨ (rm = .rdn ∧ neg)) then k + 1 else k, v.st)
  else
    let n := s.toNat
    let k := v.m >>> n
    let r := v.m % 2 ^ n
    let half := 2 ^ (n - 1)
    let inexact := r ≠ 0 ∨ v.st
    let up :=
      match rm with
      | .rne => half < r ∨ (r = half ∧ (v.st ∨ k % 2 = 1))
      | .rtz => False
      | .rdn => inexact ∧ neg
      | .rup => inexact ∧ ¬ neg
    have : Decidable up := by
      dsimp only [up, inexact]
      cases rm <;> infer_instance
    (if up then k + 1 else k, decide inexact)

/-- `round_ieee` (R32) with its flags (R36) and the flush of results (R31). Tininess is detected after rounding, as IEEE
754 defines it: the value rounded as though the exponent range were unbounded lies below the smallest normal. -/
def Ieee.round (f : Ieee) (rm : RMode) (ftz neg : Bool) (v : Mag) : Res :=
  if v.m = 0 then ⟨f.signBit neg, if v.st then fUF ||| fNX else 0#10⟩
  else
    let ex : Int := v.e + v.m.log2
    let emin : Int := 1 - (f.bias : Int)
    let q := max ex emin - f.fb
    let (r, nx) := cutMag rm neg v q
    let tiny := decide (ex < emin) &&
      !(decide (ex = emin - 1) && decide ((cutMag rm neg v (ex - f.fb)).1 = 2 ^ (f.fb + 1)))
    if r < 2 ^ f.fb then
      if ftz then ⟨f.signBit neg, fUF ||| fNX⟩
      else ⟨f.signBit neg + r, fIf nx fNX ||| fIf (nx && tiny) fUF⟩
    else
      let bits := ((max ex emin + f.bias - 1).toNat) * 2 ^ f.fb + r
      if f.infPat ≤ bits then
        if rm = .rtz ∨ (rm = .rdn ∧ ¬ neg) ∨ (rm = .rup ∧ neg) then ⟨f.largest neg, fOF ||| fNX⟩
        else ⟨f.inf neg, fOF ||| fNX ||| fNF⟩
      else ⟨f.signBit neg + bits, fIf nx fNX ||| fIf (nx && tiny) fUF⟩

/-- A signalling NaN. -/
def Val.isSnan : Val → Bool
  | .nan _ q _ _ => !q
  | _ => false

/-- A NaN. -/
def Val.isNan : Val → Bool
  | .nan .. => true
  | _ => false

/-- A zero. -/
def Val.isZero : Val → Bool
  | .zero _ => true
  | _ => false

/-- An infinity. -/
def Val.isInf : Val → Bool
  | .inf _ => true
  | _ => false

/-- The sign of a value. -/
def Val.neg : Val → Bool
  | .zero n | .fin n _ _ | .inf n | .nan n _ _ _ | .sli n _ _ => n
  | .nar | .nav => false

/-- A finite value as a signed multiple of a power of two. -/
def Val.dyad : Val → Int × Int
  | .fin n m e => (if n then -(m : Int) else m, e)
  | _ => (0, 0)

/-- The value with its sign turned. -/
def Val.negate : Val → Val
  | .zero n => .zero (!n)
  | .fin n m e => .fin (!n) m e
  | .inf n => .inf (!n)
  | v => v

/-- A NaN result in a format: the operand quieted (R33). -/
def Ieee.nanOf (f : Ieee) : Val → Nat
  | .nan n _ fr fb => f.quiet n fr fb
  | _ => f.defNan

/-- The first NaN of an operand list, if any: the operand that a NaN result copies (R33, R34). -/
def firstNan : List Val → Option Val
  | [] => none
  | v :: t => if v.isNan then some v else firstNan t

/-- A NaN result from operands in their order of choice: the quieted operand or the default NaN, with NF, and INV when
an operand signals or the operation itself is invalid (R33). -/
def Ieee.nanRes (f : Ieee) (order : List Val) (invalid : Bool) : Res :=
  match firstNan order with
  | some v => ⟨f.nanOf v, fNF ||| fIf (order.any Val.isSnan) fINV⟩
  | none => ⟨f.defNan, fNF ||| fIf invalid fINV⟩

/-- The exact sum of two dyadic numbers. -/
def dyadAdd (a b : Int × Int) : Int × Int :=
  if a.2 ≤ b.2 then (a.1 + b.1 * 2 ^ (b.2 - a.2).toNat, a.2)
  else (a.1 * 2 ^ (a.2 - b.2).toNat + b.1, b.2)

/-- The rounded value of an exact dyadic number; an exact zero takes the sign given. -/
def Ieee.roundDyad (f : Ieee) (rm : RMode) (ftz : Bool) (zneg : Bool) (d : Int × Int) : Res :=
  if d.1 = 0 then ⟨f.signBit zneg, 0#10⟩
  else f.round rm ftz (d.1 < 0) ⟨d.1.natAbs, d.2, false⟩

/-- The sum of two non-NaN values under IEEE 754, with the NaN order of R33 for the others. -/
def Ieee.addV (f : Ieee) (rm : RMode) (ftz : Bool) (a b : Val) : Res :=
  if a.isNan || b.isNan then f.nanRes [a, b] false
  else if a.isInf && b.isInf && (a.neg != b.neg) then f.nanRes [] true
  else if a.isInf then ⟨f.inf a.neg, fNF⟩
  else if b.isInf then ⟨f.inf b.neg, fNF⟩
  else
    let zneg := if a.isZero && b.isZero && (a.neg == b.neg) then a.neg else decide (rm = .rdn)
    f.roundDyad rm ftz zneg (dyadAdd a.dyad b.dyad)

/-- Addition (R28, R33). -/
def Ieee.add (f : Ieee) (rm : RMode) (ftz : Bool) (a b : Nat) : Res :=
  f.addV rm ftz (f.valFtz ftz a) (f.valFtz ftz b)

/-- Subtraction: a NaN operand b is passed with its own sign (R33). -/
def Ieee.sub (f : Ieee) (rm : RMode) (ftz : Bool) (a b : Nat) : Res :=
  f.addV rm ftz (f.valFtz ftz a) (f.valFtz ftz b).negate

/-- The exact product of two finite values. -/
def mulDyad (a b : Val) : Int × Int := (a.dyad.1 * b.dyad.1, a.dyad.2 + b.dyad.2)

/-- Multiplication (R28, R33). -/
def Ieee.mul (f : Ieee) (rm : RMode) (ftz : Bool) (a b : Nat) : Res :=
  let x := f.valFtz ftz a
  let y := f.valFtz ftz b
  let neg := x.neg != y.neg
  if x.isNan || y.isNan then f.nanRes [x, y] false
  else if (x.isInf && y.isZero) || (x.isZero && y.isInf) then f.nanRes [] true
  else if x.isInf || y.isInf then ⟨f.inf neg, fNF⟩
  else f.roundDyad rm ftz neg (mulDyad x y)

/-- FFMA with one rounding, and its NaN order c, a, b (R34). -/
def Ieee.fma (f : Ieee) (rm : RMode) (ftz : Bool) (a b c : Nat) : Res :=
  let x := f.valFtz ftz a
  let y := f.valFtz ftz b
  let z := f.valFtz ftz c
  let pneg := x.neg != y.neg
  if x.isNan || y.isNan || z.isNan then f.nanRes [z, x, y] false
  else if (x.isInf && y.isZero) || (x.isZero && y.isInf) then f.nanRes [] true
  else if x.isInf || y.isInf then
    if z.isInf && (z.neg != pneg) then f.nanRes [] true else ⟨f.inf pneg, fNF⟩
  else if z.isInf then ⟨f.inf z.neg, fNF⟩
  else
    let pz := x.isZero || y.isZero
    let zneg := if pz && z.isZero && (pneg == z.neg) then pneg else decide (rm = .rdn)
    f.roundDyad rm ftz zneg (dyadAdd (mulDyad x y) z.dyad)

/-- How two non-NaN values compare: less, equal or greater. Zeros of either sign are equal. -/
def Val.cmp (a b : Val) : Ordering :=
  match a, b with
  | .inf n, .inf m => if n == m then .eq else if n then .lt else .gt
  | .inf n, _ => if n then .lt else .gt
  | _, .inf m => if m then .gt else .lt
  | _, _ =>
    let d := dyadAdd a.dyad (-b.dyad.1, b.dyad.2)
    if d.1 < 0 then .lt else if d.1 = 0 then .eq else .gt

/-! ### T8 (R38 to R41) -/

/-- The marker classes of T8: exponent width, fraction width and bias by marker position (R38). -/
def t8Class : Nat → Nat × Nat × Int
  | 0 => (2, 4, -2)
  | 1 => (2, 3, 2)
  | 2 => (2, 2, -6)
  | 3 => (2, 1, 6)
  | 4 => (2, 0, -10)
  | 5 => (1, 0, 10)
  | _ => (0, 0, -11)

/-- The value of a T8 code (R39). -/
def t8Val (c : Nat) : Val :=
  let m := c % 128
  let s := c.testBit 7
  if m = 0 then (if s then .nar else .zero false)
  else
    let k := 6 - m.log2
    let w := 6 - k
    let (_, wf, bias) := t8Class k
    let body := m % 2 ^ w
    let e := body >>> wf
    let fr := body % 2 ^ wf
    .fin s (2 ^ wf + fr) ((e : Int) + bias - wf)

/-- The marker position of the class whose exponent range holds `E` (R38). -/
def t8Marker (E : Int) : Nat :=
  if E = -11 then 6
  else if E ≤ -7 then 4
  else if E ≤ -3 then 2
  else if E ≤ 1 then 0
  else if E ≤ 5 then 1
  else if E ≤ 9 then 3
  else 5

/-- The T8 code without sign of exponent `E` and fraction `F` (R38). -/
def t8Code (E : Int) (F : Nat) : Nat :=
  let k := t8Marker E
  let (_, wf, bias) := t8Class k
  2 ^ (6 - k) + ((E - bias).toNat <<< wf) + F

/-- `round_t8` (R40). -/
def roundT8 (neg : Bool) (v : Mag) : Res :=
  let sgn := if neg then 128 else 0
  if v.m = 0 then
    if v.st then ⟨sgn + 1, fUF ||| fNX⟩ else ⟨0, 0#10⟩
  else
    let E : Int := v.e + v.m.log2
    if E < -11 then ⟨sgn + 1, fUF ||| fNX⟩
    else if 12 ≤ E ∨ (E = 11 ∧ (v.m ≠ 2 ^ v.m.log2 ∨ v.st)) then ⟨sgn + 3, fSAT ||| fNX⟩
    else
      let wf := (t8Class (t8Marker E)).2.1
      let q := E - wf
      let s := (q - v.e)
      let lo := if s ≤ 0 then v.m <<< (-s).toNat else v.m >>> s.toNat
      let r := if s ≤ 0 then 0 else v.m % 2 ^ s.toNat
      let half := if s ≤ 0 then 1 else 2 ^ (s.toNat - 1)
      let nx := r ≠ 0 ∨ v.st
      let F := lo - 2 ^ wf
      let hiE := if F + 1 = 2 ^ wf then E + 1 else E
      let hiF := if F + 1 = 2 ^ wf then 0 else F + 1
      let tieUp := if F % 2 = hiF % 2 then decide (E % 2 ≠ 0) else decide (F % 2 = 1)
      let up := decide (0 < s) && (decide (half < r) || (decide (r = half) && (v.st || tieUp)))
      ⟨sgn + (if up then t8Code hiE hiF else t8Code E F), fIf (decide nx) fNX⟩

/-! ### Integers (R27) -/

/-- A w-bit pattern read as a signed number. -/
def sx (w x : Nat) : Int := if 2 ^ (w - 1) ≤ x % 2 ^ w then ((x % 2 ^ w : Nat) : Int) - 2 ^ w else (x % 2 ^ w : Nat)

/-- An integer's w-bit pattern (`wrap`, R32). -/
def wrap (w : Nat) (x : Int) : Nat := (x % (2 ^ w : Int)).toNat

/-- The value of an integer pattern. -/
def intOf (f : Fmt) (x : Nat) : Int := if f.signed then sx f.width x else (x % 2 ^ f.width : Nat)

/-- The smallest value of an integer format. -/
def Fmt.imin (f : Fmt) : Int := if f.signed then -(2 ^ (f.width - 1) : Int) else 0
/-- The largest value of an integer format. -/
def Fmt.imax (f : Fmt) : Int := if f.signed then 2 ^ (f.width - 1) - 1 else 2 ^ f.width - 1

/-- An integer clamped to a format's range; true when it had to be (`saturate`, R32). -/
def satInt (f : Fmt) (x : Int) : Nat × Bool :=
  if x < f.imin then (wrap f.width f.imin, true)
  else if f.imax < x then (wrap f.width f.imax, true)
  else (wrap f.width x, false)

/-- The value of an integer as a `Val`. -/
def valOfInt (x : Int) : Val := if x = 0 then .zero false else .fin (x < 0) x.natAbs 0

/-- An exact magnitude into an integer format (R50): rounded under the mode, INV beyond range, NX when inexact. -/
def roundInt (f : Fmt) (rm : RMode) (neg : Bool) (v : Mag) : Res :=
  let (r, nx) := cutMag rm neg v 0
  let x : Int := if neg then -(r : Int) else r
  if x < f.imin then ⟨wrap f.width f.imin, fINV⟩
  else if f.imax < x then ⟨wrap f.width f.imax, fINV⟩
  else ⟨wrap f.width x, fIf nx fNX⟩

end Sys2Proof.Machine
end

