-- ==== Sys2Proof/Machine/Translate.lean ====
section
/-!
DEFINITION. Tensors, page tables, page states, access checks, the layout units' copies and translation invalidates (R266 to
R281).
-/

namespace Sys2Proof.Machine

/-! ### Tensor addresses and TLRs -/

/-- The tensor number of a tensor virtual address. -/
def tensorOf (a : Word) : Nat := a.toNat / 2 ^ 48
/-- The byte offset of a tensor virtual address. -/
def offsetOf (a : Word) : Nat := a.toNat % 2 ^ 48
/-- The address of a tensor's byte. -/
def tensorAddr (t off : Nat) : Word := BitVec.ofNat 64 (t * 2 ^ 48 + off)

/-- The width of an element format code; 0 for no format. -/
def fmtWidth (c : Nat) : Nat := ((Fmt.ofCode c).map Fmt.width).getD 0
/-- A TLR's format code. -/
def tlrFmt (r : BitVec 512) : Nat := tf r 58 5
/-- A TLR's rank less one. -/
def tlrRank (r : BitVec 512) : Nat := tf r 55 3
/-- The page size in bytes. -/
def tlrPage (r : BitVec 512) : Nat :=
  match tf r 53 2 with | 0 => 0x1000 | 1 => 0x10000 | 2 => 0x200000 | _ => 0x2000000
/-- EXTENT of a dimension. -/
def tlrExtent (r : BitVec 512) (d : Nat) : Nat := tf r (128 + 32 * d) 32
/-- STRIDE of a dimension. -/
def tlrStride (r : BitVec 512) (d : Nat) : Nat := tf r (288 + 32 * d) 32
/-- Whether dimension 0 is stored 2:4-compressed. -/
def tlrSp (r : BitVec 512) : Bool := tf r 52 1 = 1
/-- The stored extent of a dimension (R267). -/
def storedExtent (r : BitVec 512) (d : Nat) : Nat := if d = 0 && tlrSp r then tlrExtent r 0 / 2 else tlrExtent r d
/-- The element count that the strides span (R267). -/
def tlrElems (r : BitVec 512) : Nat :=
  (List.range (tlrRank r + 1)).foldl (fun e d => e + (storedExtent r d - 1) * tlrStride r d) 1
/-- The span in bytes (R267). -/
def tlrSpan (r : BitVec 512) : Nat := (tlrElems r * fmtWidth (tlrFmt r) + 7) / 8
/-- The page count (R267). -/
def tlrPages (r : BitVec 512) : Nat := (tlrSpan r + tlrPage r - 1) / tlrPage r

/-- A valid TLR (R268). -/
def tlrValid (q : Partition) (r : BitVec 512) : Bool :=
  let root := BitVec.ofNat 64 (tf r 64 64)
  tf r 63 1 = 1 && tlrFmt r ≤ 0x0D && tlrRank r ≤ 4
  && (List.range 5).all (fun d => if d ≤ tlrRank r then 1 ≤ tlrExtent r d else tlrExtent r d = 0 && tlrStride r d = 0)
  && tf r 448 64 = 0 && tf r 48 3 = 0 && (!tlrSp r || tlrExtent r 0 % 4 = 0)
  && tlrSpan r ≤ 2 ^ 48 && tlrPages r ≤ 2 ^ 24
  && bf root.toNat 63 1 = 0 && bf root.toNat 40 21 = 0 && baseHome root ≤ 1 && q.inPolder (baseHome root) (baseFrame root)

/-- Where a tensor's TLR lies: home and byte address. -/
def Context.tlrPlace (k : Context) (n : Nat) : Nat × Nat := (baseHome k.ttab, baseFrame k.ttab * 4096 + 64 * n)

/-- The TLR of a tensor as a layout unit reads it (R268, R275 step 3): its own copy, else the tensor table's record. -/
def State.tlr (s : State) (c : Option Nat) (x n : Nat) : Except FKind (BitVec 512) :=
  if n = 0 then .error .tensorInvalid
  else
    match c.bind fun c => (s.core c).tlrs.find? fun e => e.ctx = x && e.tensor = n with
    | some e => .ok e.tlr
    | none =>
      let (h, a) := (s.ctx x).tlrPlace n
      if !(s.partOf x).inPolder h (a / 4096) then .error .polderFault
      else
        let r := BitVec.ofNat 512 (s.homeNat h a 64)
        if tlrValid (s.partOf x) r then .ok r else .error .tensorInvalid

/-! ### Page tables -/

/-- The leaf entry of a page (R269): where it lies and its value; none where no directory entry covers the page. -/
def State.leaf (s : State) (x : Nat) (r : BitVec 512) (page : Nat) : Except FKind (Option (Nat × Nat × Word)) :=
  let q := s.partOf x
  let root := BitVec.ofNat 64 (tf r 64 64)
  let h := baseHome root
  let entry (h a : Nat) : Except FKind (Option (Nat × Nat × Word)) :=
    if q.inPolder h (a / 4096) then .ok (some (h, a, BitVec.ofNat 64 (s.homeNat h a 8))) else .error .polderFault
  if tlrPages r ≤ 4096 then entry h (baseFrame root * 4096 + 8 * page)
  else
    match entry h (baseFrame root * 4096 + 8 * (page / 4096)) with
    | .ok (some (_, _, d)) =>
      if !d.getLsbD 63 then .ok none
      else if bf d.toNat 40 21 ≠ 0 || 1 < baseHome d then .error .tableInvalid
      else entry (baseHome d) (baseFrame d * 4096 + 8 * (page % 4096))
    | o => o

/-- Fields of a leaf entry (R270). -/
def leafV (e : Word) : Bool := e.getLsbD 63
/-- VST of a leaf entry. -/
def leafVst (e : Word) : Nat := bf e.toNat 40 3
/-- Whether a leaf entry is well formed (R270), for a page of P bytes. -/
def leafOk (e : Word) (P : Nat) : Bool :=
  let h := baseHome e
  if leafV e then
    leafVst e = 0 && (h = 2 || (bf e.toNat 49 12 = 0 && bf e.toNat 48 1 = 0 && baseFrame e % (P / 4096) = 0))
  else leafVst e ≤ 2

/-- The leaf entry that a layout unit uses: its TLB copy, else the page table's (R280). -/
def State.entryFor (s : State) (c : Option Nat) (x n : Nat) (r : BitVec 512) (page : Nat) :
    Except FKind (Option (Nat × Nat × Word)) :=
  match c.bind fun c => (s.core c).tlb.find? fun e => e.ctx = x && e.tensor = n && e.page = page with
  | some e => .ok (some (e.ehome, e.eaddr, e.entry))
  | none => s.leaf x r page

/-- Whether a page is LOCKED (R272). -/
def State.pageLocked (s : State) (x : Nat) (r : BitVec 512) (e : Word) : Bool :=
  leafV e && (e.getLsbD 43 || (tf r 51 1 = 1 && (s.ctx x).active))

/-- Whether an entry permits a kind of access (R276). -/
def permits (k : AKind) (e : Word) : Bool :=
  let h := baseHome e
  let rd := e.getLsbD 45
  let w := e.getLsbD 47
  match k with
  | .read => rd
  | .write => w
  | .atomic => rd && w && h ≠ 3 && (h ≠ 2 || e.getLsbD 48)
  | .fetch => e.getLsbD 46 && h ≤ 1
  | .front => true

/-- The key of a peer page (R281): 0 where there is none. -/
def State.pageKey (s : State) (x : Nat) (e : Word) : Nat :=
  let k := (s.ctx x).keys
  if baseSet k then s.homeNat (baseHome k) (baseFrame k * 4096 + 4 * bf e.toNat 28 12) 4 else 0

/-- The key under which a layout unit sends a request to a peer page: its copy's, else the key table's (R281). -/
def State.keyFor (s : State) (c : Option Nat) (x n page : Nat) (e : Word) : Nat :=
  match c.bind fun c => (s.core c).tlb.find? fun t => t.ctx = x && t.tensor = n && t.page = page with
  | some t => t.key
  | none => s.pageKey x e

/-- One access of n bytes within one page (R275 step 5): page state (R272), permissions (R276), key (R281), polders (R100). -/
def State.translate (s : State) (c : Option Nat) (x : Nat) (r : BitVec 512) (a : Word) (n : Nat) (k : AKind) : TOut :=
  let P := tlrPage r
  let page := offsetOf a / P
  let o := offsetOf a % P
  match s.entryFor c x (tensorOf a) r page with
  | .error f => .fault f 0
  | .ok none => .fault .pageUnmapped 0
  | .ok (some (_, _, e)) =>
    if !leafOk e P then .fault .tableInvalid e
    else if !leafV e then
      match leafVst e with
      | 0 => .fault .pageUnmapped e
      | 1 => .hold
      | _ => match k with
        | .read | .fetch => .poison e
        | _ => .fault .pagePoisoned e
    else if (k = .write || k = .atomic) && s.pageLocked x r e then .fault .inputLocked e
    else if !permits k e then .fault .pageAccess e
    else
      match baseHome e with
      | 2 =>
        let key := s.keyFor c x (tensorOf a) page e
        if key = 0 then .fault .keyInvalid e else .ok (.peer (bf e.toNat 49 12) key (bf e.toNat 0 28 * P + o))
      | 3 => .ok (.host (baseFrame e * 4096 + o))
      | h =>
        let f := baseFrame e + o / 4096
        let l := baseFrame e + (o + n - 1) / 4096
        if (s.partOf x).framesIn h f (l - f + 1) then .ok (.home h (baseFrame e * 4096 + o))
        else .fault .polderFault e

/-- The parts of an access of n bytes that lie in one page each (R275 step 4): offset in the access and length. -/
def pageParts (P : Nat) (a : Word) (n : Nat) : List (Nat × Nat) :=
  let room := P - offsetOf a % P
  if n ≤ room then [(0, n)] else [(0, room), (room, n - room)]

/-- Steps 1 to 3 of R275 for one access: bounds of the address, the TLR, the tensor's span. -/
def State.checkTensor (s : State) (c : Option Nat) (x : Nat) (a : Word) (n : Nat) : Except FKind (BitVec 512) :=
  match s.tlr c x (tensorOf a) with
  | .error k => .error k
  | .ok r => if tlrSpan r < offsetOf a + n then .error .tensorBounds else .ok r

/-- Sets `D` in the leaf entry of the page that holds a byte of a tensor (R271). -/
def State.setDirty (s : State) (x : Nat) (r : BitVec 512) (off : Nat) : State :=
  match s.leaf x r (off / tlrPage r) with
  | .ok (some (h, a, _)) => s.homeWrite h a (bytesOfNat 8 (s.homeNat h a 8 ||| 1 <<< 44))
  | _ => s

/-! ### A broken obligation (R10) -/

/-- The numbers of the w-byte records of a table that have listed bytes. -/
def State.listed (s : State) (h lo n w : Nat) : List Nat :=
  (s.home h).cells.foldl (fun l c => let i := (c.1 - lo) / w
    if lo ≤ c.1 && c.1 < lo + n * w && l.head? ≠ some i then i :: l else l) []
/-- The pages of a tensor that have a leaf entry with listed bytes. -/
def State.listedPages (s : State) (r : BitVec 512) : List Nat :=
  let root := BitVec.ofNat 64 (tf r 64 64)
  let h := baseHome root
  let a := baseFrame root * 4096
  if tlrPages r ≤ 4096 then s.listed h a (tlrPages r) 8
  else (s.listed h a ((tlrPages r + 4095) / 4096) 8).flatMap fun i =>
    let d := BitVec.ofNat 64 (s.homeNat h (a + 8 * i) 8)
    (s.listed (baseHome d) (baseFrame d * 4096) 4096 8).map fun j => 4096 * i + j
/-- What a context's tensors hold in the device's own homes becomes undefined. -/
def State.tensorsUndef (s : State) (x : Nat) : State :=
  let (h, a) := (s.ctx x).tlrPlace 0
  (s.listed h a 65536 64).foldl (fun (s : State) n =>
    match s.tlr none x n with
    | .error _ => s
    | .ok r => (s.listedPages r).foldl (fun (s : State) page =>
        let P := tlrPage r
        match s.translate none x r (tensorAddr n (page * P)) (min P (tlrSpan r - page * P)) .front with
        | .ok (.home h a) => s.setHome h ((s.home h).undefRange a (a + min P (tlrSpan r - page * P)))
        | _ => s) s) s
/-- A context breaks an obligation whose breaking has no stated consequence (R10): its registers, tiles and tensors are undefined, and nothing
of another context changes. -/
def State.breaks (s : State) (x : Nat) : State :=
  let lost := fun (k : Core) =>
    let k := if !k.runs x then k else
      let q := { k.seq with s := Vector.replicate 64 none, c := Vector.replicate 16 none, t := Vector.replicate 64 none, kc := none, fc := none }
      { k with seq := q }
    let k := if k.owner = some x then { k with tile := k.tile.undefRange 0 0x1000000 } else k
    { k with bands := k.bands.map fun (e : Nat × Band) => if e.2.slot ≠ x then e else
      (e.1, { e.2 with v := [], b := Vector.ofFn fun (i : Fin 112) => s.free (2 ^ 40 + i.val), p := Vector.ofFn fun (i : Fin 7) => s.free (2 ^ 41 + i.val) }) }
  ({ s with cores := s.cores.map lost, fresh := s.fresh + 1 }).tensorsUndef x

/-! ### The layout units' copies (R268, R271, R274) -/

/-- Where a page's hotness is counted (R274). -/
def State.hotPlace (s : State) (x : Nat) (r : BitVec 512) (page : Nat) : Option Nat :=
  let k := (s.ctx x).hot
  if tf r 0 32 = 0xFFFFFFFF || !baseSet k then none else some (baseFrame k * 4096 + 2 * (tf r 0 32 + page))

/-- A core's layout unit keeps what a translation used: the TLR, the TLB entry with one more hot request, and `D` set by an
atomic OR before the first write through the copy (R271, R274). -/
def State.touch (s : State) (c x : Nat) (r : BitVec 512) (a : Word) (k : AKind) : State :=
  let n := tensorOf a
  let page := offsetOf a / tlrPage r
  match s.entryFor (some c) x n r page with
  | .ok (some (h, ea, e)) =>
    if !leafV e then s
    else
      let wr := k = .write || k = .atomic
      let old := (s.core c).tlb.find? fun t => t.ctx = x && t.tensor = n && t.page = page
      let dSet := (old.map fun t => t.dSet).getD false
      let s := if wr && !dSet then
          s.homeWrite h ea (bytesOfNat 8 (s.homeNat h ea 8 ||| 1 <<< 44)) else s
      let t : TlbEntry := match old with
        | some t => { t with hot := min 0xFFFF (t.hot + 1), dSet := t.dSet || wr }
        | none => ⟨x, n, page, ea, h, e, 1, s.hotPlace x r page, wr, if baseHome e = 2 then s.pageKey x e else 0⟩
      s.onCore c fun k => { k with
        tlb := t :: k.tlb.filter fun t => !(t.ctx = x && t.tensor = n && t.page = page)
        tlrs := if k.tlrs.any fun t => t.ctx = x && t.tensor = n then k.tlrs else ⟨x, n, r⟩ :: k.tlrs }
  | _ => s

/-- A core's layout unit keeps what the line requests for some addresses used: one count for each 128-byte line (R274). -/
def State.touchLines (s : State) (c x : Nat) (k : AKind) (l : List (BitVec 512 × Word)) : State :=
  ((l.map fun p => (p.1, p.2 &&& ~~~127#64)).foldl (fun (acc : List (BitVec 512 × Word)) p => if acc.contains p then acc else acc ++ [p]) []).foldl
    (fun s p => s.touch c x p.1 p.2 k) s

/-- Adds an evicted or invalidated entry's hotness to the shadow table (R274). -/
def State.foldHot (s : State) (t : TlbEntry) : State :=
  match t.hotAddr with
  | none => s
  | some a =>
    let h := baseHome (s.ctx t.ctx).hot
    if (s.partOf t.ctx).inPolder h (a / 4096) then
      s.homeWrite h a (bytesOfNat 2 (min 0xFFFF (s.homeNat h a 2 + t.hot)))
    else s

/-! ### Translation invalidates (R280) -/

/-- The outstanding accesses, copies and stream reads of a context that a page range of a tensor translated. -/
def State.tagged (s : State) (x : Nat) (tensor : Option Nat) (lo hi : Nat) : List Nat :=
  (List.range 64).flatMap fun c =>
    let k := s.core c
    (k.bands.filter fun b => b.2.slot == x).flatMap (fun b =>
      (b.2.acc.filter fun a => !a.tile && a.pieces.any fun p =>
        !p.performed && (tensor = none || tensor = some (tensorOf p.va)) && lo ≤ p.page && p.page ≤ hi).map fun a => a.id)
    ++ (if k.runs x || k.hasBands x then
          k.chans.toList.flatMap fun q => (q.filter fun m => !(m.remote ++ m.acks).isEmpty
            && (tensor = none || tensor = some (if m.op = .push then tensorOf m.base else bf m.desc.toNat 160 16)
              || (m.sp && tensor = some (bf m.desc.toNat 160 16 + 1)))).map fun m => m.id
        else [])
    ++ (match k.arr.stream with
      | some st => if k.runs x && (k.arr.queue.any fun q => q.num = st.num && q.ten && (tensor = none || tensor = some (bf q.desc.toNat 160 16)))
          then (s.remote.filter fun r => r.2.who = .stream c st.num).map fun r => r.1 else []
      | none => [])

/-- Issues a translation invalidate (R280): matching entries leave every layout unit with their hotness folded in, and the
requests that they tagged are remembered until they are performed. -/
def State.invalidate (s : State) (x : Nat) (tensor : Option Nat) (lo hi : Nat) (mig : Option Nat) : State :=
  let hit := fun (t : TlbEntry) => t.ctx = x && (tensor = none || (tensor = some t.tensor && lo ≤ t.page && t.page ≤ hi))
  let waits := s.tagged x tensor lo hi
  let s := (List.range 64).foldl (fun s c =>
    let k := s.core c
    if k.tlb.any hit || k.tlrs.any (fun t => t.ctx = x) then
      (k.tlb.filter hit).foldl State.foldHot (s.setCore c { k with
        tlb := k.tlb.filter fun t => !hit t
        tlrs := k.tlrs.filter fun t => !(t.ctx = x && (tensor = none || tensor = some t.tensor)) })
    else s) s
  { s with invals := s.invals ++ [⟨x, tensor, lo, hi, waits, mig⟩] }

/-- Whether a tagged request is still outstanding. -/
def State.outstanding (s : State) (id : Nat) : Bool :=
  (List.range 64).any fun c =>
    let k := s.core c
    k.bands.any (fun b => b.2.acc.any fun a => a.id = id && a.pieces.any fun p => !p.performed)
    || k.chans.toList.any fun q => q.any fun m => m.id = id
      && s.remote.any fun r => (m.remote ++ m.acks).contains r.1 && r.2.stat = .waiting
    || s.remote.any fun r => r.1 = id && r.2.stat = .waiting

end Sys2Proof.Machine
end

