-- ==== Sys2Proof/Machine/Wire.lean ====
section
/-!
DEFINITION. What leaves the device: sequenced packets to peers (R367 to R370, R374), requests to peers and to the control
node (R284, R289, R436), and the front end's own accesses (R437).
-/

namespace Sys2Proof.Machine

/-! ### The packet as bytes (R368) -/

/-- The header with a given `ECRC`. -/
def Packet.headerWith (p : Packet) (ecrc : Nat) : List Byte :=
  bytesOfNat 32 (ecrc ||| p.ctx.toNat <<< 64 ||| p.part.toNat <<< 68 ||| p.opx.toNat <<< 72 ||| (p.src % 4096) <<< 88
    ||| (p.dst % 4096) <<< 100 ||| (p.len % 256) <<< 112 ||| p.op.toNat <<< 120 ||| p.roff.toNat <<< 128 ||| p.key.toNat <<< 192
    ||| (p.seq % 2 ^ 32) <<< 224)
/-- The packet's bytes: header with its ECRC, and payload. -/
def Packet.bytes (p : Packet) : List Byte := p.headerWith (crc32c (p.headerWith 0 ++ p.payload)) ++ p.payload
/-- The packet that bytes stand for. -/
def Packet.ofBytes (bs : List Byte) : Packet :=
  let w := natOfBytes (bs.take 32)
  { seq := bf w 224 32, key := BitVec.ofNat 32 (bf w 192 32), roff := BitVec.ofNat 64 (bf w 128 64), op := BitVec.ofNat 8 (bf w 120 8)
    len := bf w 112 8, dst := bf w 100 12, src := bf w 88 12, opx := BitVec.ofNat 16 (bf w 72 16), part := BitVec.ofNat 4 (bf w 68 4)
    ctx := BitVec.ofNat 4 (bf w 64 4), payload := bs.drop 32, good := true }

/-- The payload bytes that a header announces: `LEN` + 1, and none for READ, ACK, NACK and TPULL (R368, R369). -/
def Packet.payloadLen (p : Packet) : Nat := if [0x02, 0x07, 0x08, 0x11].contains p.op.toNat then 0 else p.len + 1
/-- The flits that a packet with a payload of n bytes occupies (R368). -/
def flitCount (n : Nat) : Nat := 1 + (n + 63) / 64
/-- A packet's flits as 64-byte blocks: the header's, and the payload's, padded with zeros. -/
def Packet.blocks (p : Packet) : List (List Byte) :=
  let pad := fun (bs : List Byte) => bs ++ List.replicate (64 - bs.length) 0
  pad (p.bytes.take 32) :: (List.range ((p.payload.length + 63) / 64)).map fun i => pad ((p.payload.drop (64 * i)).take 64)
/-- A flit's CRC-32C, over its bytes and its number (log entry 118). -/
def flitCrc (seq : Nat) (data : List Byte) : Nat := crc32c (data ++ bytesOfNat 2 seq)

/-! ### Packets -/

/-- What the device keeps for a peer; both numbers start at 1 (R370). -/
def State.peer (s : State) (d : Nat) : Peer := (aget s.peers d).getD ⟨1, 1, [], [], [], [], none⟩
/-- Changes what the device keeps for a peer. -/
def State.onPeer (s : State) (d : Nat) (f : Peer → Peer) : State := { s with peers := aput s.peers d (f (s.peer d)) }
/-- The sequence number after a number: modulo 2^32, skipping 0 (R370). -/
def seqAfter (n : Nat) : Nat := if n + 1 = 2 ^ 32 then 1 else n + 1
/-- A port. -/
def State.port (s : State) (p : Nat) : Port := (s.ports[p]?).getD Port.reset
/-- Replaces a port. -/
def State.setPort (s : State) (i : Nat) (q : Port) : State := { s with ports := s.ports.setIfInBounds i q }
/-- The flits that wait to leave on a port. -/
def Port.flitsWaiting (q : Port) : Nat := (q.queue.map fun p => flitCount p.payload.length).sum
/-- The port that takes the next packet (R367): the UP port with the fewest flits waiting to leave, the lowest-numbered one on a tie. -/
def State.upPort (s : State) : Option Nat :=
  (List.range 16).foldl (fun (best : Option Nat) i =>
    let load := fun (j : Nat) => (s.port j).flitsWaiting
    if (s.port i).st ≠ .up then best
    else match best with
      | none => some i
      | some b => if load i < load b then some i else best) none

/-- A packet joins those that wait to leave on the port that takes it; without an UP port it waits for one (R367). -/
def State.toPort (s : State) (p : Packet) : State :=
  match s.upPort with
  | some i => s.setPort i { s.port i with queue := (s.port i).queue ++ [p] }
  | none => { s with unsent := s.unsent ++ [p] }
/-- Emits a packet: the fabric side takes it, and it leaves on a port. -/
def State.emit (s : State) (p : Packet) : State :=
  let p := { p with src := s.devid }
  { s with sent := s.sent ++ [p] }.toPort p

/-- Gives a sequenced packet its number and emits it; it stays unacknowledged (R370, R374). -/
def State.launchPacket (s : State) (p : Packet) (req : Option Nat) : State :=
  let n := (s.peer p.dst).next
  let p := { p with seq := n, src := s.devid }
  let s := s.onPeer p.dst fun q => { q with next := seqAfter q.next, unacked := q.unacked ++ [⟨p, none, req⟩] }
  let s := match req with
    | some id => { s with remote := amod s.remote id fun r => { r with peer := p.dst, seq := n } }
    | none => s
  s.emit p

/-- Sends a sequenced packet; beyond 4,096 unacknowledged ones it waits in the egress queue (R370). -/
def State.sendSeq (s : State) (p : Packet) (req : Option Nat) : State :=
  if 4096 ≤ (s.peer p.dst).unacked.length || !(s.peer p.dst).egress.isEmpty then
    s.onPeer p.dst fun q => { q with egress := q.egress ++ [(p, req)] }
  else s.launchPacket p req

/-- Sends what waits in the egress queue of a peer while there is room. -/
def State.drainEgress (s : State) (d : Nat) : Nat → State
  | 0 => s
  | fuel + 1 =>
    match (s.peer d).egress with
    | (p, r) :: t =>
      if (s.peer d).unacked.length < 4096 then
        State.drainEgress ((s.onPeer d fun q => { q with egress := t }).launchPacket p r) d fuel
      else s
    | [] => s

/-- The number that the next packet handed over for a peer will get. -/
def State.nextSeq (s : State) (d : Nat) : Nat := (s.peer d).egress.foldl (fun n _ => seqAfter n) (s.peer d).next

/-- A sequenced packet on behalf of a context. In RECOVERING a packet that was acknowledged before the fault is not sent
again, and another one goes with its first number (R121). -/
def State.sendFor (s : State) (x : Nat) (p : Packet) (req : Option Nat) : State :=
  let k := s.ctx x
  let p := { p with part := BitVec.ofNat 4 (x / 16), ctx := BitVec.ofNat 4 x }
  if k.st = .recovering then
    match (k.outs.drop k.outPos).findIdx? fun o => o.dst = p.dst && o.op = p.op && o.roff = p.roff with
    | some i =>
      let o := (k.outs.drop k.outPos).getD i ⟨0, 0, 0, 0, false⟩
      let n := o.seq
      let acked := o.acked
      let s := s.onCtx x fun k => { k with
        outs := (k.outs.take k.outPos) ++ [o] ++ (k.outs.drop k.outPos).eraseIdx i, outPos := k.outPos + 1 }
      if acked then
        match req with
        | some id => { s with remote := amod s.remote id fun r => { r with peer := p.dst, seq := n, stat := if r.isRead then r.stat else .answered [] } }
        | none => s
      else
        let s := s.onPeer p.dst fun q => { q with unacked := updWhere (fun u => u.pkt.seq = n) (fun u => { u with req := req }) q.unacked }
        let s := match req with
          | some id => { s with remote := amod s.remote id fun r => { r with peer := p.dst, seq := n } }
          | none => s
        s.emit { p with seq := n }
    | none => s.sendSeq p req
  else if k.record && k.logsz ≠ 0 then
    (s.onCtx x fun k => { k with outs := k.outs ++ [⟨p.dst, s.nextSeq p.dst, p.op, p.roff, false⟩], outPos := k.outPos + 1 }).sendSeq p req
  else s.sendSeq p req

/-! ### Requests to peers and to the control node -/

/-- A remote place as its unit (device and key, or the control node) and its address. -/
def Loc.far : Loc → Option (Bool × Nat × Nat × Nat)
  | .peer d k a => some (false, d, k, a)
  | .host a => some (true, 0, 0, a)
  | _ => none
/-- The remote place of a unit at an address. -/
def farLoc (f : Bool × Nat × Nat) (a : Nat) : Loc := if f.1 then .host a else .peer f.2.1 f.2.2 a

/-- A place k bytes further on. -/
def Loc.add (k : Nat) : Loc → Loc
  | .home h a => .home h (a + k)
  | .peer d key a => .peer d key (a + k)
  | .host a => .host (a + k)
  | .tile a => .tile (a + k)
/-- The address of a place in its unit. -/
def Loc.addr : Loc → Nat
  | .home _ a | .peer _ _ a | .host a | .tile a => a
/-- An access of n bytes, cut where it crosses a 128-byte line (R284): offset, length and place of each part. -/
def Loc.lines (l : Loc) : Nat → List (Nat × Nat × Loc)
  | 0 => []
  | n + 1 => (List.range ((l.addr % 128 + n) / 128 + 1)).map fun i =>
      let lo := if i = 0 then 0 else 128 * i - l.addr % 128
      (lo, min (n + 1) (128 * (i + 1) - l.addr % 128) - lo, l.add lo)

/-- Contiguous runs within 128-byte lines of the remote places among some accesses: unit, address, length. -/
def farRuns (l : List (Loc × Nat)) : List ((Bool × Nat × Nat) × Nat × Nat) :=
  (l.flatMap fun p => (p.1.lines p.2).map fun q => (q.2.2, q.2.1)).foldl (fun (acc : List ((Bool × Nat × Nat) × Nat × Nat)) p =>
    match p.1.far with
    | none => acc
    | some (h, d, k, a) =>
      let u : Bool × Nat × Nat := (h, d, k)
      match acc.getLast? with
      | some (v, b, n) =>
        if v = u && b / 128 = a / 128 && b ≤ a && a ≤ b + n then acc.dropLast ++ [(v, b, max n (a + p.2 - b))]
        else acc ++ [(u, a, p.2)]
      | none => acc ++ [(u, a, p.2)]) []

/-- The payload of a host-access request (R436): kind, partition, context, length; address; the bytes of a write, padded to words. -/
def hostWords (isRead : Bool) (x a n : Nat) (data : List Byte) : List Word :=
  let w0 := (if isRead then 1 else 2) ||| (x / 16 % 16) <<< 4 ||| (x % 16) <<< 8 ||| ((n - 1) % 128) <<< 12
  BitVec.ofNat 64 w0 :: BitVec.ofNat 64 (a % 2 ^ 52) ::
    (if isRead then [] else (List.range ((n + 7) / 8)).map fun i => BitVec.ofNat 64 (natOfBytes ((data.drop (8 * i)).take 8)))

/-- Opens a request to a peer's region or to the control node's memory (R284, R436): READ or WRITE with its bytes. -/
def State.request (s : State) (who : Requester) (x : Nat) (l : Loc) (isRead : Bool) (n : Nat) (data : List Byte) : Nat × State :=
  let (id, s) := s.newId
  let opened (host : Bool) (a : Nat) : State :=
    { s with remote := aput s.remote id (RReq.mk id who host (x / 16) (x % 16) isRead a n RStat.waiting 0 0) }
  match l with
  | .peer d key roff =>
    (id, (opened false roff).sendFor x { Packet.zero with
      op := if isRead then 0x02 else 0x01, dst := d, key := BitVec.ofNat 32 key, roff := BitVec.ofNat 64 roff, len := n - 1,
      payload := if isRead then [] else data } (some id))
  | .host a =>
    (id, (opened true a).tell (.hostReq id (hostWords isRead x a n data)))
  | _ => (id, s)

/-- Opens an atomic request to a peer's region (R289, R369): ATOMIC or RED with operation, type, scope and operands. -/
def State.requestAtomic (s : State) (who : Requester) (x : Nat) (d key roff : Nat) (red : Bool) (opx : Nat) (operand : List Byte) :
    Nat × State :=
  let (id, s) := s.newId
  let s := { s with remote := aput s.remote id (RReq.mk id who false (x / 16) (x % 16) (!red) roff operand.length RStat.waiting 0 0) }
  (id, s.sendFor x { Packet.zero with
    op := if red then 0x04 else 0x03, dst := d, key := BitVec.ofNat 32 key, roff := BitVec.ofNat 64 roff, len := operand.length - 1,
    opx := BitVec.ofNat 16 opx, payload := operand } (some id))

/-- How a request stands; one that is gone has been performed. -/
def State.reqStat (s : State) (id : Nat) : RStat := ((aget s.remote id).map fun r => r.stat).getD (.answered [])
/-- Whether a request still waits for its answer. -/
def State.reqOpen (s : State) (id : Nat) : Bool := s.reqStat id = .waiting
/-- Forgets a request. -/
def State.dropReq (s : State) (id : Nat) : State := { s with remote := adel s.remote id }
/-- Refuses a request with a kind (R283, R375). -/
def State.refuseReq (s : State) (id : Nat) (k : FKind) : State :=
  { s with remote := amod s.remote id fun r => if r.stat = .waiting then { r with stat := .refused k } else r }

/-! ### Receive queues (R381, R384, R385) -/

/-- A receive queue as it stands at unit entry. -/
def RecvQ.empty : RecvQ := ⟨.none, none, [], [], [], false⟩
/-- A receive queue of a core. -/
def Core.recvQ (k : Core) (q : Nat) : RecvQ := (aget k.rq q).getD RecvQ.empty
/-- Changes a receive queue. -/
def Core.onRecvQ (k : Core) (q : Nat) (f : RecvQ → RecvQ) : Core := { k with rq := aput k.rq q (f (k.recvQ q)) }
/-- The bytes of a message: rows of ceil(columns × width / 8) bytes (R384). -/
def Note.bytes (m : Note) : Nat := m.rows * ((m.cols * fmtWidth m.fmt + 7) / 8)

/-- The head message of a receive queue is asked for: the count falls and a TPULL goes to the sender (R383, R385; the packet's
fields are log entry 6's). -/
def State.pull (s : State) (c q x treg : Nat) (handle : Word) : State :=
  let r := (s.core c).recvQ q
  match r.notes, r.chan with
  | m :: rest, some (dev, from_) =>
    let (id, s) := s.newId
    let (rq, s) := s.newId
    let s := s.onCore c fun k => k.onRecvQ q fun r => { r with
      notes := rest, pulls := r.pulls ++ [⟨m.msg, id, BitVec.ofNat 6 treg, handle, 0, m.bytes⟩], ended := false }
    let s := { s with remote := aput s.remote rq (RReq.mk rq (.recv c q id) false (x / 16) (x % 16) false 0 0 RStat.waiting 0 0) }
    s.sendFor x { Packet.zero with
      op := 0x11, dst := dev
      roff := BitVec.ofNat 64 (s.devid % 2 ^ 12 + c % 64 * 2 ^ 12 + q % 16 * 2 ^ 18 + from_ % 64 * 2 ^ 24 + m.msg % 2 ^ 24 * 2 ^ 32) } (some rq)
  | _, _ => s

/-- A band's receive queue whose message has been popped is pulled on: the link block pulls ahead (R385). -/
def State.pullNext (s : State) (c q : Nat) : State :=
  let r := (s.core c).recvQ q
  match r.owner with
  | .band n =>
    match s.band c n with
    | some b =>
      if r.buf.isEmpty && r.pulls.isEmpty && !r.notes.isEmpty then s.pull c q b.slot 0 0 else s
    | none => s
  | _ => s

/-! ### The front end's own accesses (R437) -/

/-- The pieces of a byte run of a tensor, page by page: offset in the run, length, outcome. -/
def State.frontParts (s : State) (x : Nat) (r : BitVec 512) (k : AKind) (a : Word) : Nat → Nat → List (Nat × Nat × Word × TOut)
  | 0, _ => []
  | fuel + 1, left =>
    if left = 0 then []
    else
      let n := min left (tlrPage r - offsetOf a % tlrPage r)
      let o := s.translate none x r a n k
      (offsetOf a, n, a, o) :: State.frontParts s x r k (a + BitVec.ofNat 64 n) fuel (left - n)

/-- Writes bytes at a tensor virtual address on the control node's behalf (R437): nothing is written when any byte fails; the
answer says which check failed. -/
def State.frontWrite (s : State) (x : Nat) (a : Word) (bs : List Byte) : Except FKind State :=
  match s.checkTensor none x a bs.length with
  | .error k => .error k
  | .ok r =>
    let ps := s.frontParts x r .front a (bs.length + 1) bs.length
    match ps.findSome? fun p => match p.2.2.2 with
        | .ok _ => none
        | .fault k _ => some k
        | .hold => some FKind.pageUnmapped
        | .poison _ => some FKind.pagePoisoned with
    | some k => .error k
    | none =>
      .ok (ps.foldl (fun s p =>
        match p.2.2.2 with
        | .ok (.home h ha) =>
          (s.homeWrite h ha ((bs.drop (p.1 - offsetOf a)).take p.2.1)).setDirty x r p.1
        | .ok l =>
          (l.lines p.2.1).foldl (fun (s : State) q =>
            (s.request .none x q.2.2 false q.2.1 ((bs.drop (p.1 - offsetOf a + q.1)).take q.2.1)).2) (s.setDirty x r p.1)
        | _ => s) s)

end Sys2Proof.Machine
end

