-- ==== Sys2Proof/Machine/Units.lean ====
section
/-!
DEFINITION. Tile handles and scoreboards, bands and gangs, the start of units, taking and resuming faults, pre-emption and
resumption (R107 to R112, R133, R159 to R174, R183, R214 to R218, R229).
-/

namespace Sys2Proof.Machine

/-! ### Tile handles (R152, R159) -/

/-- First byte of a handle's tile. -/
def hBase (h : Word) : Nat := 64 * bf h.toNat 46 18
/-- Rows. -/
def hRows (h : Word) : Nat := bf h.toNat 36 10 + 1
/-- Columns. -/
def hCols (h : Word) : Nat := bf h.toNat 24 12 + 1
/-- Format code. -/
def hFmt (h : Word) : Nat := bf h.toNat 19 5
/-- Bytes from row to row. -/
def hPitch (h : Word) : Nat := 64 * bf h.toNat 5 14
/-- The byte after the span. -/
def hEnd (h : Word) : Nat := hBase h + hRows h * hPitch h
/-- A well-formed handle (R152). -/
def hOk (h : Word) : Bool :=
  bf h.toNat 0 4 = 0 && hFmt h ≤ 0x0D && 64 ≤ hPitch h && hCols h * fmtWidth (hFmt h) ≤ 8 * hPitch h && hEnd h ≤ 0x1000000
/-- Where element (i, j) lies: byte, and bit within it (R159). -/
def hElem (h : Word) (i j : Nat) : Nat × Nat :=
  let w := fmtWidth (hFmt h)
  (hBase h + i * hPitch h + j * w / 8, if w = 4 then 4 * (j % 2) else 0)

/-- Element (i, j) of a tile. -/
def State.tileElem (s : State) (k : Core) (h : Word) (i j : Nat) : Nat :=
  let w := fmtWidth (hFmt h)
  let (a, b) := hElem h i j
  bf (natOfBytes (s.tileBytes k a ((w + 7) / 8))) b w

/-- Writes element (i, j) of a tile; the other half of a 4-bit element's byte stays. -/
def State.setTileElem (s : State) (k : Core) (h : Word) (i j v : Nat) : Core :=
  let w := fmtWidth (hFmt h)
  let (a, b) := hElem h i j
  if w = 4 then
    let o := natOfBytes (s.tileBytes k a 1)
    { k with tile := k.tile.writeBytes a (bytesOfNat 1 (bf o (4 - b) 4 <<< (4 - b) ||| (v % 16) <<< b)) }
  else { k with tile := k.tile.writeBytes a (bytesOfNat (w / 8) v) }

/-! ### The tile scoreboard (R160 to R162) -/

/-- The state that the reader counts give. -/
def TEntry.byCounts (e : TEntry) : TEntry :=
  { e with st := if 1 ≤ e.crd then .bound else if 1 ≤ e.xrd then .draining else .ready }
/-- A compute reader takes an entry. -/
def Core.addCompute (k : Core) (n : Nat) : Core := k.onEntry n fun e => { e with crd := e.crd + 1 }.byCounts
/-- A copy reader takes an entry. -/
def Core.addCopy (k : Core) (n : Nat) : Core := k.onEntry n fun e => { e with xrd := e.xrd + 1 }.byCounts
/-- A compute reader releases an entry. -/
def Core.dropCompute (k : Core) (n : Nat) : Core :=
  k.onEntry n fun e => if e.st = .bound || e.st = .draining then { e with crd := e.crd - 1 }.byCounts else e
/-- A copy reader releases an entry. -/
def Core.dropCopy (k : Core) (n : Nat) : Core :=
  k.onEntry n fun e => if e.st = .bound || e.st = .draining then { e with xrd := e.xrd - 1 }.byCounts else e

/-- Access classes of handle operations (R161): compute reader, copy reader, writer, updater, filler. -/
inductive AClass where
  | compute | copy | writer | updater | filler
deriving DecidableEq, Repr

/-- Whether an entry is in a state that the class accepts. -/
def TEntry.accepts (e : TEntry) (c : AClass) : Bool :=
  match c with
  | .compute => (e.st = .ready || e.st = .bound || e.st = .draining) && e.crd < 63
  | .copy => (e.st = .ready || e.st = .bound || e.st = .draining) && e.xrd < 63
  | .writer | .filler => e.st = .alloc || e.st = .ready
  | .updater => e.st = .ready

/-- Whether an entry stands in a state that an engine leaves by itself (R153, R156): then what does not accept it waits. -/
def TEntry.transient (e : TEntry) : Bool :=
  e.st = .filling || e.st = .bound || e.st = .writing || e.st = .draining

/-- The row of R162 that a class takes. -/
def Core.takeRow (k : Core) (n : Nat) (c : AClass) : Core :=
  match c with
  | .compute => k.addCompute n
  | .copy => k.addCopy n
  | .writer | .updater => k.toState n .writing
  | .filler => k.toState n .filling

/-! ### The range scoreboard (R183) -/

/-- Enters a range. -/
def Core.addRange (k : Core) (lo hi : Nat) (o : ROwner) : Core := { k with ranges := k.ranges ++ [⟨lo, hi, o⟩] }
/-- Whether a held range touches bytes lo … hi-1, apart from those of the owner that is let through. -/
def Core.held (k : Core) (lo hi : Nat) (but : Option ROwner := none) : Bool :=
  k.ranges.any fun r => r.lo < hi && lo < r.hi && but ≠ some r.owner

/-! ### Fences and streams that are discarded (R186, R190, R196) -/

/-- Whether a fence is at the head of a queue that holds it. -/
def fenceHead {α : Type} (l : List α) (f : α → Nat) (id : Nat) : Bool :=
  !(l.any fun x => f x = id) || ((l.head?.map f) = some id)

/-- Lets go of the fences that stand at the head of every queue that they are in: everything before them has completed. -/
def Core.openFences (k : Core) : Nat → Core
  | 0 => k
  | fuel + 1 =>
    let heads := (k.chans.toList.filterMap fun q => q.head?.map fun m => m.fence)
      ++ (match k.arr.queue.head? with | some m => [m.fence] | none => [])
      ++ (match k.arr.epi.head? with | some m => [m.fence] | none => [])
      ++ (k.lq.toList.filterMap fun q => q.head?.map fun m => m.fence)
    match heads.find? fun id => id ≠ 0
        && k.chans.toList.all (fun q => fenceHead q (fun m => m.fence) id)
        && fenceHead k.arr.queue (fun m => m.fence) id && fenceHead k.arr.epi (fun m => m.fence) id
        && k.lq.toList.all (fun q => fenceHead q (fun m => m.fence) id) with
    | none => k
    | some id =>
      Core.openFences { k with
        chans := k.chans.map fun q => q.filter fun m => m.fence ≠ id
        arr := { k.arr with queue := k.arr.queue.filter fun m => m.fence ≠ id, epi := k.arr.epi.filter fun m => m.fence ≠ id }
        lq := k.lq.map fun q => q.filter fun m => m.fence ≠ id } fuel

/-- How many fences stand in a core's queues, each counted in every one. -/
def Core.fenceCount (k : Core) : Nat :=
  ((k.chans.toList.map fun q => q.length) ++ [k.arr.queue.length, k.arr.epi.length] ++ k.lq.toList.map fun q => q.length).sum
/-- Lets go of fences after an entry has left its queue. -/
def State.freeFences (s : State) (c : Nat) : State := s.onCore c fun k => k.openFences k.fenceCount

/-- A field of a parameter block (R208). -/
def eb (b : BitVec 512) (lo n : Nat) : Nat := bf b.toNat lo n
/-- Whether the block uses a bias tile. -/
def ebBv (b : BitVec 512) : Bool := eb b 34 1 = 1
/-- Discards a stream (R190, R196): a paired EPI retires with its output rows undefined. -/
def Core.dropStream (k : Core) (q : ArrCmd) : Core :=
  let k := if q.ten then k else k.dropCompute q.treg.toNat
  let k := { k with arr := { k.arr with
    queue := k.arr.queue.filter fun x => !(x.op = .mul && x.num = q.num)
    pipe := k.arr.pipe.filter fun r => q.acc || r.dst ≠ .fin q.pair } }
  if q.acc then k
  else
    match k.arr.epi.find? fun e => e.pair = q.pair && !e.isFence with
    | none => k
    | some e =>
      let rows := min 64 (hRows e.handle)
      let len := min 256 (hCols e.handle) * fmtWidth (hFmt e.handle) / 8
      let k := { k with
        tile := (List.range rows).foldl (fun (m : Memory) i =>
          m.undefRange (hBase e.handle + i * hPitch e.handle) (hBase e.handle + i * hPitch e.handle + len)) k.tile
        arr := { k.arr with epi := k.arr.epi.filter fun x => x.isFence || x.pair ≠ q.pair } }
      let k := k.toState e.treg.toNat .ready
      if ebBv e.block then k.dropCompute e.biasReg.toNat else k

/-- Discards the stream that an operand fault stopped (R190, R356). -/
def Core.discardStream (k : Core) : Core :=
  let arr (k : Core) : Core := { k with arr := { k.arr with stream := none, fault := none, rowprog := 0 } }
  match k.arr.stream with
  | some st => match k.arr.queue.find? fun q => q.op = .mul && q.num = st.num with
    | some q => arr (k.dropStream q)
    | none => arr k
  | none => arr k

/-- A stopped stream goes on at ROWPROG.NEXT (R200, R202). -/
def ArrayS.resumeStream (a : ArrayS) : ArrayS :=
  { a with fault := none, stream := a.stream.map fun st => { st with stopped := false }, rowprog := a.rowprog &&& ~~~0xFF#64 }

/-! ### Placing bands (R17, R169, R215, R218) -/

/-- Vector registers of a slice that no band holds. -/
def Core.sliceFree (k : Core) (m : Nat) : Nat := 512 - ((k.bands.filter fun b => b.1 / 16 = m).map fun b => b.2.vregs).sum

/-- Free band slots with `vr` registers each: slices ascending, slots ascending, at most `need`. -/
def Core.pickSlots (k : Core) (vr need : Nat) : List Nat :=
  (List.range 128).foldl (fun acc n =>
    if acc.length < need && (aget k.bands n).isNone
        && vr * ((acc.filter fun a => a / 16 = n / 16).length + 1) ≤ k.sliceFree (n / 16) then acc ++ [n] else acc) []

/-- The start state of a band (R169, R218). -/
def Band.start (part : BitVec 4) (ctx : BitVec 8) (of : BandOf) (vr : Nat) (bs : List (Nat × Word)) (mode pc : Word)
    (cls cycle : Nat) (live : Word) : Band where
  st := .loading
  of := of
  part := part
  ctx := ctx
  vregs := vr
  v := []
  b := bs.foldl (fun v e => v.setIfInBounds e.1 e.2) (Vector.replicate 112 0)
  p := Vector.replicate 7 0
  bp := 0
  q := []
  resultQ := []
  mmjQ := []
  staging := []
  popped := []
  stack := []
  tileCtr := 0
  acc := []
  mode := mode
  flag := 0
  pc := pc
  live := live
  dead := 0
  exited := ~~~live
  unfinished := none
  cls := cls
  readySince := cycle + 1
  readyAt := cycle
  halt := .none
  faultPc := 0
  faultMask := 0
  heldDecision := false
  drains := []
  bpSkip := false
  lastIssue := 0
  wait := .none
  parkRec := none
  faultVa := 0
  inFlight := []

/-! ### Invocations (R168, R173) -/

/-- Fields of a binding entry (R164). -/
def bindF (e : BitVec 256) (lo n : Nat) : Nat := bf e.toNat lo n
/-- A binding-table entry. -/
def State.bindEntry (s : State) (k : Core) (n : Nat) : BitVec 256 :=
  BitVec.ofNat 256 (natOfBytes (k.bind.readBytes (s.freeByte 4) (32 * n) 32))
/-- Direction of argument i: 1 IN, 2 OUT, 3 INOUT. -/
def bindDir (e : BitVec 256) (i : Nat) : Nat := bindF e (112 + 2 * i) 2
/-- Vector registers per band. -/
def bindVregs (e : BitVec 256) : Nat := 16 * (bindF e 100 3 + 1)
/-- Number of tile arguments. -/
def bindTiles (e : BitVec 256) : Nat := bindF e 108 4
/-- Whether an entry is restartable. -/
def bindRestart (e : BitVec 256) : Bool := bindF e 97 1 = 1
/-- Whether an entry snaps. -/
def bindSnap (e : BitVec 256) : Bool := bindF e 99 1 = 1

/-- An invocation of a core. -/
def Core.inv (k : Core) (id : Nat) : Option Inv := k.invs.find? fun i => i.id = id
/-- Changes an invocation. -/
def Core.onInv (k : Core) (id : Nat) (f : Inv → Inv) : Core := { k with invs := updWhere (fun i => i.id = id) f k.invs }
/-- The top-level invocation that a band's gang serves. -/
def Core.topInv (k : Core) (id : Nat) : Option Inv :=
  match k.inv id with
  | some i => match i.parent with
    | some p => k.inv p
    | none => some i
  | none => none
/-- The invocation that a band belongs to. -/
def Band.inv (b : Band) : Option Nat := match b.of with | .gang i _ => some i | .unit _ _ _ => none
/-- Whether a band belongs to an invocation or to its nested one. -/
def Core.serves (k : Core) (b : Band) (top : Nat) : Bool :=
  match b.inv with
  | some i => i = top || ((k.inv i).map fun v => v.parent) = some (some top)
  | none => false

/-! ### Taking a fault: bands (R173, R217, R277, R346) -/

/-- Cycles since unit entry (R143, R346). -/
def State.unitCycles (s : State) (k : Core) : BitVec 32 :=
  match k.seq.entry with
  | some e => BitVec.ofNat 32 (s.cycle - e)
  | none => 0

/-- HREG of a record (R346): the argument registers of a top-level invocation, or the A byte of the `TOPN`. -/
def Inv.hreg (i : Inv) : Word :=
  match i.parent with
  | some _ => i.abyte.setWidth 64
  | none => BitVec.ofNat 64 ((List.range 8).foldl (fun a n => a ||| (((i.tregs[n]?).map fun t => t.toNat).getD 0) <<< (6 * n)) 0)

/-- The record of a band's fault (R346). -/
def State.bandRecord (s : State) (c n : Nat) (b : Band) (k : FKind) (mask pc vaddr pte : Word) : FRec :=
  let co := s.core c
  let inv := b.inv.bind co.inv
  let top := b.inv.bind co.topInv
  { kind := k, core := BitVec.ofNat 6 c, slice := BitVec.ofNat 3 (n / 16), band := BitVec.ofNat 4 n, seqf := false,
    rtn := inv.isSome, nest := (inv.bind fun i => i.parent).isSome,
    topc := (inv.map fun i => i.opc).getD 0
    itop := match inv.bind fun i => i.parent with | some _ => (top.map fun i => i.opc).getD 0 | none => 0
    mask := mask, pc := pc, scyc := if inv.isSome then s.unitCycles co else 0,
    invid := BitVec.ofNat 32 ((top.map fun i => i.id).getD 0), vaddr := vaddr, pte := pte,
    hreg := (inv.map Inv.hreg).getD 0, rowprog := 0 }

/-- Stops a band where it stands (R217). -/
def Band.stop (b : Band) (w : HaltWhy) : Band :=
  match b.st with
  | .free | .done => b
  | .halted => if w = .fault then { b with halt := w } else b
  | st => { b with st := .halted, halt := w, heldDecision := b.unfinished.isSome && st ≠ .parked }

/-- Where EV.KIND and the class of a band's fault come from (R344): 3 in a routine, 2 in a lane unit. -/
def Band.evKind (b : Band) : Nat := if b.inv.isSome then 3 else 2

/-- A band fault (R87, R173, R277): the band goes HALTED; in a routine its invocation goes FAULTED and every band of it and of
its nested invocation stops; the record is written and the FAULT sluice raised. -/
def State.bandFaultAt (s : State) (c n : Nat) (k : FKind) (mask pc vaddr pte : Word) : State :=
  match s.band c n with
  | none => s
  | some b =>
    let r := s.bandRecord c n b k mask pc vaddr pte
    let s := s.onBand c n fun b => { b.stop .fault with faultMask := mask, faultPc := pc, faultVa := vaddr }
    let s := match b.inv.bind (s.core c).topInv with
      | some t => s.onCore c fun co =>
          let co := co.onInv t.id fun i => { i with st := .faulted }
          { co with bands := co.bands.map fun (e : Nat × Band) => if co.serves e.2 t.id && e.1 ≠ n then (e.1, e.2.stop .invocation) else e }
      | none => s
    s.takeFault b.slot r (.band c n) b.evKind (min b.cls 15)

/-- A band fault at the band's own instruction. -/
def State.bandFault (s : State) (c n : Nat) (k : FKind) (mask : Word) (vaddr pte : Word := 0) : State :=
  s.bandFaultAt c n k mask (((s.band c n).map fun b => b.pc).getD 0) vaddr pte

/-- A strand dies (R122, R214): it leaves the LIVE mask and every divergence-stack mask. -/
def Band.kill (b : Band) (m : Word) : Band :=
  { b with
    live := b.live &&& ~~~m
    dead := b.dead ||| m
    stack := b.stack.map fun e => { e with mask := e.mask &&& ~~~m }
    unfinished := b.unfinished.map fun u => u &&& ~~~m }

/-- A sequencer unit of whose gangs a strand has died (R122). -/
def SeqUnit.degrade (u : SeqUnit) : SeqUnit := { u with degraded := true }
/-- Strands of a band die (R122, R214): a gang's mark its sequencer unit at once, so that it completes with DEGRADED-RESULT (R225). -/
def State.killStrands (s : State) (c n : Nat) (m : Word) : State :=
  match s.band c n with
  | none => s
  | some b =>
    let s := s.onBand c n fun b => b.kill m
    if m ≠ 0 && b.inv.isSome then s.onCore c fun k => { k with unit := k.unit.map SeqUnit.degrade } else s

/-- Resumes a halted band (R173, R217); one that waited for something before it halted still waits for it. -/
def Band.resume (b : Band) (cycle : Nat) : Band :=
  if b.st ≠ .halted then b
  else if b.unfinished.isSome && !b.heldDecision then { b with st := .parked, halt := .none }
  else { b with st := .ready, halt := .none, readySince := cycle }

/-- A FAULTED invocation goes on: its bands and those of its nested invocation resume (R173). -/
def State.resumeInv (s : State) (c id : Nat) : State :=
  s.onCore c fun k =>
    let k := k.onInv id fun i => { i with st := .running }
    { k with bands := k.bands.map fun e => if k.serves e.2 id then (e.1, e.2.resume s.cycle) else e }

/-- A PARKED band whose page was resolved issues again for its unfinished strands (R279); a band that is HALTED meanwhile keeps
the decision (R173). -/
def State.resumePark (s : State) (c n : Nat) : State :=
  s.onBand c n fun b =>
    if b.st = .parked then { b with st := .ready, readySince := s.cycle }
    else if b.st = .halted && b.unfinished.isSome then { b with heldDecision := true }
    else b

/-! ### Taking a fault: the sequencer (R112, R138) -/

/-- The record of a sequencer's fault (R346). -/
def State.seqRecord (s : State) (c : Nat) (k : FKind) (pc vaddr pte : Word) : FRec :=
  { FRec.zero with kind := k, core := BitVec.ofNat 6 c, seqf := true, pc := pc, scyc := s.unitCycles (s.core c), vaddr := vaddr,
                   pte := pte }

/-- A sequencer's fault (R76, R138): it fetches nothing more; the record is written and the FAULT sluice raised. `epc` is the
bundle that EPC would name. -/
def State.seqFault (s : State) (c : Nat) (k : FKind) (pc epc vaddr pte : Word) : State :=
  let co := s.core c
  match co.unit with
  | none => s
  | some u =>
    let x := co.unitCtx
    let r := s.seqRecord c k pc vaddr pte
    let s := s.onCore c fun co => { co with seq := { co.seq with phase := .faulted, pc := epc } }
    let s := s.takeFault x r (.seq c) 1 u.cls
    let erec := ((s.partOf x).sluices.getLast?.map fun q => q.recAddr).getD 0
    s.onCore c fun co => { co with seq := { co.seq with fault := some ⟨k, epc, erec, false⟩ } }

/-- Delivery of a kept fault to the sequencer (R112): EPC, ECAUSE and EREC are set and fetch moves to TVEC in handler mode.
With TVEC 0, or for a fault that was raised in handler mode (`inHandler`), KEEP acts as ESCALATE. `epc` is none for a fault that no bundle of the
sequencer raised: its own fault that still waits for a decision stays. -/
def State.deliver (s : State) (c : Nat) (k : FKind) (epc : Option Word) (erec : Word) (rtn inHandler : Bool) : State :=
  let co := s.core c
  if co.seq.tvec = 0 || inHandler then s.failContext co.unitCtx
  else s.onCore c fun co => { co with seq := { co.seq with
    epc := epc.getD co.seq.pc
    ecause := BitVec.ofNat 64 (k.code + b2n rtn <<< 16)
    erec := erec
    handler := true
    pc := co.seq.tvec
    phase := .run
    stall := none
    fault := if epc.isSome then none else co.seq.fault } }

/-! ### Starting units (R129, R133, R218) -/

/-- The base of the save image of a core of a context: home and byte (R108). -/
def Context.imageBase (k : Context) (c : Nat) : Nat × Nat :=
  (baseHome k.save, baseFrame k.save * 4096 + logical k.cores c * 0x2000000)

/-- A sequencer unit starts on a core (R129, R133): its accumulator banks and tiles are undefined (R189), the receive-queue words reset (R381). -/
def State.startSeq (s : State) (c x : Nat) (task : Option Nat) (launch : BitVec 32) (index cls : Nat) (entry arg mode : Word) :
    State :=
  let (h, base) := (s.ctx x).imageBase c
  let m := s.home h
  let s := s.onCtx x fun q => { q with rqs := q.rqs.filter fun e => e.1 / 16 ≠ logical q.cores c }
  s.onCore c fun k =>
    let k := k.clearUnit
    { k with
      arr := { k.arr with bank0 := Memory.zero.undefRange 0 0x80000, bank1 := Memory.zero.undefRange 0 0x80000 }
      unit := some ⟨BitVec.ofNat 4 (x / 16), BitVec.ofNat 8 (x % 16), launch, task, index, cls, false⟩
      scalar := m.blit (base + 0x700000) 0x10000 Memory.zero 0
      bind := m.blit (base + 0x710000) 0x2000 Memory.zero 0
      tile := k.tile.undefRange 0 0x1000000
      seq := { Seq.reset with
        phase := .run
        s := ((((Vector.replicate 64 (some 0)).setIfInBounds 1 (some arg)).setIfInBounds 2 (some (launch.setWidth 64))).setIfInBounds 3
          (some (BitVec.ofNat 64 c))).setIfInBounds 4 (some (BitVec.ofNat 64 index))
        c := (Vector.replicate 16 (some false)).setIfInBounds 0 (some true)
        mode := mode
        pc := entry
        readyAt := s.cycle } }

/-- A lane unit starts (R218): `place` gives the band slots on each core, in placement order. -/
def State.startLanes (s : State) (x slot index : Nat) (launch : BitVec 32) (r : BitVec 512) (place : List (Nat × Nat)) : State :=
  let strands := recStrands r
  let mode := BitVec.ofNat 64 (if tf r 332 1 = 1 then tf r 328 4 else 0)
  (place.foldl (fun (acc : State × Nat) cn =>
    let (s, j) := acc
    let left := min 64 (strands - 64 * j)
    let b := Band.start (BitVec.ofNat 4 (x / 16)) (BitVec.ofNat 8 (x % 16)) (.unit slot index j) (16 * (tf r 333 3 + 1))
      [(0, BitVec.ofNat 64 (tf r 64 64)), (1, BitVec.ofNat 64 index), (2, BitVec.ofNat 64 j), (3, BitVec.ofNat 64 strands),
       (4, launch.setWidth 64)] mode (BitVec.ofNat 64 (tf r 0 64)) (recPrio r) s.cycle (BitVec.ofNat 64 (2 ^ left - 1))
    (s.onCore cn.1 fun k => { k with bands := aput k.bands cn.2 b }, j + 1)) (s, 0)).1

/-! ### Band records (R229) and leaf records (R319) -/

/-- The code of a band state, in the order of R216. -/
def BState.code : BState → Nat
  | .free => 0 | .loading => 1 | .ready => 2 | .issuing => 3 | .waiting => 4 | .parked => 5 | .held => 6 | .halted => 7
  | .done => 8

/-- A queue entry's 512 bytes. -/
def entryBytes (e : List Word) : List Byte := (List.range 64).flatMap fun i => bytesOfNat 8 (e.getD i 0).toNat

/-- The bytes of a band record, by offset (R229); `VREG` − 1 is taken modulo 32, its field's range (log entry 28). -/
def Band.record (b : Band) (cycle : Nat) : List (Nat × List Byte) :=
  let w := fun (x : Word) => bytesOfNat 8 x.toNat
  let rank := match b.of with | .gang _ r => r | .unit _ _ j => j
  [(0x000, b.b.toList.flatMap w), (0x380, b.p.toList.flatMap w), (0x3B8, bytesOfNat 8 b.bp.toNat), (0x3C0, w b.pc),
   (0x3C8, w b.live ++ w b.dead ++ w b.exited), (0x3E0, w (b.unfinished.getD 0)),
   (0x3E8, bytesOfNat 8 (b.tileCtr % 2 ^ 16 ||| b.st.code <<< 16 ||| (b.cls % 16) <<< 20 ||| ((b.vregs / 16 + 30) % 32) <<< 24
      ||| (rank % 8) <<< 29 ||| b.stack.length <<< 32)),
   (0x3F0, w b.mode ++ w b.flag), (0x400, bytesOfNat 8 (min 4096 (cycle - b.readySince))),
   (0x408, bytesOfNat 8 (b.mmjQ.length ||| b.resultQ.length <<< 8)),
   (0x440, (List.range 16).flatMap fun i => match aget b.q i with
      | some q => bytesOfNat 8 (q.kind ||| q.ch <<< 4) ++ w q.word
      | none => bytesOfNat 16 0),
   (0x540, b.stack.flatMap fun e => bytesOfNat 8 (e.pc.toNat ||| b2n e.join) ++ w e.mask),
   (0x740, b.staging.map fun e => BitVec.ofNat 8 e.1), (0x800, b.staging.flatMap fun e => entryBytes e.2)]

/-- The word of a leaf record (R319). -/
def BarNode.word (n : BarNode) : Nat :=
  let st := match n.st with | .idle => 0 | .armed => 1 | .collecting => 2 | .flipping => 3
  let o := n.latched.map fun a => a.ops
  let f := fun (g : BarOps → Nat) => (o.map g).getD 0
  st <<< 8 ||| b2n n.ph <<< 11 ||| f (fun o => o.lcnt.toNat) <<< 12 ||| f (fun o => o.ccnt.toNat) <<< 19
    ||| f (fun o => o.dcnt.toNat) <<< 21 ||| f (fun o => o.rid.toNat) <<< 25 ||| f (fun o => o.lvl.toNat) <<< 29
    ||| f (fun o => b2n o.f) <<< 31 ||| b2n n.pf <<< 32 ||| (n.came.length % 128) <<< 33

/-! ### Pre-emption and resumption (R106 to R111) -/

/-- The pre-emptions under way on a core: context slot, class threshold, cycle of the freeze. -/
def State.freezes (s : State) (c : Nat) : List (Nat × Nat × Nat) :=
  (List.range 256).filterMap fun x => ((s.ctx x).freezing.find? fun f => f.1 = c).map fun f => (x, f.2)

/-- Whether a pre-emption takes a core's sequencer unit: a threshold of 16 or more spares it (log entry 109). -/
def Core.seqLeaves (k : Core) (x t : Nat) : Bool :=
  match k.unit with
  | some u => k.runs x && u.cls < t && t < 16
  | none => false
/-- Whether a pre-emption under way takes a core's sequencer unit: what it has queued and not started stays queued (R107). -/
def State.seqHeld (s : State) (c : Nat) : Bool := (s.freezes c).any fun f => (s.core c).seqLeaves f.1 f.2.1
/-- Whether a pre-emption takes a band. -/
def Core.bandLeaves (k : Core) (x t : Nat) (b : Band) : Bool :=
  b.slot = x && match b.of with
    | .gang _ _ => k.seqLeaves x t
    | .unit _ _ _ => b.cls % 16 < t % 16
/-- The bands that a pre-emption takes. -/
def Core.leaving (k : Core) (x t : Nat) : List (Nat × Band) := k.bands.filter fun b => k.bandLeaves x t b.2

/-- The distinct lane units among bands: task slot, unit index. -/
def laneUnitsOf (bs : List (Nat × Band)) : List (Nat × Nat) :=
  bs.foldl (fun acc e => match e.2.of with
    | .unit t i _ => if acc.contains (t, i) then acc else acc ++ [(t, i)]
    | .gang _ _ => acc) []
/-- Whether a copy command was issued by one of some lane units. -/
def CopyCmd.ofUnits (m : CopyCmd) (us : List (Nat × Nat)) : Bool := m.ofLanes && us.any fun u => m.task = some u.1 && m.unit = some u.2

/-- The commands that a `PREL` or `FENCE` in progress of bands waits for: it completes before the bands are saved (R309). -/
def State.awaited (s : State) (c : Nat) (out : List (Nat × Band)) : List Nat :=
  (out.flatMap fun b => match b.2.wait with | .fence _ cs => cs | _ => [])
  ++ s.pens.flatMap fun o => match o.who with
    | .band d n => if d = c && out.any (fun b => b.1 = n) then o.copies else []
    | _ => []
/-- Whether a queued command stays queued because its unit is being pre-empted (R107); one that a `PREL` or `FENCE` in progress waits for, or that
stands before such a one, starts (R309). -/
def State.cmdHeld (s : State) (c ch : Nat) (m : CopyCmd) : Bool :=
  let k := s.core c
  (s.freezes c).any fun f =>
    let out := k.leaving f.1 f.2.1
    (if m.ofLanes then m.ctx = f.1 && m.ofUnits (laneUnitsOf out) else k.seqLeaves f.1 f.2.1)
    && !(((k.chans[ch]?).getD []).any fun q => (s.awaited c out).contains q.id)

/-! ### Results in their landing ranges (R74, R75) and the SEQ component (R108, R110) -/

/-- Writes a landed value into its register. -/
def Seq.land1 (q : Seq) (l : Landing) : Seq :=
  match l.file with
  | 0 => { q with s := q.s.setIfInBounds l.reg l.value }
  | 1 => { q with c := q.c.setIfInBounds l.reg (l.value.map fun v => v.getLsbD 0) }
  | 2 => { q with t := q.t.setIfInBounds l.reg l.value }
  | 3 => { q with kc := l.value }
  | _ => { q with fc := l.value }

/-- Lands every result whose range has passed by cycle `now`. -/
def Seq.settle (q : Seq) (now : Nat) : Seq :=
  ((q.land.filter fun l => l.last ≤ now).foldl Seq.land1 q) |> fun r => { r with land := q.land.filter fun l => now < l.last }

/-- Whether a register lies inside a landing range at cycle `now`. -/
def Seq.inRange (q : Seq) (file reg now : Nat) : Bool := q.land.any fun l => l.file = file && l.reg = reg && now < l.last

/-- A register's value, or none where it reads undefined. -/
def Seq.value (q : Seq) (file reg now : Nat) : Option Word :=
  if q.inRange file reg now then none
  else match file with
    | 0 => (q.s[reg]?).getD none
    | 1 => ((q.c[reg]?).getD none).map b2w
    | 2 => (q.t[reg]?).getD none
    | 3 => q.kc
    | _ => q.fc

/-- The latch-bank entries of results in flight at cycle i (R110), 16 bytes each. -/
def latchBank (land : List Landing) (i : Nat) : List Byte :=
  ((land.filter fun l => i < l.last).take 64).flatMap fun l =>
    bytesOfNat 8 (1 + b2n l.value.isNone * 2 + (l.last - i) % 256 * 2 ^ 46 + l.reg % 64 * 2 ^ 54 + l.file % 16 * 2 ^ 60)
      ++ bytesOfNat 8 (l.value.getD 0).toNat

/-- The 4,096 bytes of the SEQ component at cycle i with WREM (R108, R110): s, c, t, KC, FC, ROT, mode and flag words, EPC, ECAUSE, EREC,
TVEC, ESCR, handler mode, resume address, WREM, and the latch bank at 0x800 (the order before 0x800 is log entry 24's). -/
def State.seqBytes (s : State) (q : Seq) (i wrem : Nat) : List Byte :=
  let q := q.settle i
  let w := fun (f r : Nat) => bytesOfNat 8 ((q.value f r i).getD (s.free (2 ^ 43 + 128 * f + r))).toNat
  let head := (List.range 64).flatMap (w 0) ++ (List.range 16).flatMap (w 1) ++ (List.range 64).flatMap (w 2) ++ w 3 0 ++ w 4 0
    ++ bytesOfNat 8 q.rot.toNat
    ++ [q.mode, q.flag, q.epc, q.ecause, q.erec, q.tvec, q.escr, b2w q.handler, q.pc].flatMap (fun (x : Word) => bytesOfNat 8 x.toNat)
    ++ bytesOfNat 8 wrem
  let bank := latchBank q.land i
  head ++ List.replicate (0x800 - head.length) 0 ++ bank ++ List.replicate (0x800 - bank.length) 0

/-! ### The LANE and QBUF components (R108, R229) -/

/-- The n bytes of a local home from an address as a number. -/
abbrev State.rd (s : State) (h base off n : Nat) : Nat := s.homeNat h (base + off) n

/-- Where a band's record lies in the image. -/
def recordAt (n : Nat) : Nat := 0x200000 + (n / 16) * 0x50000 + 0x40000 + (n % 16) * 0x1000
/-- Where a band's vector registers lie in the image, when register `v` of its slice's component is their first. -/
def vectorsAt (n v : Nat) : Nat := 0x200000 + (n / 16) * 0x50000 + 512 * v
/-- Where a band's endpoint buffers lie in the image. -/
def buffersAt (n : Nat) : Nat := 0x480000 + 0x5000 * n

/-- Writes a saved band's record and endpoint buffers. -/
def State.putRecord (s : State) (h base : Nat) (e : Nat × Band) : State :=
  if 128 ≤ e.1 then s
  else
    let s := (e.2.record s.cycle).foldl (fun s r => s.homeWrite h (base + recordAt e.1 + r.1) r.2) s
    let s := s.homeWrite h (base + buffersAt e.1) (e.2.mmjQ.flatMap entryBytes)
    s.homeWrite h (base + buffersAt e.1 + 0x4000) (e.2.resultQ.flatMap entryBytes)
/-- Writes a saved band's vector registers; what is undefined in them is undefined there. -/
def State.putVectors (s : State) (h base v : Nat) (e : Nat × Band) : State :=
  if 128 ≤ e.1 || 512 < v + e.2.vregs then s
  else
    let a := base + vectorsAt e.1 v
    let s := s.setHome h ((s.home h).undefRange a (a + 512 * e.2.vregs))
    (e.2.v.filter fun r => r.1 < 64 * e.2.vregs).foldl (fun s r => s.homeWrite h (a + 8 * r.1) (bytesOfNat 8 r.2.toNat)) s

/-- The defined words among the n from an address of a store: place and value. -/
def Memory.words (m : Memory) (a n : Nat) : List (Nat × Word) :=
  let sub : Memory := ⟨cellsBelow (cellsFrom m.cells a) (a + 8 * n), m.undef.filter fun r => r.1 < a + 8 * n && a < r.2⟩
  (List.range n).filterMap fun i =>
    let bs := (List.range 8).filterMap fun j => sub.read (a + 8 * i + j)
    if bs.length = 8 then some (i, BitVec.ofNat 64 (natOfBytes bs)) else none

/-- The band state of a code. -/
def BState.ofCode (n : Nat) (b : BState) : BState :=
  [BState.free, .loading, .ready, .issuing, .waiting, .parked, .held, .halted, .done].getD n b

/-- A queue entry from 512 bytes. -/
def entryOf (bs : List Byte) : List Word := (List.range 64).map fun i => BitVec.ofNat 64 (natOfBytes ((bs.drop (8 * i)).take 8))

/-- A band as its record, vector registers and endpoint buffers in the save area give it (R229); what the record does not hold comes from the image
that the device keeps. -/
def State.getBand (s : State) (h base : Nat) (vbase : List (Nat × Nat)) (e : Nat × Band) : Band :=
  if 128 ≤ e.1 then e.2
  else
    let b := e.2
    let r := base + recordAt e.1
    let rd := fun (off n : Nat) => s.rd h r off n
    let w := fun (off : Nat) => BitVec.ofNat 64 (rd off 8)
    let info := rd 0x3E8 8
    let st := BState.ofCode (bf info 16 4) b.st
    let vregs := 16 * ((bf info 24 5 + 1) % 32 + 1)
    let v := (aget vbase e.1).getD 512
    let counts := rd 0x408 8
    let queue := fun (off n : Nat) => (List.range n).map fun i => entryOf (s.homeBytes h (base + buffersAt e.1 + off + 512 * i) 512)
    { b with
      b := Vector.ofFn fun (i : Fin 112) => w (8 * i.val)
      p := Vector.ofFn fun (i : Fin 7) => w (0x380 + 8 * i.val)
      bp := BitVec.ofNat 7 (rd 0x3B8 8)
      pc := w 0x3C0
      live := w 0x3C8
      dead := w 0x3D0
      exited := w 0x3D8
      unfinished := if st = .parked then some (w 0x3E0) else b.unfinished
      tileCtr := bf info 0 16
      st := st
      cls := bf info 20 4
      vregs := vregs
      v := if 512 < v + vregs then b.v else (s.home h).words (base + vectorsAt e.1 v) (64 * vregs)
      mode := w 0x3F0
      flag := w 0x3F8
      readySince := s.cycle - rd 0x400 8
      mmjQ := queue 0 (bf counts 0 6)
      resultQ := queue 0x4000 (bf counts 8 4)
      q := (List.range 16).filterMap fun i =>
        let k := rd (0x440 + 16 * i) 8
        if bf k 0 4 = 0 then none
        else some (i, ⟨bf k 0 4, bf k 4 2, w (0x448 + 16 * i), ((aget b.q i).map fun q => q.pushes).getD 0⟩)
      stack := (List.range (bf info 32 8)).map fun i =>
        let pc := w (0x540 + 16 * i)
        ⟨pc &&& ~~~1#64, pc.getLsbD 0, w (0x548 + 16 * i)⟩
      staging := (List.range b.staging.length).map fun i =>
        (rd (0x740 + i) 1, entryOf (s.homeBytes h (r + 0x800 + 512 * i) 512)) }

/-- Where the vector registers of a band that is saved begin in its slice's component: the lowest 16 registers' boundary with room; 512 without. -/
def vectorRoom (vbase : List (Nat × Nat)) (bands : List (Nat × Band)) (n vregs : Nat) : Nat :=
  (((List.range 32).map fun i => 16 * i).find? fun p => p + vregs ≤ 512 && vbase.all fun e =>
    e.1 / 16 ≠ n / 16 || p + vregs ≤ e.2 || e.2 + ((aget bands e.1).map fun b => b.vregs).getD 0 ≤ p).getD 512

/-! ### The LEAF component (R319) -/

/-- A leaf as its record gives it; which bands have arrived comes from the image that the device keeps. -/
def BarNode.ofWord (l : BarNode) (w : Nat) : BarNode :=
  let st : NState := [NState.idle, .armed, .collecting, .flipping].getD (bf w 8 3) l.st
  let ops : BarOps := ⟨(l.latched.map fun a => a.ops.leaf).getD 0, BitVec.ofNat 7 (bf w 12 7), BitVec.ofNat 2 (bf w 29 2), BitVec.ofNat 4 (bf w 25 4),
    BitVec.ofNat 4 (bf w 21 4), BitVec.ofNat 2 (bf w 19 2), bitN w 31⟩
  { l with st := st, ph := bitN w 11, pf := bitN w 32, latched := l.latched.map fun a => { a with ops := ops } }

/-- A leaf's arrivals of a context with its bands renamed. -/
def BarNode.rename (l : BarNode) (x : Nat) (f : Nat → Nat) : BarNode :=
  { l with
    came := if l.ofCtx x then l.came.map f else l.came
    held := l.held.map fun a => if a.ctx = x then { a with src := f a.src } else a }

/-- The leaves of an image come back to a core: an idle leaf of the core takes the saved one's state; one that is in use by another context holds the
saved one's arrivals for its next phase. The bands that come back are named by their slots again. -/
def Core.takeLeaves (k : Core) (x : Nat) (saved : List (Nat × BarNode)) (f : Nat → Nat) : Core :=
  let merged := saved.foldl (fun (l : List (Nat × BarNode)) e =>
    match aget l e.1 with
    | none => aput l e.1 e.2
    | some o =>
      if o.st = .idle then aput l e.1 e.2
      else match e.2.latched with
        | some a => aput l e.1 { o with held := o.held ++ e.2.came.map fun b => { a with src := b } }
        | none => l) k.leaves
  { k with leaves := merged.map fun e => (e.1, e.2.rename x f) }

/-- Writes the components of an image into the save area (R108, R109). The bytes of a component whose layout the specification does not give are
undefined. `new` are the bands that this save adds. -/
def State.saveBytes (s : State) (c x : Nat) (im : SaveImage) (withSeq : Bool) (new : List Nat) : State :=
  let k := s.core c
  let (h, base) := (s.ctx x).imageBase c
  let copy := fun (s : State) (m : Memory) (off n : Nat) => s.setHome h (m.blit 0 n (s.home h) (base + off))
  let blur := fun (s : State) (off n : Nat) => s.setHome h ((s.home h).undefRange (base + off) (base + off + n))
  let s := (List.range 64).foldl (fun s n =>
    s.homeWrite h (base + 0x1B000 + 64 * n) (bytesOfNat 8 (((aget im.leaves n).map BarNode.word).getD 0))) s
  let s := blur s 0x13000 0x8000
  let s := if withSeq then
      let s := s.homeWrite h base (s.seqBytes im.seq im.frozen (im.seq.readyAt - (im.frozen + 1)))
      let s := if im.sset.getLsbD 1 then copy s k.scalar 0x1000 0x10000 else s
      let s := if im.sset.getLsbD 2 then copy s k.bind 0x11000 0x2000 else s
      let s := if im.sset.getLsbD 5 then blur s 0x20000 0x41000 else s
      let s := if im.sset.getLsbD 6 then
          copy (copy s k.arr.bank0 0x100000 0x80000) k.arr.bank1 0x180000 0x80000 else s
      if im.sset.getLsbD 8 then copy s k.tile 0x1000000 0x1000000 else s
    else s
  (im.bands.filter fun e => new.contains e.1).foldl (fun s e =>
    (s.putRecord h base e).putVectors h base ((aget im.vbase e.1).getD 512) e) s

/-- The context goes PREEMPTED once no core runs a unit of it, no launch waits for placement and an image is held (R106). -/
def State.settlePreempt (s : State) (x : Nat) : State :=
  let k := s.ctx x
  let running := (List.range 64).any fun c => (s.core c).runs x || (s.core c).hasBands x
  if k.st = .running && !running && !(k.launches.any fun l => l.2.st = .pending) && !k.images.isEmpty then
    s.onCtx x fun k => { k with st := .preempted }
  else s

/-- Where saved bands go on a core: their own slots when these are free and the registers fit (R17), else the lowest free ones; none when
there is no room. -/
def Core.slotsFor (k : Core) (bs : List (Nat × Band)) : Option (List Nat) :=
  let fits := (List.range 8).all fun m => ((bs.filter fun b => b.1 / 16 = m).map fun b => b.2.vregs).sum ≤ k.sliceFree m
  if fits && bs.all fun b => (aget k.bands b.1).isNone then some (bs.map fun b => b.1)
  else
    let l := k.pickSlots ((bs.map fun b => b.2.vregs).foldl max 16) bs.length
    if l.length = bs.length then some l else none

/-- A band as it is saved: a fence whose work is done has completed (R309), an acquire that waits is withdrawn. -/
def Band.saved (b : Band) : Band :=
  match b.wait with
  | .fence _ _ => { b with pc := b.pc + 8, wait := .none, unfinished := none }
  | .pennant _ => { b with wait := .none }
  | _ => b

/-- A core's pre-emption save (R107, R108): the image is written, the bands and tiles freed, and the pre-empted units return to the core's list
(R340). -/
def State.saveCore (s : State) (c x t : Nat) : State :=
  let k := s.core c
  let withSeq := k.seqLeaves x t
  let out := k.leaving x t
  let units := laneUnitsOf out
  let j := logical (s.ctx x).cores c
  let old := aget (s.ctx x).images j
  let oldBands := (old.map fun o => o.bands).getD []
  let slots := (({ Core.reset with bands := oldBands } : Core).slotsFor out).getD ((List.range out.length).map fun i => 128 + oldBands.length + i)
  let place := fun (n : Nat) => (((out.map fun b => b.1).zip slots).find? fun p => p.1 = n).map fun p => p.2
  let rename := fun (n : Nat) => ((place n).map fun m => 1000 + m).getD n
  let mine := fun (r : RecvQ) => match r.owner with | .band n => (place n).isSome | _ => false
  let ownerTo := fun (r : RecvQ) => match r.owner with | .band n => { r with owner := .band ((place n).getD n) } | _ => r
  let at1 := (((s.ctx x).freezing.find? fun f => f.1 = c).map fun f => f.2.2).getD s.cycle
  let goes := fun (m : CopyCmd) => if m.ofLanes then m.ofUnits units else withSeq
  let issuerTo := fun (m : CopyCmd) => match m.issuer with
    | .band d n => if m.ofLanes then { m with issuer := .band d ((place n).getD n) } else m
    | _ => m
  let laneIds := k.chans.toList.flatMap fun l => (l.filter fun m => m.ofLanes && !goes m).map fun m => m.id
  let saved := out.map fun b => (((place b.1).getD b.1), b.2.saved)
  let bands := saved.foldl (fun l b => aput l b.1 b.2) oldBands
  let vbase := saved.foldl (fun (l : List (Nat × Nat)) b => aput l b.1 (vectorRoom l bands b.1 b.2.vregs))
    (((old.map fun o => o.vbase).getD []).filter fun e => oldBands.any fun b => b.1 = e.1)
  let rest := k.bands.filter fun b => (place b.1).isNone
  let stays := (k.runs x && !withSeq) || rest.any fun b => b.2.slot = x
  let leaves := k.leaves.map fun e => (e.1, e.2.rename x rename)
  let im : SaveImage :=
    { sset := if withSeq then (s.ctx x).sset else (old.map fun o => o.sset).getD (s.ctx x).sset
      unit := if withSeq then k.unit else old.bind fun o => o.unit
      seq := if withSeq then k.seq.settle at1 else (old.map fun o => o.seq).getD Seq.reset
      frozen := if withSeq then at1 else (old.map fun o => o.frozen).getD at1
      tiles := if withSeq then k.tiles else (old.map fun o => o.tiles).getD []
      ranges := ((old.map fun o => o.ranges).getD []) ++ k.ranges.filter fun r =>
        if r.ofCopies laneIds then false
        else if r.ofCopies (k.chans.toList.flatMap fun l => (l.filter goes).map fun m => m.id) then true else withSeq
      chans := (Vector.range 4).map fun (i : Nat) =>
        ((old.bind fun o => o.chans[i]?).getD []) ++ (((k.chans[i]?).getD []).filter goes).map issuerTo
      arr := if withSeq then k.arr else (old.map fun o => o.arr).getD ArrayS.reset
      invs := if withSeq then k.invs else (old.map fun o => o.invs).getD []
      bands := bands
      vbase := vbase
      leaves := if stays then (old.map fun o => o.leaves).getD [] else leaves
      lq := if withSeq then k.lq else (old.map fun o => o.lq).getD (Vector.replicate 4 [])
      chtab := if withSeq then k.chtab else (old.map fun o => o.chtab).getD []
      rq := ((old.map fun o => o.rq).getD []) ++ (k.rq.filter fun e => if k.laneQueue e.2 then mine e.2 else withSeq).map fun e => (e.1, ownerTo e.2) }
  let s := s.saveBytes c x im withSeq slots
  let gone : List Nat := im.chans.toList.flatMap fun (l : List CopyCmd) => l.map CopyCmd.id
  let ctx := BitVec.ofNat 8 (x % 16)
  let back : List LEntry :=
    (match k.unit with
      | some u => if withSeq then [⟨.seqUnit, u.task, u.index, [c], ctx, true⟩] else []
      | none => [])
    ++ units.map fun e => ⟨.laneUnit, some e.1, e.2, [c], ctx, true⟩
  let s := s.onCtx x fun q => { q with
    images := if im.unit.isNone && im.bands.isEmpty then q.images else aput q.images j im
    freezing := q.freezing.filter fun f => f.1 ≠ c }
  let s := s.onCore c fun k =>
    let k := { k with chans := k.chans.map fun (l : List CopyCmd) => l.filter fun m => !(m.ofLanes && goes m) }
    let k := if withSeq then k.clearUnit else k
    let k := { k with
      bands := rest, returning := k.returning ++ back, rq := k.rq.filter fun e => !mine e.2
      ranges := k.ranges.filter fun (r : Range) => withSeq || !r.ofCopies gone }
    { k with leaves := if k.owner = none then [] else if stays then leaves else dropArrivals x k.leaves }
  let s := { s with pens := s.pens.filter fun o => match o.who with
      | .band c' n => !(c' = c && (place n).isSome)
      | _ => true }
  (s.settlePreempt x).coreFreed c

/-- A restored band (R217): it passes through LOADING into READY when it was saved READY, WAITING or ISSUING; a PARKED band issues again at once
(R279). What it waited for and has entered once (an arrival at a barrier, a nested invocation, a joint operation, a drain marker) it waits for
still. -/
def Band.restored (b : Band) (cycle : Nat) : Band :=
  match b.st with
  | .waiting | .issuing | .ready | .loading | .parked => { b with st := .loading, readySince := b.readySince + 1, readyAt := cycle }
  | _ => { b with readyAt := cycle }

/-- Leaf flips that were held for an image are delivered with its LEAF component (R318). -/
def State.dueFlips (s : State) (x j : Nat) : List Nat := (s.heldFlips.filter fun f => f.ctx = x && f.image = j).map fun f => f.leaf

/-- Whether a receive queue of an image is owned by a band of a lane unit. -/
def SaveImage.laneQueue (im : SaveImage) (r : RecvQ) : Bool :=
  match r.owner with
  | .band n => ((aget im.bands n).map fun b => b.inv.isNone).getD false
  | _ => false

/-- The gang bands of an image: slot in the image, slot on the core (where their invocations know them). -/
def SaveImage.gang (im : SaveImage) : List (Nat × Nat) :=
  im.bands.filterMap fun b => match b.2.of with
    | .gang i r => some (b.1, ((im.invs.find? fun v => v.id = i).bind fun v => v.bands[r]?).getD b.1)
    | .unit _ _ _ => none

/-- The latch bank of a save area, as results that land after cycle v (R110, R111). -/
def State.readBank (s : State) (h a v : Nat) : List Landing :=
  (List.range 64).filterMap fun i =>
    let w := s.homeNat h (a + 16 * i) 8
    if !bitN w 0 then none
    else some ⟨bf w 60 4, bf w 54 6, if bitN w 1 then none else some (BitVec.ofNat 64 (s.homeNat h (a + 16 * i + 8) 8)), v, v + bf w 46 8⟩

/-- The saved leaves of an image as their records in the save area give them. -/
def State.readLeaves (s : State) (h base : Nat) (im : SaveImage) : List (Nat × BarNode) :=
  im.leaves.map fun e => (e.1, e.2.ofWord (s.homeNat h (base + 0x1B000 + 64 * e.1) 8))

/-- A pre-empted sequencer unit resumes on a core from its image (R109, R111). -/
def State.resumeSeq (s : State) (c x : Nat) : State :=
  let j := logical (s.ctx x).cores c
  match aget (s.ctx x).images j with
  | none => s
  | some im =>
    let (h, base) := (s.ctx x).imageBase c
    let m := s.home h
    let shift := s.cycle - im.frozen
    let part := fun (bit off n : Nat) => if im.sset.getLsbD bit then m.blit (base + off) n Memory.zero 0
                  else Memory.zero.undefRange 0 n
    let wipe := fun (l : Latch) => if im.sset.getLsbD 5 then l else { l with undef := true, w := [], scales := [] }
    let gang := im.gang
    let name := fun (n : Nat) => ((gang.find? fun g => 1000 + g.1 = n).map fun g => g.2).getD n
    let ids := im.chans.toList.flatMap fun l => (l.filter fun m => !m.ofLanes).map fun m => m.id
    let laneIds := im.chans.toList.flatMap fun l => (l.filter fun m => m.ofLanes).map fun m => m.id
    let leaves := s.readLeaves h base im
    let s := s.onCore c fun k => Core.takeLeaves (x := x) (saved := leaves) (f := name) { k with
      unit := im.unit
      seq := { im.seq with
        phase := im.seq.phase
        land := s.readBank h (base + 0x800) s.cycle
        readyAt := max im.seq.readyAt (im.frozen + 1) + shift
        entry := im.seq.entry.map fun e => e + shift }
      scalar := part 1 0x1000 0x10000
      bind := part 2 0x11000 0x2000
      tile := part 8 0x1000000 0x1000000
      tiles := im.tiles
      ranges := (im.ranges.filter fun r => !r.ofCopies laneIds) ++ k.ranges
      chans := (Vector.range 4).map fun (i : Nat) => (((im.chans[i]?).getD []).filter fun m => !m.ofLanes) ++ (k.chans[i]?).getD []
      arr := { (if im.arr.fault.isNone then im.arr.resumeStream else im.arr) with
        live := wipe im.arr.live
        shadow := wipe im.arr.shadow
        bank0 := part 6 0x100000 0x80000
        bank1 := part 6 0x180000 0x80000
        disabled := k.arr.disabled }
      invs := im.invs
      bands := gang.foldl (fun bs g => match aget im.bands g.1 with
        | some b => aput bs g.2 ((s.getBand h base im.vbase (g.1, b)).restored s.cycle)
        | none => bs) k.bands
      lq := im.lq
      chtab := im.chtab
      rq := k.rq.foldl (fun l e => aput l e.1 e.2) (im.rq.filter fun e => !im.laneQueue e.2) }
    s.onCtx x fun q => { q with images := aput q.images j { im with
      unit := none
      leaves := []
      rq := im.rq.filter fun e => im.laneQueue e.2
      ranges := im.ranges.filter fun r => r.ofCopies laneIds
      chans := im.chans.map fun (l : List CopyCmd) => l.filter fun m => !ids.contains m.id
      bands := im.bands.filter fun b => b.2.inv.isNone } }

/-- The bands of a lane unit in an image. -/
def SaveImage.lanes (im : SaveImage) (task index : Nat) : List (Nat × Band) :=
  im.bands.filter fun b => match b.2.of with | .unit t i _ => t = task && i = index | .gang _ _ => false

/-- A pre-empted lane unit's bands on a core resume from its image in the given slots, with the receive queues that they own and the commands that
the unit has queued. -/
def State.resumeLanes (s : State) (c x task index : Nat) (slots : List Nat) : State :=
  let j := logical (s.ctx x).cores c
  match aget (s.ctx x).images j with
  | none => s
  | some im =>
    let (h, base) := (s.ctx x).imageBase c
    let bs := (im.lanes task index).zip slots
    let slot := fun (n : Nat) => (bs.find? fun b => b.1.1 = n).map fun b => b.2
    let name := fun (n : Nat) => ((bs.find? fun b => 1000 + b.1.1 = n).map fun b => b.2).getD n
    let mine := fun (r : RecvQ) => match r.owner with | .band n => (slot n).isSome | _ => false
    let moved := fun (r : RecvQ) => match r.owner with
      | .band n => { r with owner := .band ((slot n).getD n) }
      | _ => r
    let cmds := fun (m : CopyCmd) => m.ofUnits [(task, index)]
    let issued := fun (m : CopyCmd) => match m.issuer with | .band _ n => { m with issuer := .band c ((slot n).getD n) } | _ => m
    let ids := im.chans.toList.flatMap fun l => (l.filter cmds).map fun m => m.id
    let leaves := s.readLeaves h base im
    let s := s.onCore c fun k => Core.takeLeaves (x := x) (saved := leaves) (f := name) { k with
      bands := bs.foldl (fun l b => aput l b.2 ((s.getBand h base im.vbase b.1).restored s.cycle)) k.bands
      chans := (Vector.range 4).map fun (i : Nat) => ((k.chans[i]?).getD []) ++ (((im.chans[i]?).getD []).filter cmds).map issued
      ranges := k.ranges ++ im.ranges.filter fun r => r.ofCopies ids
      rq := (im.rq.filter fun e => mine e.2).foldl (fun l e => aput l e.1 (moved e.2)) k.rq }
    s.onCtx x fun q => { q with images := aput q.images j { im with
      leaves := []
      rq := im.rq.filter fun e => !mine e.2
      ranges := im.ranges.filter fun r => !r.ofCopies ids
      chans := im.chans.map fun (l : List CopyCmd) => l.filter fun m => !ids.contains m.id
      bands := im.bands.filter fun b => match b.2.of with | .unit t i _ => !(t = task && i = index) | .gang _ _ => true } }

/-- Drops images that hold nothing any more. -/
def State.tidyImages (s : State) (x : Nat) : State :=
  s.onCtx x fun q => { q with images := q.images.filter fun e => e.2.unit.isSome || !e.2.bands.isEmpty }

end Sys2Proof.Machine
end

