-- ==== Sys2Proof/Machine/Decisions.lean ====
section
/-!
DEFINITION. Decisions: what is permitted, what each does, and what replaces a rejected one (R121, R174, R200, R273, R293, R354
to R357, R361, R362).
-/

namespace Sys2Proof.Machine

/-! ### The restart of an invocation (R174) -/

/-- A 64-byte handle span of argument i of an invocation. -/
def Inv.arg (i : Inv) (n : Nat) : Word := i.handles.getD n 0

/-- The snap area's parts (R174): argument, first byte in the snap area, length. -/
def Inv.snapParts (i : Inv) : List (Nat × Nat × Nat) :=
  ((List.range (bindTiles i.entry)).foldl (fun (acc : List (Nat × Nat × Nat) × Nat) n =>
    if bindDir i.entry n = 3 then
      let len := hEnd (i.arg n) - hBase (i.arg n)
      (acc.1 ++ [(n, acc.2, len)], acc.2 + len)
    else acc) ([], 64 * bindF i.entry 174 18)).1

/-- The byte after the snap area. -/
def Inv.snapEnd (i : Inv) : Nat := (i.snapParts.map fun p => p.2.1 + p.2.2).foldl max (64 * bindF i.entry 174 18)

/-- The rendezvous latch is cleared when the gang that holds it is freed. -/
def Core.dropJoint (k : Core) (ids : List Nat) : Core :=
  match k.arr.joint with
  | some j => if ids.contains j.inv then { k with arr := { k.arr with joint := none } } else k
  | none => k

/-- Restarts a top-level invocation with a fresh entry (R174): its bands and nested gang are freed, OUT arguments go to ALLOC,
INOUT arguments are restored, and it is queued at the head of the dispatch queue. -/
def State.restartInv (s : State) (c id : Nat) : State :=
  let k := s.core c
  match k.inv id with
  | none => s
  | some i =>
    let fresh := s.bindEntry k i.opc.toNat
    let keep : Nat := 1 <<< 99 ||| (2 ^ 18 - 1) <<< 174
    let entry := BitVec.ofNat 256 ((fresh.toNat &&& ((2 ^ 256 - 1) ^^^ keep)) ||| (i.entry.toNat &&& keep))
    let nested := (k.invs.filter fun v => v.parent = some id).map fun v => v.id
    let k := { k with bands := k.bands.filter fun b => !k.serves b.2 id }
    let k := nested.foldl (fun k n => k.dropRange (.nest n)) k
    let k := k.dropJoint (id :: nested)
    let k := (List.range (bindTiles i.entry)).foldl (fun (k : Core) n =>
      match bindDir i.entry n, i.tregs[n]? with
      | 2, some t => k.toState t.toNat .alloc
      | _, _ => k) k
    let k := if bindSnap i.entry then i.snapParts.foldl (fun (k : Core) p =>
        { k with tile := k.tile.blit p.2.1 p.2.2 k.tile (hBase (i.arg p.1)) }) k else k
    let again : Inv := { i with entry := entry, st := .queued, formed := false, bands := [] }
    let k := { k with invs := again :: k.invs.filter fun v => v.id ≠ id && !nested.contains v.id }
    (s.setCore c k).tidyPens

/-! ### Agents that wait for a page (R273, R279, R293) -/

/-- Whether a record is that of a fetch fault (R293). -/
def FRec.isFetch (r : FRec) : Bool :=
  r.mask = 0 && match r.kind with
  | .pageUnmapped | .pageAccess | .pagePoisoned | .tensorInvalid | .tensorBounds | .tableInvalid | .polderFault | .addrRange => true
  | .ueSeq => r.seqf
  | _ => false

/-- An agent that waits for a page goes on. -/
def State.resumeAgent (s : State) (who : Agent) : State :=
  match who with
  | .band c n =>
    match s.band c n with
    | some b => if b.st = .halted && b.unfinished.isNone && b.faultMask = 0 then
        match b.inv.bind (s.core c).topInv with
        | some t => s.resumeInv c t.id
        | none => s.onBand c n fun b => b.resume s.cycle
      else s.resumePark c n
    | none => s
  | .seq c => s.onCore c fun k => { k with seq := { k.seq with phase := if k.seq.phase = .faulted then .run else k.seq.phase, fault := none } }
  | .chan c ch => s.onCore c fun k =>
      let l := updWhere (fun (m : CopyCmd) => m.st = .parked) (fun m => { m with st := .moving }) ((k.chans[ch]?).getD [])
      { k with chans := k.chans.setIfInBounds ch l }
  | .array c => s.onCore c fun k => if k.arr.fault = some .operand then { k with arr := k.arr.resumeStream } else k
  | _ => s

/-- An agent that waits for a page goes HALTED after its decision failed (R355). -/
def State.haltAgent (s : State) (who : Agent) : State :=
  match who with
  | .band c n => s.onBand c n fun b => if b.st = .parked then { b with st := .halted, halt := .fault, heldDecision := false } else b
  | _ => s

/-! ### Page decisions (R273, R357) -/

/-- Takes n frames from a free-frame list (R357): entries that are too short leave unused. -/
def takeFrames (n : Nat) : List (Nat × Nat) → Option (Nat × List (Nat × Nat))
  | [] => none
  | (f, c) :: t =>
    if c < n then takeFrames n t
    else some (f, if c = n then t else (f + n, c - n) :: t)

/-- The frame that a page decision uses: the operand's, or one from the free-frame list of the home; none when the list is
empty. -/
def State.targetFrame (s : State) (p h n : Nat) (opb : Word) : Option Nat × State :=
  if opb ≠ 0 then (some opb.toNat, s)
  else
    let q := s.part p
    match takeFrames n (if h = 0 then q.free0 else q.free1) with
    | some (f, l) => (some f, s.onPart p fun q => if h = 0 then { q with free0 := l } else { q with free1 := l })
    | none => (none, s.onPart p fun q => if h = 0 then { q with free0 := [] } else { q with free1 := [] })

/-- The page that a record names by an address of a tensor: TLR, tensor, page and where its leaf entry lies. -/
def State.recordPage (s : State) (x : Nat) (r : FRec) : Option (BitVec 512 × Nat × Nat × Option (Nat × Nat × Word)) :=
  match s.tlr none x (tensorOf r.vaddr) with
  | .ok t =>
    if tlrSpan t ≤ offsetOf r.vaddr then none
    else
      let page := offsetOf r.vaddr / tlrPage t
      match s.leaf x t page with
      | .ok e => some (t, tensorOf r.vaddr, page, e)
      | .error _ => some (t, tensorOf r.vaddr, page, none)
  | .error _ => none

/-- How a page decision comes out: the state after it with the frame used, or the state in which it failed. -/
def State.pageDecision (s : State) (x kind : Nat) (opa opb : Word) (home : Nat) (t : BitVec 512) (tensor page : Nat)
    (place : Option (Nat × Nat × Word)) : Except State (State × Word) :=
  match place with
  | none => .error s
  | some (eh, ea, e) =>
    let p := x / 16
    let n := tlrPage t / 4096
    let vst := leafVst e
    if !leafV e && vst = 1 then .ok (s, opb)
    else if kind = 7 then
      if !leafV e && vst = 2 then .error s
      else
        let perm := (if opa.getLsbD 0 then 1 <<< 45 else 0) ||| (if opa.getLsbD 1 then 1 <<< 47 else 0)
          ||| (if opa.getLsbD 2 then 1 <<< 46 else 0)
        let kept := if leafV e then e.toNat &&& (1 <<< 43 ||| 1 <<< 44) else 0
        if home = 2 then
          if leafV e && baseHome e = 2 then
            let kb := (s.ctx x).keys
            let s := if baseSet kb then s.homeWrite (baseHome kb) (baseFrame kb * 4096 + 4 * bf e.toNat 28 12)
                (bytesOfNat 4 (s.free 5).toNat) else s
            let w := 1 <<< 63 ||| 2 <<< 61 ||| bf e.toNat 49 12 <<< 49 ||| (if opa.getLsbD 3 then 1 <<< 48 else 0) ||| perm ||| kept
              ||| bf e.toNat 0 40
            .ok ((s.homeWrite eh ea (bytesOfNat 8 w)).invalidate x (some tensor) page page none, 0)
          else .error s
        else
          match s.targetFrame p home n opb with
          | (none, s) => .error s
          | (some f, s) =>
            if !(s.part p).framesIn home f n then .error s
            else
              let w := 1 <<< 63 ||| home <<< 61 ||| perm ||| kept ||| f
              .ok ((s.homeWrite eh ea (bytesOfNat 8 w)).invalidate x (some tensor) page page none, BitVec.ofNat 64 f)
    else if kind = 8 then
      if !leafV e then .error s
      else
        match s.targetFrame p home n opb with
        | (none, s) => .error s
        | (some f, s) =>
          if !(s.part p).framesIn home f n then .error s
          else
            let (id, s) := s.newId
            let w := (e.toNat &&& (2 ^ 63 - 1)) ||| 1 <<< 40
            let s := s.homeWrite eh ea (bytesOfNat 8 w)
            let s := { s with migs := s.migs ++ [Migration.mk id x tensor page ea eh e home f false] }
            .ok (s.invalidate x (some tensor) page page (some id), BitVec.ofNat 64 f)
    else
      let resident := leafV e && baseHome e ≤ 1 && !s.pageLocked x t e
      if !(resident || (!leafV e && vst = 2)) then .error s
      else
        match s.targetFrame p home n opb with
        | (none, s) => .error s
        | (some f, s) =>
          if !(s.part p).framesIn home f n then .error s
          else
            let s := s.invalidate x (some tensor) page page none
            let s := s.setHome home ((s.home home).zeroRange (f * 4096) ((f + n) * 4096))
            let w := 1 <<< 63 ||| home <<< 61 ||| (e.toNat &&& (31 <<< 43)) ||| f
            .ok (s.homeWrite eh ea (bytesOfNat 8 w), BitVec.ofNat 64 f)

/-! ### What is permitted (R354, R355) -/

/-- The sluices at which a decision kind is permitted. -/
def sluiceOk (k : Nat) (sl : Sluice) : Bool :=
  match k with
  | 0 | 10 => true
  | 1 => sl = .dispatch || sl = .complete
  | 2 => sl = .steal
  | 3 => sl = .preempt || sl = .dispatch
  | 4 | 5 | 6 | 7 | 8 | 9 | 11 => sl = .fault
  | _ => false

/-- Whether OPA, OPB and IMM14 have the form that R354 gives the kind. -/
def operandsOk (k : Nat) (opa opb : Word) (imm : BitVec 14) : Bool :=
  bf opa.toNat 16 48 = 0 && match k with
  | 1 => opa.toNat < 8 && imm = 0
  | 2 => opa.toNat < 64 && popcount opb.toNat 64 = 1 && imm = 0
  | 3 => opa.toNat < 64 && opb = 0 && bf imm.toNat 4 10 = 0
  | 4 => opa = 0 && imm = 0
  | 7 => opa.toNat < 16 && bf imm.toNat 2 12 = 0 && imm.toNat ≤ 2 && (imm.toNat ≠ 2 || opb = 0)
  | 8 | 11 => opa = 0 && bf imm.toNat 2 12 = 0 && imm.toNat ≤ 1
  | _ => opa = 0 && opb = 0 && imm = 0

/-- The cores of a mask, whose lists have room and which are in service. -/
def State.placeable (s : State) (l : List Nat) : Bool := l.all fun c => (s.core c).list.length < 8 && (s.core c).degr < 2

/-- Whether PLACE is permitted (R355). -/
def State.placeOk (s : State) (p n : Nat) (mask : Word) : Bool :=
  match (s.part p).head n with
  | none => false
  | some t =>
    let r := t.record
    let haff := recAff r &&& (s.ctx (t.slotOf p)).cores.toNat
    let l := bitsOf mask.toNat 64
    (mask.toNat &&& haff) = mask.toNat && s.placeable l && !l.isEmpty
    && (if recKind r = 1 then l.length = 1 && l.all fun c => !(s.core c).holdsTask p t.slot
        else if recCoop r then l.length ≤ 4 else l.length = 1)
    && !s.quotaBars p r

/-- Whether STEAL is permitted (R355). -/
def State.stealOk (s : State) (p src dst : Nat) : Bool :=
  match if (s.part p).cores.toNat.testBit src then (s.core src).newest else none with
  | none => false
  | some e =>
    match e.task.bind fun t => aget (s.part p).tasks t with
    | none => false
    | some t =>
      (recAff t.record &&& (s.ctx (t.slotOf p)).cores.toNat).testBit dst && (s.core dst).list.length < 8
      && (e.kind = .laneUnit || !(s.core dst).holdsTask p t.slot)

/-- The top-level invocation of the band that a record stopped. -/
def State.recordInv (s : State) (who : Agent) : Option (Nat × Inv) :=
  match who with
  | .band c n => ((s.band c n).bind fun b => b.inv.bind (s.core c).topInv).map fun i => (c, i)
  | _ => none

/-- Whether a decision may be applied now (R354, R355). -/
def State.decisionOk (s : State) (p : Nat) (d : Decided) : Bool :=
  let k := d.kind.toNat
  sluiceOk k d.req.sl && operandsOk k d.opa d.opb d.imm && match k with
  | 1 => s.placeOk p d.opa.toNat d.opb
  | 2 => s.stealOk p d.opa.toNat ((bitsOf d.opb.toNat 64).headD 0)
  | 4 => d.opb ≠ 0 && match d.req.record with
    | some r => (d.opb &&& r.mask) = d.opb
    | none => false
  | 5 => match s.recordInv d.req.who with
    | some (_, i) => bindRestart i.entry
    | none => false
  | 7 | 8 | 11 => match d.req.record, d.req.ctx with
    | some r, some x => match s.recordPage (16 * p + x.toNat) r with
      | some (t, _, _, _) => d.imm.toNat = 2 || d.opb.toNat % (tlrPage t / 4096) = 0
      | none => false
    | _, _ => false
  | _ => true

/-! ### Records (R361) and the end of a decision -/

/-- The 16 bytes of a decision record (R361). -/
def Decided.bytes (d : Decided) (dsn : BitVec 24) (opb : Word) : List Byte :=
  let sl := match d.req.sl with | .dispatch => 0 | .steal => 1 | .preempt => 2 | .fault => 3 | .complete => 4
  bytesOfNat 8 (d.kind.toNat ||| sl <<< 4 ||| b2n d.fb <<< 7 ||| b2n d.ovr <<< 8 ||| b2n d.rej <<< 9 ||| d.imm.toNat <<< 10
    ||| dsn.toNat <<< 24 ||| bf d.opa.toNat 0 16 <<< 48) ++ bytesOfNat 8 opb.toNat

/-- Where an agent's hang count stands in its core's watch (R405): 0 the sequencer, 1 + n a band, 200 + ch a copy channel, 204 the array
queue, 205 the epilogue queue, 206 + q a link send queue, 300 the sequencer's class 4. -/
def hangKey (who : Agent) (cls : Nat) : Option (Nat × Nat) :=
  match who with
  | .seq c => some (c, if cls = 4 then 300 else 0)
  | .band c n => some (c, 1 + n)
  | .chan c ch => some (c, 200 + ch)
  | .array c => some (c, 204)
  | .epi c => some (c, 205)
  | .link c q => some (c, 206 + q)
  | .env => none

/-- The hang count restarts from 0 when the decision on its HANG record is applied (R405). -/
def State.restartHang (s : State) (d : Decided) : State :=
  match d.req.record with
  | some r =>
    if r.kind ≠ .hang then s
    else
      match hangKey d.req.who r.vaddr.toNat with
      | some (c, k) => s.onCore c fun co => { co with watch := { co.watch with hang := adel co.watch.hang k } }
      | none => s
  | none => s

/-- What ends every decision (R341, R361, R362): its record is logged for the context concerned, the sequence number rises,
and the partition's next invocation may start. The task of a COMPLETE invocation leaves its slot. -/
def State.endDecision (s : State) (p : Nat) (d : Decided) (x : Option Nat) (opb : Word) : State :=
  let s := (s.restartHang d).onPart p fun q => { q with decided := none, inFlight := false }
  let s := match x with
    | none => s
    | some x =>
      let s := if d.logged then s else s.log x 5 (d.bytes (s.ctx x).dsn opb)
      s.onCtx x fun k => { k with dsn := k.dsn + 1 }
  match d.req.sl, d.req.task with
  | .complete, some slot =>
    match aget (s.part p).tasks slot with
    | none => s
    | some t =>
      let x := t.slotOf p
      let s := s.onTask p slot fun t => { t with st := .done }
      ((s.dropTask p slot).markEnded x t.launch.toNat).checkLaunch x t.launch.toNat
  | _, _ => s

/-- The context that a decision's sluice concerns. -/
def Decided.slot (d : Decided) (p : Nat) : Option Nat := d.req.ctx.map fun x => 16 * p + x.toNat

/-- Whether the agent of a FAULT sluice still stands as its record left it: the unit has not been discarded since. -/
def State.agentStands (s : State) (x : Nat) (r : SReq) : Bool :=
  match r.who with
  | .seq c => (s.core c).runs x && ((s.core c).seq.fault.isSome || (r.record.map fun f => f.kind) = some .hang)
  | .band c n => ((s.band c n).map fun b => b.slot == x).getD false
  | .array c | .chan c _ => (s.core c).runs x || (s.core c).hasBands x
  | _ => false

/-- A decision whose agent is gone acts on none. -/
def State.settleAgent (s : State) (p : Nat) (d : Decided) : Decided :=
  if s.agentStands ((d.slot p).getD 0) d.req then d else { d with req := { d.req with who := .env } }

/-- Applies the partition's decision of a kind (R341, R355): a rejected one is replaced by the default policy's; a logged one
that is rejected ends the taking of logged decisions (R362). The effect gives the context concerned and OPB as applied. In
RECOVERING a FAULT sluice allows only KEEP, KILLSTRAND and MAP (R105). -/
def State.applyDecision (s : State) (kind : Nat) (f : State → Nat → Decided → State × Option Nat × Word) : State :=
  let p := s.req.part
  match (s.part p).decided with
  | none => s
  | some d =>
    if d.kind.toNat ≠ kind then s
    else if !s.decisionOk p d then
      if d.logged then
        let s := match d.slot p with
          | some x => s.onCtx x fun k => { k with replayLive := true }
          | none => s
        let r := match d.req.sl with | .dispatch | .steal => { d.req with ctx := none } | _ => d.req
        s.onPart p fun q => { q with decided := none, inFlight := false, sluices := r :: q.sluices }
      else s.decideDefault p d.req d.ovr true
    else
      let recovering : Bool := match d.slot p with
        | some x => (s.ctx x).st = .recovering && d.req.sl = .fault && kind ≠ 0 && kind ≠ 4 && kind ≠ 7
        | none => false
      let (s, x, opb) := if recovering then (s.failContext ((d.slot p).getD 0), d.slot p, d.opb) else f s p (s.settleAgent p d)
      s.endDecision p d x opb

/-! ### The decisions -/

/-- KEEP at FAULT (R293, R356). A core's UE_SEQ admits only REPLAY and ESCALATE (R122): KEEP of it acts as ESCALATE. -/
def State.keepFault (s : State) (d : Decided) : State :=
  match d.req.record, d.req.ctx with
  | some r, some _ =>
    let x := (d.slot s.req.part).getD 0
    if r.kind = .ueStrand then s
    else if r.kind = .ueSeq && r.vaddr = 0 then s.failContext x
    else
      match d.req.who with
      | .seq c =>
        let epc : Option Word := if r.kind = .hang then none
          else (s.core c).seq.fault.map fun f => if f.erec = d.req.recAddr then f.epc else r.pc
        s.deliver c r.kind epc d.req.recAddr false d.req.handler
      | .band c n =>
        match s.band c n with
        | none => s
        | some b =>
          if b.inv.isSome then s.deliver c r.kind none d.req.recAddr true d.req.handler
          else if r.isFetch then s.failContext x
          else if b.st ≠ .parked && (b.st ≠ .halted || r.kind = .hang) then s
          else s.onBand c n fun b =>
            let b := if b.pc = r.pc then { b with pc := b.pc + 8, popped := [] } else b
            { b with st := .ready, halt := .none, unfinished := none, wait := .none, readySince := s.cycle }
      | .array c =>
        if r.kind = .hang then s
        else if r.kind = .ueArray then s.failContext x
        else if (s.core c).arr.fault = some .operand then (s.onCore c Core.discardStream).freeFences c else s
      | _ => s
  | _, _ => s

/-- DECISION_KEEP (R356). At DISPATCH and STEAL it concerns a context only in the place of a rejected PLACE or STEAL of a unit of that
context (R361, R428). -/
def evDecisionKeep (s : State) : State :=
  s.applyDecision 0 fun s p d =>
    (if d.req.sl = .fault then s.keepFault d else s,
      match d.req.sl with | .dispatch | .steal => (if d.rej then d.slot p else none) | _ => d.slot p, d.opb)

/-- DECISION_PLACE (R354): one unit of the queue's head is appended to the named cores' lists. -/
def evDecisionPlace (s : State) : State :=
  s.applyDecision 1 fun s p d =>
    match (s.part p).head d.opa.toNat with
    | none => (s, none, d.opb)
    | some t =>
      let x := t.slotOf p
      let cs := bitsOf d.opb.toNat 64
      let e : LEntry := ⟨if recKind t.record = 1 then .seqUnit else .laneUnit, some t.slot, t.first + t.placed, cs,
        BitVec.ofNat 8 t.ctx.toNat, false⟩
      let last := t.placed + 1 = recUnits t.record
      let s := cs.foldl (fun (s : State) c => s.onCore c fun k => { k with list := k.list ++ [e] }) s
      let s := s.onTask p t.slot fun t => { t with placed := t.placed + 1, st := if last then .running else .placed }
      let s := if last then s.onPart p fun q => { q with queues := q.queues.map fun l => l.filter fun n => n ≠ t.slot } else s
      let s : State := match aget (s.ctx x).launches t.launch.toNat with
        | some l => if (l : Launch).st = LState.pending then s.setLaunch x t.launch.toNat .running else s
        | none => s
      let s := if (s.ctx x).st = .preempted then s.onCtx x fun k => { k with st := .running } else s
      (s.raiseSteals p, if d.req.sl = .complete then d.slot p else some x, d.opb)

/-- DECISION_STEAL (R354). -/
def evDecisionSteal (s : State) : State :=
  s.applyDecision 2 fun s p d =>
    let src := d.opa.toNat
    let dst := (bitsOf d.opb.toNat 64).headD 0
    match (s.core src).newest with
    | none => (s, none, d.opb)
    | some e =>
      let s := s.onCore src fun k => { k with list := k.list.filter fun y => y ≠ e }
      let moved := { e with cores := (e.cores.filter fun c => c ≠ src) ++ [dst] }
      let s := e.cores.foldl (fun s c => if c = src then s else s.onCore c fun k => { k with list := updWhere (fun y => y = e) (fun _ => moved) k.list }) s
      let s := s.onCore dst fun k => { k with list := k.list ++ [moved] }
      let x := 16 * p + e.ctx.toNat
      (s.coreFreed src, some x, d.opb)

/-- DECISION_PREEMPT (R107): fetch freezes on the core for the units below the threshold. A sequencer unit stays while its context's one image of
the core holds another (log entry 109). -/
def evDecisionPreempt (s : State) : State :=
  s.applyDecision 3 fun s p d =>
    let c := d.opa.toNat
    let t := bf d.imm.toNat 0 4
    let k := s.core c
    let s := (List.range 16).foldl (fun s i =>
      let x := 16 * p + i
      let t := if k.runs x && ((aget (s.ctx x).images (logical (s.ctx x).cores c)).map fun m => m.unit.isSome).getD false then 16 + t else t
      if k.seqLeaves x t || k.bands.any fun b => k.bandLeaves x t b.2 then
        s.onCtx x fun q => { q with freezing := (q.freezing.filter fun f => f.1 ≠ c) ++ [(c, t, s.cycle)] }
      else s) s
    (s, match d.req.sl with | .dispatch => none | _ => d.slot p, d.opb)

/-- DECISION_KILLSTRAND (R214, R279): the strands die and the band goes on. -/
def evDecisionKillstrand (s : State) : State :=
  s.applyDecision 4 fun s p d =>
    match d.req.who with
    | .band c n =>
      let s := (s.killStrands c n d.opb).onBand c n fun b =>
        match b.unfinished with
        | some u => if u = 0 then { b with unfinished := none, pc := b.pc + 8, st := if b.st = .parked then .ready else b.st }
                    else if b.st = .parked then { b with st := .ready } else { b with heldDecision := true }
        | none => b
      let s := match s.band c n with
        | some b =>
          match b.inv.bind (s.core c).topInv with
          | some t => if t.st = IState.faulted then s.resumeInv c t.id else s
          | none => s.onBand c n fun b => b.resume s.cycle
        | none => s
      (s, d.slot p, d.opb)
    | _ => (s, d.slot p, d.opb)

/-- DECISION_RESTART (R173, R174). -/
def evDecisionRestart (s : State) : State :=
  s.applyDecision 5 fun s p d =>
    (match s.recordInv d.req.who with
      | some (c, i) => (s.restartInv c i.id).coreFreed c
      | none => s, d.slot p, d.opb)

/-- DECISION_PARK: the agents stay as they are. An array fault knows no parked stream (R190, R206): the stopped stream is discarded, and for
UE_ARRAY PARK acts as ESCALATE, both as KEEP does it. -/
def evDecisionPark (s : State) : State :=
  s.applyDecision 6 fun s p d => (match d.req.who with | .array _ => s.keepFault d | _ => s, d.slot p, d.opb)

/-- A page decision's application (R273, R355): it resumes the waiting agents, or fails: they go HALTED and a FAULT sluice runs
with DECISION_FAILED, at which a second failure acts as ESCALATE. -/
def State.applyPage (s : State) (kind p : Nat) (d : Decided) : State × Option Nat × Word :=
  match d.req.record, d.slot p with
  | some r, some x =>
    match s.recordPage x r with
    | none => (s, some x, d.opb)
    | some (t, tensor, page, place) =>
      match s.pageDecision x kind d.opa d.opb d.imm.toNat t tensor page place with
      | .ok (s, f) => (s.resumeAgent d.req.who, some x, f)
      | .error s =>
        if r.kind = .decisionFailed then (s.failContext x, some x, d.opb)
        else ((s.haltAgent d.req.who).takeFault x { r with kind := .decisionFailed } d.req.who d.req.kind d.req.prio, some x, d.opb)
  | _, x => (s, x, d.opb)

/-- DECISION_MAP. -/
def evDecisionMap (s : State) : State := s.applyDecision 7 fun s p d => s.applyPage 7 p d
/-- DECISION_MIGRATE. -/
def evDecisionMigrate (s : State) : State := s.applyDecision 8 fun s p d => s.applyPage 8 p d
/-- Whether a REMAP's target frames are frames behind the old entry to which requests that it translated are still on their way: they are not
rewritten before the translation invalidate is acknowledged (R280). Gives the context, tensor and page. -/
def State.remapWaits (s : State) (p : Nat) : Option (Nat × Nat × Nat) :=
  match (s.part p).decided with
  | none => none
  | some d =>
    match d.req.record, d.slot p with
    | some r, some x =>
      if d.kind ≠ 11 || !s.decisionOk p d then none
      else
        match s.recordPage x r with
        | some (t, tensor, page, some (_, _, e)) =>
          let n := tlrPage t / 4096
          let h := d.imm.toNat
          let meets := match (s.targetFrame p h n d.opb).1 with
            | some f => leafV e && baseHome e = h && f < baseFrame e + n && baseFrame e < f + n
            | none => false
          if meets && (s.tagged x (some tensor) page page).any s.outstanding then some (x, tensor, page) else none
        | _ => none
    | _, _ => none

/-- DECISION_REMAP: it waits for the acknowledgement where its target frames are the old ones. -/
def evDecisionRemap (s : State) : State :=
  match s.remapWaits s.req.part with
  | some (x, tensor, page) =>
    (s.invalidate x (some tensor) page page none).push [.cycle, .event .decisionRemap { Request.zero with part := s.req.part }]
  | none => s.applyDecision 11 fun s p d => s.applyPage 11 p d

/-- A replay begins at the last kernel boundary (R105, R121, R132, R332): cores discard their state, tasks are cancelled,
counters are restored, every launch since the boundary that is RUNNING, DRAINING or DONE goes REPLAYING, and the start-vector launch's cores
restart. -/
def State.startReplay (s : State) (x : Nat) : State :=
  let s := s.stopContext x
  let k := s.ctx x
  let deps : List (Nat × Dep) := match k.logs.find? fun e => e.kind = 6 with
    | some e => (List.range 256).filterMap fun n =>
        let v := natOfBytes ((e.payload.drop (4 * n)).take 4)
        let o := (e.payload.getD (1024 + n / 8) 0).getLsbD (n % 8)
        if v = 0 && !o then none else some (n, ⟨if v < 2 ^ 31 then v else (v : Int) - 2 ^ 32, o⟩)
    | none => []
  let runs := fun (l : Launch) => l.st = .running || l.st = .draining || l.st = .done
  let vec := k.launches.filter fun l => l.2.vector.isSome
  let s := s.onCtx x fun k => { k with
    st := .recovering
    deps := deps
    launches := k.launches.map fun (l : Nat × Launch) => if runs l.2 then
      (l.1, { l.2 with st := .replaying, nextIndex := if l.2.vector.isSome then 64 else 0, ended := [], retired := [], taskEnded := false }) else l
    nextLid := match vec.head? with
      | some l => if l.1 = 0xFFFFFFFF then 1 else l.1 + 1
      | none => k.firstLid
    lstate := if vec.any fun l => runs l.2 && l.1 = k.lastLid then 6 else k.lstate
    replay := k.logs.filter fun e => e.kind ≠ 6 && e.kind ≠ 1
    replayLive := false
    outPos := 0
    images := []
    freezing := [] }
  (vec.filter fun l => runs l.2).foldl (fun s l => (l.2.vector.getD []).foldl (fun (s : State) e =>
    s.startSeq e.1 x none l.2.id e.1 0 e.2 0 0) s) s

/-- DECISION_REPLAY (R105). -/
def evDecisionReplay (s : State) : State :=
  s.applyDecision 9 fun s p d =>
    match d.slot p with
    | none => (s, none, d.opb)
    | some x =>
      let k := s.ctx x
      if k.st = .running || k.st = .preempted then
        (if k.rsafe then s.startReplay x else s.failContext x, some x, d.opb)
      else (s, some x, d.opb)

/-- DECISION_ESCALATE (R105, R354). -/
def evDecisionEscalate (s : State) : State :=
  s.applyDecision 10 fun s p d =>
    match d.req.sl, d.slot p with
    | .dispatch, _ | .steal, _ => (s, none, d.opb)
    | _, some x => (s.failContext x, some x, d.opb)
    | _, none => (s, none, d.opb)

/-- SLUICE_REPLAY_DECISION (R362): in RECOVERING a sluice takes the next logged decision when its sluice matches; on the first
mismatch the policy runs live for the rest. -/
def evSluiceReplayDecision (s : State) : State :=
  let p := s.req.part
  match (s.part p).next with
  | none => s
  | some (i, r) =>
    match s.loggedDecision p r with
    | none => s
    | some (x, e) =>
      let (w, opb) := e.decision
      let code := match r.sl with | .dispatch => 0 | .steal => 1 | .preempt => 2 | .fault => 3 | .complete => 4
      let other : Bool := r.sl = .dispatch && bf w 0 4 = 1 && match (s.part p).head (bf w 48 16) with
        | some t => t.slotOf p ≠ x
        | none => false
      if bf w 4 3 ≠ code || other then s.onCtx x fun k => { k with replayLive := true }
      else
        let s := s.takeSluice p i
        let s := s.onCtx x fun k => { k with replay := k.replay.erase e }
        s.decide p ⟨{ r with ctx := some (BitVec.ofNat 4 x) }, BitVec.ofNat 4 w, BitVec.ofNat 64 (bf w 48 16), BitVec.ofNat 64 opb, BitVec.ofNat 14 (bf w 10 14),
          bf w 7 1 = 1, bf w 8 1 = 1, bf w 9 1 = 1, true⟩

/-! ### The steps -/

/-- DECISION_KEEP. -/
def execDecisionKeep (s : State) : Host.Outcome State Fault Refusal := .next (evDecisionKeep s)
/-- DECISION_PLACE. -/
def execDecisionPlace (s : State) : Host.Outcome State Fault Refusal := .next (evDecisionPlace s)
/-- DECISION_STEAL. -/
def execDecisionSteal (s : State) : Host.Outcome State Fault Refusal := .next (evDecisionSteal s)
/-- DECISION_PREEMPT. -/
def execDecisionPreempt (s : State) : Host.Outcome State Fault Refusal := .next (evDecisionPreempt s)
/-- DECISION_KILLSTRAND. -/
def execDecisionKillstrand (s : State) : Host.Outcome State Fault Refusal := .next (evDecisionKillstrand s)
/-- DECISION_RESTART. -/
def execDecisionRestart (s : State) : Host.Outcome State Fault Refusal := .next (evDecisionRestart s)
/-- DECISION_PARK. -/
def execDecisionPark (s : State) : Host.Outcome State Fault Refusal := .next (evDecisionPark s)
/-- DECISION_MAP. -/
def execDecisionMap (s : State) : Host.Outcome State Fault Refusal := .next (evDecisionMap s)
/-- DECISION_MIGRATE. -/
def execDecisionMigrate (s : State) : Host.Outcome State Fault Refusal := .next (evDecisionMigrate s)
/-- DECISION_REMAP. -/
def execDecisionRemap (s : State) : Host.Outcome State Fault Refusal := .next (evDecisionRemap s)
/-- DECISION_REPLAY. -/
def execDecisionReplay (s : State) : Host.Outcome State Fault Refusal := .next (evDecisionReplay s)
/-- DECISION_ESCALATE. -/
def execDecisionEscalate (s : State) : Host.Outcome State Fault Refusal := .next (evDecisionEscalate s)
/-- SLUICE_REPLAY_DECISION. -/
def execSluiceReplayDecision (s : State) : Host.Outcome State Fault Refusal := .next (evSluiceReplayDecision s)

end Sys2Proof.Machine
end

