-- ==== Sys2Proof/Machine/Transc.lean ====
section
/-!
DEFINITION. Correctly rounded functions that are not algebraic (R259, R211, R44): integer interval evaluation.
A fixed-point number at precision P is an integer counted in units of 2^-P. Every evaluation returns an interval that
encloses the exact real; a result is rounded only when the interval's leading bits agree. The exact value is irrational
wherever these are used (the exact cases are answered beforehand), so an agreeing interval always leaves a rest.
-/

namespace Sys2Proof.Machine

/-- An enclosing interval of a real, in units of 2^-P. -/
structure Iv where
  lo : Int
  hi : Int
deriving DecidableEq, Repr

/-- Floor of `x / 2^n`. -/
def shrI (x : Int) (n : Nat) : Int := x / 2 ^ n

/-- The integer square root, found bit by bit. -/
def isqrtFrom (x : Nat) : Nat → Nat → Nat
  | 0, r => r
  | b + 1, r =>
    let c := r + 2 ^ b
    isqrtFrom x b (if c * c ≤ x then c else r)

/-- The integer square root. -/
def isqrt (x : Nat) : Nat := isqrtFrom x (x.log2 / 2 + 1) 0

/-- The product of two intervals at precision P. -/
def Iv.mul (p : Nat) (a b : Iv) : Iv :=
  let w := a.lo * b.lo
  let x := a.lo * b.hi
  let y := a.hi * b.lo
  let z := a.hi * b.hi
  ⟨shrI (min (min w x) (min y z)) p, shrI (max (max w x) (max y z)) p + 1⟩

/-- The sum of two intervals. -/
def Iv.add (a b : Iv) : Iv := ⟨a.lo + b.lo, a.hi + b.hi⟩
/-- The difference of two intervals. -/
def Iv.sub (a b : Iv) : Iv := ⟨a.lo - b.hi, a.hi - b.lo⟩

/-- The quotient of two positive intervals at precision P. -/
def Iv.div (p : Nat) (a b : Iv) : Iv := ⟨a.lo * 2 ^ p / b.hi, a.hi * 2 ^ p / b.lo + 1⟩

/-- Horner's sum 1 + y/1 (1 + y/2 (1 + …)) at precision q. -/
def expHorner (q : Nat) (y : Int) : Nat → Nat → Int → Int
  | 0, _, s => s
  | f + 1, n, s => expHorner q y f (n - 1) (2 ^ q + shrI (y * s) q / (n : Int))

/-- Squares an interval of nonnegative numbers k times at precision q. -/
def sqIv (q : Nat) : Nat → Iv → Iv
  | 0, v => v
  | k + 1, v => sqIv q k ⟨shrI (v.lo * v.lo) q, shrI (v.hi * v.hi) q + 1⟩

/-- e^x for a fixed-point number x at precision p. -/
def expPt (p : Nat) (x : Int) : Iv :=
  if x = 0 then ⟨2 ^ p, 2 ^ p⟩
  else if x < -((p : Int) + 2) * 2 ^ p then ⟨0, 1⟩
  else
    let k := (x.natAbs >>> p).log2 + 9
    let q := p + 64 + k
    let y := shrI (x * 2 ^ (q - p)) k
    let n := q / 8 + 2
    let s := expHorner q y n n (2 ^ q)
    let v := sqIv q k ⟨max 0 (s - 16), s + 16⟩
    ⟨shrI v.lo (q - p), shrI v.hi (q - p) + 1⟩

/-- e^x for an interval x. -/
def expIv (p : Nat) (x : Iv) : Iv :=
  if x.lo = x.hi then expPt p x.lo else ⟨(expPt p x.lo).lo, (expPt p x.hi).hi⟩

/-- The odd power sum of z + z^3/3 + z^5/5 + … (sign +1) or with alternating signs (sign -1), at precision q. -/
def oddSum (q : Nat) (z2 : Int) (sg : Int) : Nat → Int → Nat → Int → Int
  | 0, _, _, s => s
  | f + 1, t, n, s => oddSum q z2 sg f (sg * shrI (t * z2) q) (n + 2) (s + t / (n : Int))

/-- ln(m / 2^n) for 1 ≤ m/2^n < 2, at precision p. -/
def lnIv (p m n : Nat) : Iv :=
  if m = 2 ^ n then ⟨0, 0⟩
  else
    let q := p + 64
    let z : Int := ((m - 2 ^ n) * 2 ^ q / (m + 2 ^ n) : Nat)
    let k := q / 3 + 4
    let s := 2 * oddSum q (shrI (z * z) q) 1 k z 1 0
    ⟨shrI (s - 16 * k) 64, shrI (s + 16 * k) 64 + 1⟩

/-- ln 2 at precision p. -/
def ln2Iv (p : Nat) : Iv :=
  let q := p + 64
  let z : Int := (2 ^ q / 3 : Nat)
  let k := q / 3 + 4
  let s := 2 * oddSum q (shrI (z * z) q) 1 k z 1 0
  ⟨shrI (s - 16 * k) 64, shrI (s + 16 * k) 64 + 1⟩

/-- arctan(1/n) at precision q, up to a few units per term. -/
def atanInv (q n : Nat) : Int :=
  let z : Int := (2 ^ q / n : Nat)
  oddSum q (shrI (z * z) q) (-1) (q / 4 + 4) z 1 0

/-- π at precision p (Machin). -/
def piIv (p : Nat) : Iv :=
  let q := p + 64
  let s := 16 * atanInv q 5 - 4 * atanInv q 239
  let e : Int := 64 * (q / 4 + 4 : Nat)
  ⟨shrI (s - e) 64, shrI (s + e) 64 + 1⟩

/-- Horner's sum of the sine (first factor 2·3) or cosine series (first factor 1·2), innermost factor first. -/
def trigHorner (q : Nat) (t2 : Int) (odd : Nat) : Nat → Int → Int
  | 0, s => s
  | f + 1, s => trigHorner q t2 odd f (2 ^ q - shrI (t2 * s) q / (((2 * f + 1 + odd) * (2 * f + 2 + odd) : Nat) : Int))

/-- sin(π r) for a dyadic r = m/2^n with 0 < r ≤ 1/2, at precision p. -/
def sinPiIv (p m n : Nat) : Iv :=
  let q := p + 64
  let t := shrI ((piIv q).lo * m) n
  let k := q / 8 + 16
  let s := shrI (t * trigHorner q (shrI (t * t) q) 1 k (2 ^ q)) q
  ⟨shrI (s - 16 * k - 16) 64, shrI (s + 16 * k + 16) 64 + 1⟩

/-- A positive irrational enclosed by an interval as a magnitude of about 120 bits with a rest, where its leading bits
are decided. -/
def Iv.mag (p : Nat) (v : Iv) : Option Mag :=
  let h := v.hi.toNat
  let s := h.log2 - 120
  if v.lo ≤ 0 ∨ h.log2 < 120 then none
  else if v.lo.toNat >>> s = h >>> s then some ⟨h >>> s, (s : Int) - p, true⟩
  else none

/-- The first decided answer over rising precisions. -/
def firstSome {α : Type} (f : Nat → Option α) : List Nat → Option α
  | [] => none
  | p :: t => match f p with
    | some x => some x
    | none => firstSome f t

/-- The precisions tried in turn. -/
def precisions : List Nat := [512, 1024, 2048]

/-- A fixed-point number from m·2^e at precision p; exact when p + e ≥ 0. -/
def fixOf (p : Nat) (m : Int) (e : Int) : Int :=
  let s := e + p
  if 0 ≤ s then m * 2 ^ s.toNat else shrI m (-s).toNat

/-- A magnitude just below `m·2^e`. -/
def justBelow (m : Nat) (e : Int) : Mag := ⟨m * 2 ^ 128 - 1, e - 128, true⟩

/-- A magnitude too small for any format. -/
def tinyMag : Mag := ⟨1, -4096, true⟩

/-- 1/x of a positive dyadic (`.RCP`, R259). -/
def rcpMag (m : Nat) (e : Int) : Mag :=
  let k := m.log2 + 130
  ⟨2 ^ k / m, -e - k, decide (2 ^ k % m ≠ 0)⟩

/-- √x of a positive dyadic (`.SQRT`, R259). -/
def sqrtMag (m : Nat) (e : Int) : Mag :=
  let m2 := if e % 2 = 0 then m else m * 2
  let e2 := if e % 2 = 0 then e else e - 1
  let r := isqrt (m2 * 2 ^ 128)
  ⟨r, e2 / 2 - 64, decide (r * r ≠ m2 * 2 ^ 128)⟩

/-- 1/√x of a positive dyadic (`.RSQRT`, R259). -/
def rsqrtMag (m : Nat) (e : Int) : Mag :=
  let m2 := if e % 2 = 0 then m else m * 2
  let e2 := if e % 2 = 0 then e else e - 1
  let k := m2.log2 / 2 + 130
  let r := isqrt (2 ^ (2 * k) / m2)
  ⟨r, -(e2 / 2) - k, decide (r * r * m2 ≠ 2 ^ (2 * k))⟩

/-- 2^x of a dyadic that is no integer (`.EXP2`, R259). -/
def exp2Mag (neg : Bool) (m : Nat) (e : Int) : Option Mag :=
  let x : Int := if neg then -(m : Int) else m
  if 4096 ≤ (m : Int) * 2 ^ (max e 0).toNat / 2 ^ (max (-e) 0).toNat then
    some (if neg then tinyMag else ⟨1, 4096, true⟩)
  else
    let d := (-e).toNat
    let n := x / 2 ^ d
    let fr := x % 2 ^ d
    firstSome (fun p =>
      let t := fixOf p fr e
      match (expIv p (Iv.mul p ⟨t, t⟩ (ln2Iv p))).mag p with
      | some g => some ⟨g.m, g.e + n, g.st⟩
      | none => none) precisions

/-- log₂ of a positive dyadic that is no power of two (`.LOG2`, R259): sign and magnitude. -/
def log2Mag (m : Nat) (e : Int) : Option (Bool × Mag) :=
  let n := m.log2
  let ex := e + n
  firstSome (fun p =>
    let l := Iv.div p (lnIv p m n) (ln2Iv p)
    let v : Iv := ⟨l.lo + ex * 2 ^ p, l.hi + ex * 2 ^ p⟩
    if 0 < v.lo then (v.mag p).map (fun g => (false, g))
    else if v.hi < 0 then (Iv.mag p ⟨-v.hi, -v.lo⟩).map (fun g => (true, g))
    else none) precisions

/-- A nonnegative dyadic r = m/2^n of which sin(π r) is wanted, folded into quadrants: the sign turned, and the argument
of the sine in [0, 1/2]. -/
def foldSin (m n : Nat) : Bool × Nat :=
  let r := m % 2 ^ (n + 1)
  let neg := decide (2 ^ n ≤ r)
  let r := r % 2 ^ n
  (neg, if 2 * r ≤ 2 ^ n then r else 2 ^ n - r)

/-- sin(π r) for r = m/2^n ≥ 0: none when undecided, else sign and magnitude (magnitude 0 for an exact zero). -/
def sinPiMag (m n : Nat) : Option (Bool × Mag) :=
  let (neg, r) := foldSin m n
  if r = 0 then some (neg, ⟨0, 0, false⟩)
  else if 2 * r = 2 ^ n then some (neg, ⟨1, 0, false⟩)
  else (firstSome (fun p => (sinPiIv p r n).mag p) precisions).map (fun g => (neg, g))

/-- e^-w of a positive dyadic-valued or enclosed w capped at 512. -/
def expNeg (p : Nat) (w : Iv) : Iv := expIv p ⟨-w.hi, -w.lo⟩

/-- tanh of a positive dyadic (`.TANH`, R259). -/
def tanhMag (m : Nat) (e : Int) : Option Mag :=
  if 7 ≤ e + m.log2 then some (justBelow 1 0)
  else firstSome (fun p =>
    let x := fixOf p (2 * m) e
    let t := expPt p (-x)
    let one : Iv := ⟨2 ^ p, 2 ^ p⟩
    (Iv.div p (one.sub t) (one.add t)).mag p) [512, 1024, 2048]

/-- y·σ(w): the magnitude of y/(1 + e^-w) for a dyadic y and an enclosed w of the same sign (R211). -/
def sigMul (p : Nat) (neg : Bool) (m : Nat) (e : Int) (w : Iv) : Option Mag :=
  let cap : Int := 400 * 2 ^ p
  if cap < w.lo then some (if neg then tinyMag else justBelow m e)
  else
    let one : Iv := ⟨2 ^ p, 2 ^ p⟩
    let t := expNeg p w
    let r := if neg then Iv.div p t (one.add t) else Iv.div p one (one.add t)
    match (Iv.mul p ⟨r.lo * m, r.hi * m⟩ one).mag p with
    | some g => some ⟨g.m, g.e + e, g.st⟩
    | none => none

/-- SiLU's magnitude for a nonzero dyadic y (R211): y / (1 + e^-y). -/
def siluMag (neg : Bool) (m : Nat) (e : Int) : Option Mag :=
  if 12 ≤ e + m.log2 then some (if neg then tinyMag else justBelow m e)
  else firstSome (fun p => let w := fixOf p m e; sigMul p neg m e ⟨w, w⟩) [1024, 2048]

/-- GELU-tanh's magnitude for a nonzero dyadic y (R211): y / (1 + e^-2u) with u = √(2/π) (y + 0.044715 y³). -/
def geluMag (neg : Bool) (m : Nat) (e : Int) : Option Mag :=
  if 12 ≤ e + m.log2 then some (if neg then tinyMag else justBelow m e)
  else firstSome (fun p =>
    let y := fixOf p m e
    let y1 : Iv := ⟨y, y⟩
    let y3 := Iv.mul p y1 (Iv.mul p y1 y1)
    let c : Iv := ⟨44715 * 2 ^ p / 1000000, 44715 * 2 ^ p / 1000000 + 1⟩
    let g := Iv.add y1 (Iv.mul p c y3)
    let q := Iv.div p ⟨2 ^ (p + 1), 2 ^ (p + 1)⟩ (piIv p)
    let r : Iv := ⟨(isqrt (q.lo.toNat * 2 ^ p) : Nat), (isqrt (q.hi.toNat * 2 ^ p) + 1 : Nat)⟩
    let u := Iv.mul p r g
    sigMul p neg m e ⟨2 * u.lo, 2 * u.hi⟩) [1024, 2048]

end Sys2Proof.Machine
end

