-- ==== Sys2Proof/Machine/Sli.lean ====
section
/-!
DEFINITION. Symmetric level-index numbers (R43 to R47) and the conversions between all formats (R50).
A nonzero SLI value is a sign and a number k counted in index units: its magnitude is e^L(k), where L(k) has the sign of k
and |L(k)| = phi(|k| / 2^b), b index bits. So k rises with the magnitude, k = 0 is one, and k = ±(2^(b+3) - 1) are the
ceiling and the floor. Exact sums and products are compared through logarithms by interval evaluation.
-/

namespace Sys2Proof.Machine

/-- Index bits of an SLI format (R43). -/
def sliBits : Fmt → Nat
  | .sli16 => 11
  | _ => 27

/-- The value of an SLI code (R43, R44). -/
def sliVal (ib x : Nat) : Val :=
  let neg := x.testBit (ib + 4)
  let r := x.testBit (ib + 3)
  let n := x % 2 ^ (ib + 3)
  if !r && n = 0 then (if neg then .nav else .zero false)
  else .sli neg (if r then (n : Int) else -(n : Int)) ib

/-- The code of a nonzero SLI value. -/
def sliCode (ib : Nat) (neg : Bool) (k : Int) : Nat :=
  (if neg then 2 ^ (ib + 4) else 0) + (if 0 ≤ k then 2 ^ (ib + 3) else 0) + k.natAbs

/-- The code of NaV (R43). -/
def sliNav (ib : Nat) : Nat := 2 ^ (ib + 4)

/-- The largest k of a format: the ceiling. -/
def sliTop (ib : Nat) : Nat := 2 ^ (ib + 3) - 1

/-- |λ| of a k (R44). -/
def sliLevel (ib : Nat) (k : Int) : Nat := k.natAbs / 2 ^ ib + 1

/-- A logarithm of a magnitude: enclosed, or beyond every magnitude the evaluation represents. -/
inductive Lg where
  | num (v : Iv)
  | huge (neg : Bool)
deriving DecidableEq, Repr

/-- phi of an argument below 1 raised j times by exp; none when it grows past e^200. -/
def phiUp (p : Nat) : Nat → Iv → Option Iv
  | 0, v => some v
  | j + 1, v => if 200 * 2 ^ p < v.hi then none else phiUp p j (expIv p v)

/-- phi(n / 2^ib), where it is representable. -/
def phiOf (p ib n : Nat) : Option Iv :=
  let f : Int := (n % 2 ^ ib : Nat) * 2 ^ (p - ib)
  phiUp p (n / 2 ^ ib) ⟨f, f⟩

/-- L(k). -/
def lgOf (p ib : Nat) (k : Int) : Lg :=
  match phiOf p ib k.natAbs with
  | some v => .num (if 0 ≤ k then v else ⟨-v.hi, -v.lo⟩)
  | none => .huge (k < 0)

/-- The comparison of two enclosed reals; equality only of two exact ones. -/
def ivCmp (a b : Iv) : Option Ordering :=
  if a.hi < b.lo then some .lt
  else if b.hi < a.lo then some .gt
  else if a.lo = a.hi ∧ b.lo = b.hi ∧ a.lo = b.lo then some .eq
  else none

/-- The comparison of two logarithms. Two beyond reach of the same sign are not compared here. -/
def lgCmp (a b : Lg) : Option Ordering :=
  match a, b with
  | .num x, .num y => ivCmp x y
  | .huge n, .num _ => some (if n then .lt else .gt)
  | .num _, .huge n => some (if n then .gt else .lt)
  | .huge n, .huge m => if n = m then none else some (if n then .lt else .gt)

/-- e^(a - b) for logarithms, capped: an exponent beyond 600 is answered by none. -/
def expDiff (p : Nat) (a b : Lg) : Option Iv :=
  match a, b with
  | .num x, .num y =>
    let d := x.sub y
    if 600 * 2 ^ p < d.hi then none else some (expIv p d)
  | .huge true, .num _ => some ⟨0, 1⟩
  | .num _, .huge false => some ⟨0, 1⟩
  | _, _ => none

/-- The largest k in [lo, lo + 2^n - 1] that `le` accepts, `le lo` being taken as true; none when undecided. -/
def sliSearch (le : Int → Option Bool) : Nat → Int → Option Int
  | 0, lo => some lo
  | n + 1, lo =>
    match le (lo + 2 ^ n) with
    | some true => sliSearch le n (lo + 2 ^ n)
    | some false => sliSearch le n lo
    | none => none

/-- A rounded SLI magnitude: its k, whether it is inexact, and whether it was clamped (R45). -/
structure SliR where
  k : Int
  nx : Bool
  sat : Bool
deriving DecidableEq, Repr

/-- Rounds to the nearest value given the comparison of the value at k with the exact magnitude, and the comparison of
the midpoint of the values at k and k+1 with it (R45). -/
def sliRound (ib : Nat) (cmp : Int → Option Ordering) (mid : Int → Option Ordering) : Option SliR :=
  let top : Int := sliTop ib
  match cmp (-top) with
  | none => none
  | some .gt => some ⟨-top, true, true⟩
  | some _ =>
    match sliSearch (fun k => if top < k then some false else (cmp k).map (fun o => decide (o ≠ .gt))) (ib + 4) (-top) with
    | none => none
    | some k =>
      match cmp k with
      | none => none
      | some .eq => some ⟨k, false, false⟩
      | some _ =>
        if k = top then some ⟨top, true, true⟩
        else match mid k with
          | none => none
          | some .lt => some ⟨k + 1, true, false⟩
          | some .gt => some ⟨k, true, false⟩
          | some .eq => some ⟨if k % 2 = 0 then k else k + 1, true, false⟩

/-- The precisions at which SLI comparisons are tried. -/
def sliPrecisions : List Nat := [256, 512, 1024, 2048]

/-- The comparison of the midpoint of two magnitudes, relative to a reference logarithm, with an enclosed ratio. -/
def midCmp (p ib : Nat) (ref : Lg) (x : Iv) (k : Int) : Option Ordering :=
  match expDiff p (lgOf p ib k) ref, expDiff p (lgOf p ib (k + 1)) ref with
  | some a, some b => ivCmp (a.add b) ⟨2 * x.lo, 2 * x.hi⟩
  | some _, none => some .gt
  | _, _ => none

/-- `round_sli` of a positive dyadic m·2^e (R45). -/
def sliOfDyad (ib m : Nat) (e : Int) : Option SliR :=
  firstSome (fun p =>
    let x := fixOf p m e
    let v : Iv := ⟨x, x⟩
    sliRound ib
      (fun k => match lgOf p ib k with
        | .huge n => some (if n then .lt else .gt)
        | .num l => if 600 * 2 ^ p < l.lo then some .gt else ivCmp (expIv p l) v)
      (midCmp p ib (.num ⟨0, 0⟩) v)) [512, 1024, 2048]

/-- The sum (or difference) of the magnitudes at ka and kb, ka > kb or ka = kb with a sum (R45). Beyond level 4 the values
next to a lie apart by more than a factor 3, so the nearest value is a itself. -/
def sliAddMag (ib : Nat) (sub : Bool) (ka kb : Int) : Option SliR :=
  firstSome (fun p =>
    match lgOf p ib ka, lgOf p ib kb with
    | .huge _, _ => some ⟨ka, true, decide (ka = sliTop ib ∧ ¬ sub)⟩
    | .num la, lb =>
      let d : Option Iv :=
        match lb with
        | .num l => some (l.sub la)
        | .huge _ => none
      let near := match d with
        | none => true
        | some v => decide (v.hi < -(100 * 2 ^ p))
      if near then some ⟨ka, true, false⟩
      else
        let t := match d with
          | some v => expIv p v
          | none => ⟨0, 1⟩
        let one : Iv := ⟨2 ^ p, 2 ^ p⟩
        let x := if sub then one.sub t else one.add t
        sliRound ib
          (fun k => match lgOf p ib k with
            | .huge n => some (if n then .lt else .gt)
            | .num l =>
              let dk := l.sub la
              if 600 * 2 ^ p < dk.lo then some .gt else ivCmp (expIv p dk) x)
          (midCmp p ib (.num la) x)) sliPrecisions

/-- The comparison with the midpoint of the values at k and k+1 of a magnitude e^x that lies between them, given enclosed
distances `d` = x - L(k) and `g` = L(k+1) - x, both positive: the midpoint is (1 + e^-(d+g))/2 of the upper value. -/
def midByGap (p : Nat) (d g : Iv) : Option Ordering :=
  if 2 ^ p < g.lo then some .gt
  else
    let one : Iv := ⟨2 ^ p, 2 ^ p⟩
    ivCmp (one.add (expNeg p (d.add g))) (let t := expNeg p g; ⟨2 * t.lo, 2 * t.hi⟩)

/-- The product of the magnitudes at ka and kb where |ka| ≥ |kb| and |L(ka)| is at most e^100: logarithms add. -/
def sliMulNum (p ib : Nat) (la lb : Iv) : Option SliR :=
  let x := la.add lb
  sliRound ib
    (fun k => lgCmp (lgOf p ib k) (.num x))
    (fun k => match lgOf p ib k, lgOf p ib (k + 1) with
      | .num l, .num h => midByGap p (x.sub l) (h.sub x)
      | .num _, .huge _ => some .gt
      | .huge _, .num h => midByGap p ⟨1000 * 2 ^ p, 1000 * 2 ^ p⟩ (h.sub x)
      | .huge _, .huge _ => none)

/-- ln |L(k)| where |L(k)| ≥ 1: phi one level down. -/
def lnLg (p ib : Nat) (k : Nat) : Option Iv := if k < 2 ^ ib then none else phiOf p ib (k - 2 ^ ib)

/-- The product where |L(ka)| is beyond e^(e^15) (level 6 and above, or level 5 with kb lost beside it): the logarithms of neighbouring values lie
further apart than L(kb) reaches, or by a factor 3, so the result is the value at ka or a neighbour, and |L(kb)| against ln 2 decides. `s`: L(ka) < 0. -/
def sliMulHuge (p ib : Nat) (s : Bool) (opp : Bool) (ka kb : Nat) : Option SliR :=
  let top := sliTop ib
  let sg (k : Nat) : Int := if s then -(k : Int) else k
  let small : Option Bool :=
    match phiOf p ib kb with
    | none => some false
    | some b =>
      match ivCmp (expNeg p b) ⟨2 ^ (p - 1), 2 ^ (p - 1)⟩ with
      | some .gt => some true
      | some _ => some false
      | none => none
  match small with
  | none => none
  | some near =>
    if opp then
      -- |x| = |L(ka)| - |L(kb)|
      if s then some ⟨sg ka, true, false⟩
      else some ⟨if near then sg ka else sg (ka - 1), true, false⟩
    else if s then
      if ka = top then some ⟨sg top, true, true⟩
      else some ⟨if near then sg ka else sg (ka + 1), true, false⟩
    else if ka = top then some ⟨sg top, true, true⟩
    else some ⟨sg ka, true, false⟩

/-- The product where |L(ka)| = e^A with A representable but above 100 (level 5): |x| = e^A (1 ± ratio), and values
compare through the logarithms of their logarithms; where |L(kb)| is lost beside |L(ka)| the neighbours decide as above. The result keeps the sign s of L(ka). -/
def sliMulLog (p ib : Nat) (s : Bool) (opp : Bool) (ka kb : Nat) : Option SliR :=
  match lnLg p ib ka with
  | none => none
  | some a =>
    let one : Iv := ⟨2 ^ p, 2 ^ p⟩
    let ratio : Option Iv :=
      match lnLg p ib kb with
      | some b => some (expIv p (b.sub a))
      | none => (phiOf p ib kb).map (fun f => Iv.mul p f (expNeg p a))
    match ratio with
    | none => none
    | some t =>
      if 300 * 2 ^ p < a.lo ∧ t.hi < 2 ^ (p - 200) then sliMulHuge p ib s opp ka kb
      else
      let x := if opp then one.sub t else one.add t
      let rel (k : Nat) : Option Iv :=
        match lnLg p ib k with
        | some l =>
          let d := l.sub a
          if 600 * 2 ^ p < d.hi then none else some (expIv p d)
        | none => if k < 2 ^ ib then some ⟨0, 1⟩ else none
      let abs (v : Iv) : Option Iv :=
        if a.hi < 300 * 2 ^ p then some (Iv.mul p v (expIv p a))
        else if 2 ^ (p - 300) < v.lo then some ⟨1000 * 2 ^ p, 1000 * 2 ^ p⟩ else none
      let cmpAbs (k : Nat) : Option Ordering :=
        match rel k with
        | some v => ivCmp v x
        | none => some .gt
      sliRound ib
        (fun k =>
          if s then (if 0 ≤ k then some .gt else (cmpAbs k.natAbs).map Ordering.swap)
          else (if k < 0 then some .lt else cmpAbs k.natAbs))
        (fun k =>
          match rel k.natAbs, rel (k + 1).natAbs with
          | some l, some h =>
            let dl := if s then l.sub x else x.sub l
            let dh := if s then x.sub h else h.sub x
            match abs dl, abs dh with
            | some d, some g => midByGap p d g
            | _, _ => none
          | none, some h => (abs (if s then x.sub h else h.sub x)).bind (fun g => midByGap p ⟨1000 * 2 ^ p, 1000 * 2 ^ p⟩ g)
          | some _, none => some .gt
          | none, none => none)

/-- The product of the magnitudes at ka and kb (R45): one factor of one and reciprocals are exact. -/
def sliMulMag (ib : Nat) (ka kb : Int) : Option SliR :=
  if ka = 0 then some ⟨kb, false, false⟩
  else if kb = 0 then some ⟨ka, false, false⟩
  else if ka + kb = 0 then some ⟨0, false, false⟩
  else
    let (a, b) := if kb.natAbs ≤ ka.natAbs then (ka, kb) else (kb, ka)
    let s := decide (a < 0)
    let opp := decide ((a < 0) ≠ (b < 0))
    firstSome (fun p =>
      match lgOf p ib a, lgOf p ib b with
      | .num la, .num lb =>
        if ((lnLg p ib a.natAbs).map fun v => decide (100 * 2 ^ p < v.lo)).getD false then sliMulLog p ib s opp a.natAbs b.natAbs
        else sliMulNum p ib la lb
      | _, _ =>
        if a.natAbs / 2 ^ ib = 4 then sliMulLog p ib s opp a.natAbs b.natAbs
        else sliMulHuge p ib s opp a.natAbs b.natAbs) sliPrecisions

/-- A rounded SLI result with its flags. -/
def sliRes (ib : Nat) (neg : Bool) (r : SliR) : Res :=
  ⟨sliCode ib neg r.k, fIf r.nx fNX ||| fIf r.sat fSAT⟩

/-- LXU and LXD (R46). -/
def lxFlags (ib : Nat) (ka kb kr : Int) : Flags :=
  let a := sliLevel ib ka
  let b := sliLevel ib kb
  let r := sliLevel ib kr
  fIf (decide (max a b < r)) fLXU ||| fIf (decide (r < min a b)) fLXD

/-- A two-operand SLI result from its rounded magnitude, or the free value where the rounding is undecided (log entry 2). -/
def sliTwo (ib op a b : Nat) (neg : Bool) (ka kb : Int) (r : Option SliR) : Res :=
  match r with
  | some q => let x := sliRes ib neg q; ⟨x.bits, x.flags ||| lxFlags ib ka kb q.k⟩
  | none => ⟨Config.undecided op a b % 2 ^ (ib + 5), fNX⟩

/-- SLADD of two SLI codes (R46, R260). -/
def sliAddV (ib : Nat) (op a b : Nat) (x y : Val) : Res :=
  match x, y with
  | .nav, _ => ⟨sliNav ib, fNF⟩
  | _, .nav => ⟨sliNav ib, fNF⟩
  | .zero _, .zero _ => ⟨0, 0#10⟩
  | .zero _, .sli n k _ => ⟨sliCode ib n k, 0#10⟩
  | .sli n k _, .zero _ => ⟨sliCode ib n k, 0#10⟩
  | .sli n k _, .sli m j _ =>
    if n = m then
      sliTwo ib op a b n k j (sliAddMag ib false (max k j) (min k j))
    else if k = j then ⟨0, 0#10⟩
    else if j < k then sliTwo ib op a b n k j (sliAddMag ib true k j)
    else sliTwo ib op a b m k j (sliAddMag ib true j k)
  | _, _ => ⟨sliNav ib, fNF⟩

/-- The value with its sign turned; zero keeps its one form. -/
def sliNeg : Val → Val
  | .sli n k ib => .sli (!n) k ib
  | v => v

/-- SLADD (R260). -/
def sliAdd (ib a b : Nat) : Res := sliAddV ib 1 a b (sliVal ib a) (sliVal ib b)
/-- SLSUB (R260). -/
def sliSub (ib a b : Nat) : Res := sliAddV ib 2 a b (sliVal ib a) (sliNeg (sliVal ib b))

/-- SLMUL (R260): a zero factor gives +0. -/
def sliMul (ib a b : Nat) : Res :=
  match sliVal ib a, sliVal ib b with
  | .nav, _ => ⟨sliNav ib, fNF⟩
  | _, .nav => ⟨sliNav ib, fNF⟩
  | .sli n k _, .sli m j _ => sliTwo ib 3 a b (n != m) k j (sliMulMag ib k j)
  | _, _ => ⟨0, 0#10⟩

/-- SLDIV (R46, R260). -/
def sliDiv (ib a b : Nat) : Res :=
  match sliVal ib a, sliVal ib b with
  | .nav, _ => ⟨sliNav ib, fNF⟩
  | _, .nav => ⟨sliNav ib, fNF⟩
  | .zero _, .zero _ => ⟨sliNav ib, fINV ||| fNF⟩
  | .sli _ _ _, .zero _ => ⟨sliNav ib, fDZ ||| fNF⟩
  | .zero _, _ => ⟨0, 0#10⟩
  | .sli n k _, .sli m j _ => sliTwo ib 4 a b (n != m) k j (sliMulMag ib k (-j))
  | _, _ => ⟨sliNav ib, fNF⟩

/-- The order of R47: none when an operand is NaV. -/
def sliCmp (ib a b : Nat) : Option Ordering :=
  let key : Val → Option Int
    | .zero _ => some 0
    | .sli n k _ => some ((if n then -1 else 1) * (k + 2 ^ (ib + 3)))
    | _ => none
  match key (sliVal ib a), key (sliVal ib b) with
  | some x, some y => some (if x < y then .lt else if x = y then .eq else .gt)
  | _, _ => none

/-- The magnitude of an SLI value for rounding into another format: exact for one, else about 120 leading bits; a value
beyond e^600 or below e^-600 is answered by one that lies as far out. -/
def sliMag (ib : Nat) (k : Int) : Option Mag :=
  if k = 0 then some ⟨1, 0, false⟩
  else firstSome (fun p =>
    match lgOf p ib k with
    | .huge n => some ⟨1, if n then -4096 else 4096, true⟩
    | .num l =>
      if 600 * 2 ^ p < l.lo then some ⟨1, 4096, true⟩
      else if l.hi < -(600 * 2 ^ p) then some ⟨1, -4096, true⟩
      else (expIv p l).mag p) [1024, 2048]

/-- SLI32 into SLI16 and back (R50): widening is exact; narrowing rounds to the nearest SLI16 value. -/
def sliResize (ib ib' : Nat) (k : Int) : Option SliR :=
  if ib ≤ ib' then some ⟨k * 2 ^ (ib' - ib), false, false⟩
  else
    let u : Int := 2 ^ (ib - ib')
    if k % u = 0 then some ⟨k / u, false, false⟩
    else
      let lo := k / u
      let top : Int := sliTop ib'
      if lo + 1 ≤ -top then some ⟨-top, true, true⟩
      else if top ≤ lo then some ⟨top, true, true⟩
      else firstSome (fun p =>
        match lgOf p ib k, lgOf p ib (lo * u), lgOf p ib ((lo + 1) * u) with
        | .num x, .num l, .num h =>
          match midByGap p (x.sub l) (h.sub x) with
          | some .lt => some ⟨lo + 1, true, false⟩
          | some .gt => some ⟨lo, true, false⟩
          | some .eq => some ⟨if lo % 2 = 0 then lo else lo + 1, true, false⟩
          | none => none
        | _, _, _ => some ⟨lo, true, false⟩) sliPrecisions

/-! ### Conversions (R50) -/

/-- The value of a w-bit pattern of a format. -/
def valOf (f : Fmt) (x : Nat) : Val :=
  match f with
  | .fp16 | .bf16 | .fp32 => f.ieee.val x
  | .t8 => t8Val x
  | .sli16 | .sli32 => sliVal (sliBits f) x
  | _ => valOfInt (intOf f x)

/-- The magnitude of a finite nonzero value. -/
def valMag : Val → Option Mag
  | .fin _ m e => some ⟨m, e, false⟩
  | .sli _ k ib => sliMag ib k
  | _ => none

/-- An IEEE result of a conversion whose rounding overflowed (R50, R149): ±∞ with OF, NX and NF under every rounding mode (log entry 105), and
under `.SAT` ±largest with SAT and NX. -/
def convIeee (f : Ieee) (sat neg : Bool) (r : Res) : Res :=
  if r.flags &&& fOF = 0#10 then r
  else if sat then ⟨f.largest neg, fSAT ||| fNX⟩
  else ⟨f.inf neg, fOF ||| fNX ||| fNF⟩

/-- A number for a value, to which the free value of an undecided conversion is applied (log entry 2). -/
def keyOf : Val → Nat
  | .fin n m e => (m * 2 ^ 16 + (e + 2 ^ 15).toNat) * 2 + b2n n
  | .sli n k _ => k.natAbs * 4 + 2 * b2n (decide (k < 0)) + b2n n
  | _ => 0

/-- The conversion of a value into a format (R50): rounding mode, `.SAT`, and the flush of IEEE results. -/
def convertVal (dst : Fmt) (rm : RMode) (sat ftz : Bool) (v : Val) : Res :=
  if dst.isIeee then
    let f := dst.ieee
    match v with
    | .zero n => ⟨f.signBit n, 0#10⟩
    | .inf n => ⟨f.inf n, fNF⟩
    | .nan n q fr fb => ⟨f.quiet n fr fb, fNF ||| fIf (!q) fINV⟩
    | .nar | .nav => ⟨f.defNan, fNF⟩
    | _ =>
      match valMag v with
      | some g => convIeee f sat v.neg (f.round rm ftz v.neg g)
      | none => ⟨Config.undecided 5 dst.code (keyOf v) % 2 ^ dst.width, fNX⟩
  else match dst with
    | .t8 =>
      match v with
      | .zero _ => ⟨0, 0#10⟩
      | .inf _ => ⟨0x80, fINV ||| fNF⟩
      | .nan _ q _ _ => ⟨0x80, fNF ||| fIf (!q) fINV⟩
      | .nar | .nav => ⟨0x80, fNF⟩
      | _ =>
        match valMag v with
        | some g => roundT8 v.neg g
        | none => ⟨Config.undecided 6 dst.code (keyOf v) % 2 ^ 8, fNX⟩
    | .sli16 | .sli32 =>
      let ib := sliBits dst
      match v with
      | .zero _ => ⟨0, 0#10⟩
      | .inf _ => ⟨sliNav ib, fINV ||| fNF⟩
      | .nan _ q _ _ => ⟨sliNav ib, fNF ||| fIf (!q) fINV⟩
      | .nar | .nav => ⟨sliNav ib, fNF⟩
      | .fin n m e =>
        match sliOfDyad ib m e with
        | some r => sliRes ib n r
        | none => ⟨Config.undecided 7 dst.code (keyOf v) % 2 ^ dst.width, fNX⟩
      | .sli n k ib0 =>
        match sliResize ib0 ib k with
        | some r => sliRes ib n r
        | none => ⟨Config.undecided 8 dst.code (keyOf v) % 2 ^ dst.width, fNX⟩
    | _ =>
      match v with
      | .zero _ => ⟨0, 0#10⟩
      | .inf n => ⟨wrap dst.width (if n then dst.imin else dst.imax), fINV⟩
      | .nan _ _ _ _ | .nar | .nav => ⟨0, fINV⟩
      | _ =>
        match valMag v with
        | some g => roundInt dst rm v.neg g
        | none => ⟨Config.undecided 9 dst.code (keyOf v) % 2 ^ dst.width, fNX⟩

/-- The conversion of a pattern between formats (R50). A subnormal IEEE source reads as zero under FTZ when the
destination is IEEE or integer (R31). -/
def convert (dst src : Fmt) (rm : RMode) (sat ftz : Bool) (x : Nat) : Res :=
  let v :=
    if src.isIeee then src.ieee.valFtz (ftz && (dst.isIeee || dst.isInt)) x
    else valOf src x
  convertVal dst rm sat ftz v

/-! ### Functions of one operand (R259) -/

/-- Rounds a decided magnitude, or answers the free value. -/
def roundOr (f : Ieee) (ftz neg : Bool) (op x : Nat) : Option Mag → Res
  | some g => f.round .rne ftz neg g
  | none => ⟨Config.undecided (16 + op) f.fb x % 2 ^ (f.fb + f.eb + 1), fNX⟩

/-- The exponent when a dyadic magnitude is a power of two. -/
def isPow2 (m : Nat) (e : Int) : Option Int := if m = 2 ^ m.log2 then some (e + m.log2) else none

/-- A signed integer in an IEEE format, rounded RNE. -/
def ieeeOfInt (f : Ieee) (x : Int) : Res :=
  if x = 0 then ⟨0, 0#10⟩ else f.round .rne false (x < 0) ⟨x.natAbs, 0, false⟩

/-- `FSF` (R259). -/
def fsf (f : Ieee) (fn : Nat) (rm : RMode) (ftz : Bool) (x : Nat) : Res :=
  let v := f.valFtz ftz x
  let bad : Res := ⟨f.defNan, fINV ||| fNF⟩
  let one : Nat := f.bias * 2 ^ f.fb
  match v with
  | .nan .. => f.nanRes [v] false
  | .zero n =>
    match fn with
    | 0 | 1 => ⟨f.inf n, fDZ ||| fNF⟩
    | 2 | 5 | 7 => ⟨f.signBit n, 0#10⟩
    | 3 | 6 => ⟨one, 0#10⟩
    | _ => ⟨f.inf true, fDZ ||| fNF⟩
  | .inf n =>
    match fn with
    | 0 => ⟨f.signBit n, 0#10⟩
    | 1 => if n then bad else ⟨0, 0#10⟩
    | 2 | 4 => if n then bad else ⟨f.inf false, fNF⟩
    | 3 => if n then ⟨0, 0#10⟩ else ⟨f.inf false, fNF⟩
    | 5 | 6 => bad
    | _ => ⟨f.signBit n + one, 0#10⟩
  | .fin n m e =>
    match fn with
    | 0 => f.round rm ftz n (rcpMag m e)
    | 1 => if n then bad else f.round .rne ftz false (rsqrtMag m e)
    | 2 => if n then bad else f.round rm ftz false (sqrtMag m e)
    | 3 =>
      if 0 ≤ e ∨ m % 2 ^ (-e).toNat = 0 then
        let i : Int := if 0 ≤ e then m * 2 ^ e.toNat else (m >>> (-e).toNat : Nat)
        let i := if 4096 < i then 4096 else i
        f.round .rne ftz false ⟨1, if n then -i else i, false⟩
      else roundOr f ftz false 3 x (exp2Mag n m e)
    | 4 =>
      if n then bad
      else match isPow2 m e with
        | some k => ieeeOfInt f k
        | none =>
          match log2Mag m e with
          | some (s, g) => f.round .rne ftz s g
          | none => roundOr f ftz n 4 x none
    | 5 =>
      let k := (-e).toNat
      let q := m * 2 ^ e.toNat
      match sinPiMag q k with
      | some (s, g) =>
        if g.m = 0 then ⟨f.signBit n, 0#10⟩ else f.round .rne ftz (n != s) g
      | none => roundOr f ftz n 5 x none
    | 6 =>
      let k := (-e).toNat + 1
      let q := m * 2 ^ (e.toNat + 1)
      match sinPiMag (q + 2 ^ (k - 1)) k with
      | some (s, g) => if g.m = 0 then ⟨0, 0#10⟩ else f.round .rne ftz s g
      | none => roundOr f ftz n 6 x none
    | _ => roundOr f ftz n 7 x (tanhMag m e)
  | _ => bad

end Sys2Proof.Machine
end

