-- ==== Sys2Proof/Machine/Operands.lean ====
section
/-!
DEFINITION. The sequencer's operands: rotated names, landing ranges and undefined windows, predicates, writes, stalls and faults
of a slot (R57 to R66, R73 to R76, R135 to R139).
-/

namespace Sys2Proof.Machine

/-! ### The sequencer whose bundle is being issued -/

/-- The core whose sequencer acts. -/
def State.seqId (s : State) : Nat := match s.cur with | .seq c => c | _ => 0
/-- That core as it stood before the bundle (R135). -/
def State.preCore (s : State) : Core := s.pre.getD (s.core s.seqId)
/-- Changes the core whose sequencer acts. -/
def State.onSeqCore (s : State) (f : Core → Core) : State := s.onCore s.seqId f
/-- Changes the sequencer that acts. -/
def State.onSeq (s : State) (f : Seq → Seq) : State := s.onSeqCore fun k => { k with seq := f k.seq }

/-! ### Rotation (R139) -/

/-- The physical register of an `s` name. -/
def physS (rot : BitVec 5) (n : Nat) : Nat := if n ≤ 31 then n else 32 + (n - 32 + rot.toNat) % 32
/-- The physical register of a `c` name. -/
def physC (rot : BitVec 5) (n : Nat) : Nat := if n ≤ 7 then n else 8 + (n - 8 + rot.toNat) % 8

/-! ### Landing (R74, R75) -/

/-- A write issued in cycle `now` with bound L: a range that overlaps another one of its register makes both undefined
(R75). -/
def Seq.write (q : Seq) (file reg now L : Nat) (v : Option Word) : Seq :=
  let clash := q.inRange file reg now
  let old := q.land.map fun l => if l.file = file && l.reg = reg then { l with value := if clash then none else l.value } else l
  { q with land := old ++ [⟨file, reg, if clash then none else v, now + 1, now + L⟩] }

/-- A write that holds from the next bundle on (R140: `KC` and `FC` of `KLOOP`): it is visible at once to later cycles and
replaces what was in flight. -/
def Seq.writeNow (q : Seq) (file reg : Nat) (v : Option Word) : Seq := q.land1 ⟨file, reg, v, 0, 0⟩

/-! ### Reading (R8, R74) -/

/-- The site of a read: the slot, the operand's place and the register. -/
def readSite (slot pos file reg : Nat) : Nat := 2 ^ 40 + slot * 4096 + pos * 1024 + file * 128 + reg

/-- Reads a physical register in the issue cycle; an undefined one gives a free value. -/
def State.seqRead (s : State) (pos file reg : Nat) : Word :=
  (s.preCore.seq.settle s.cycle |>.value file reg s.cycle).getD (s.free (readSite s.frame.slot pos file reg))

/-- Reads an `s` name; `s0` reads zero (R57). -/
def State.rs (s : State) (pos : Nat) (n : BitVec 6) : Word :=
  if n = 0 then 0 else s.seqRead pos 0 (physS s.preCore.seq.rot n.toNat)
/-- The target of a `RET`: `s31`, which a `RET` in the cycle after its `CALL` reads undefined although the landing bound of `CALL` is 1
(R155). -/
def State.retTarget (s : State) : Word :=
  if s.preCore.seq.callAt.map (fun i => i + 1) = some s.cycle then s.free (readSite s.frame.slot 0 0 31) else s.rs 0 31
/-- Reads a `c` name; `c0` reads 1. -/
def State.rc (s : State) (pos : Nat) (n : BitVec 4) : Bool :=
  n = 0 || (s.seqRead pos 1 (physC s.preCore.seq.rot n.toNat)).getLsbD 0
/-- Reads a `t` register; they never rotate (R152). -/
def State.rt (s : State) (pos : Nat) (n : BitVec 6) : Word := s.seqRead pos 2 n.toNat

/-- A slot's predicate (R60, R61). -/
def State.predHolds (s : State) (p : Pred) : Bool := s.rc 7 p.pc != p.ng

/-! ### Writing (R58, R139) -/

/-- Writes an `s` name with bound L; a write to `s0` is discarded. -/
def State.ws (s : State) (n : BitVec 6) (L : Nat) (v : Word) : State :=
  if n = 0 then s
  else s.onSeq fun q => (q.settle s.cycle).write 0 (physS s.preCore.seq.rot n.toNat) s.cycle L (some v)
/-- Writes a `c` name with bound L. -/
def State.wc (s : State) (n : BitVec 4) (L : Nat) (v : Bool) : State :=
  s.onSeq fun q => (q.settle s.cycle).write 1 (physC s.preCore.seq.rot n.toNat) s.cycle L (some (b2w v))
/-- Writes a `t` register with bound L. -/
def State.wt (s : State) (n : BitVec 6) (L : Nat) (v : Word) : State :=
  s.onSeq fun q => (q.settle s.cycle).write 2 n.toNat s.cycle L (some v)
/-- Merges flags into the sequencer's flag word (R37). -/
def State.seqFlags (s : State) (f : Flags) : State := s.onSeq fun q => { q with flag := mergeFlags q.flag f }

/-! ### How a slot ends (R76, R135, R138) -/

/-- The order of the stall causes. -/
def Stall.code : Stall → Nat
  | .wait => 0 | .fetch => 1 | .halt => 2 | .tile => 3 | .range => 4 | .equeue => 5 | .linkq _ _ => 6 | .store => 7 | .twait => 8

/-- The bundle stalls: the lowest cause is kept. -/
def State.stallOn (s : State) (c : Stall) : State :=
  { s with frame := { s.frame with stall := match s.frame.stall with
      | some d => if d.code ≤ c.code then some d else some c
      | none => some c } }
/-- The bundle does not issue: the first fault is kept. -/
def State.trapOn (s : State) (k : FKind) : State :=
  { s with frame := { s.frame with trap := s.frame.trap <|> some k } }
/-- An execution fault of this slot: the first in slot order is kept. -/
def State.faultOn (s : State) (k : FKind) (vaddr : Word := 0) : State :=
  { s with frame := if s.frame.fault.isSome then s.frame else { s.frame with fault := some k, vaddr := vaddr } }

/-- A slot's instruction: nothing with a false predicate (R61). -/
def State.slotRun (s : State) (p : Pred) (f : State → State) : Host.Outcome State Fault Refusal :=
  .next (if s.predHolds p then f s else s)

/-! ### Handles that slots name (R153, R156, R161) -/

/-- A handle operand of a class: the row of R162 is taken at issue; a transient state that the class does not accept stalls the
bundle, a stable one is an execution fault. -/
def State.takeHandle (s : State) (n : BitVec 6) (c : AClass) (f : State → State) : State :=
  let e := s.preCore.entry n.toNat
  if e.accepts c then f (s.onSeqCore fun k => k.takeRow n.toNat c)
  else if e.transient then s.stallOn .tile
  else s.faultOn .tileState

/-- The mode that rounding follows (R29). -/
def State.seqRm (s : State) (rm : BitVec 2) (md : Bool) : RMode :=
  RMode.ofBits (if md then s.preCore.seq.mode.truncate 2 else rm)
/-- FTZ of the sequencer's mode word (R30). -/
def State.seqFtz (s : State) : Bool := s.preCore.seq.mode.getLsbD 2

end Sys2Proof.Machine
end

