-- ==== Sys2Proof/Machine/SlotE.lean ====
section
/-!
DEFINITION. The sequencer's E slot: copy commands, drain markers, fences, the array and the epilogue, at issue (R69, R178 to R186,
R192 to R196, R207 to R210).
-/

namespace Sys2Proof.Machine

/-! ### Engine queues -/

/-- A copy channel's queue. -/
def Core.chan (k : Core) (ch : Nat) : List CopyCmd := (k.chans[ch]?).getD []
/-- Changes a copy channel's queue. -/
def Core.onChan (k : Core) (ch : Nat) (f : List CopyCmd → List CopyCmd) : Core :=
  { k with chans := k.chans.setIfInBounds ch (f (k.chan ch)) }
/-- A link send queue. -/
def Core.sendQ (k : Core) (q : Nat) : List LqCmd := (k.lq[q]?).getD []
/-- Changes a link send queue. -/
def Core.onSendQ (k : Core) (q : Nat) (f : List LqCmd → List LqCmd) : Core := { k with lq := k.lq.setIfInBounds q (f (k.sendQ q)) }

/-- Waits for room in an engine queue (cause EQUEUE): the queue as it stands before the bundle (R135; log entry 33). -/
def State.room (s : State) (ok : Bool) (f : State → State) : State := if ok then f s else s.stallOn .equeue

/-! ### Copy descriptors (R179) -/

/-- A field of a copy descriptor. -/
def cd (d : BitVec 256) (lo n : Nat) : Nat := bf d.toNat lo n
/-- Region rows. -/
def cdRows (d : BitVec 256) : Nat := cd d 192 10 + 1
/-- Region columns. -/
def cdCols (d : BitVec 256) : Nat := cd d 202 12 + 1
/-- The tensor. -/
def cdTensor (d : BitVec 256) : Nat := cd d 160 16
/-- The dimension along rows. -/
def cdRdim (d : BitVec 256) : Nat := cd d 176 3
/-- The dimension along columns. -/
def cdCdim (d : BitVec 256) : Nat := cd d 179 3
/-- Start coordinate of a dimension. -/
def cdStart (d : BitVec 256) (n : Nat) : Nat := cd d (32 * n) 32

/-- What COPY_DESC and MX_DESC check of the descriptor alone (R180, R196). -/
def cdPlain (d : BitVec 256) : Bool :=
  cd d 214 42 = 0 && cd d 182 10 = 0 && cdTensor d ≠ 0 && cdRdim d ≤ 4 && cdCdim d ≤ 4
/-- The descriptor checks of CPYIN and CPYOUT against the tile. -/
def copyDescOk (d : BitVec 256) (h : Word) (tr sp : Bool) : Bool :=
  cdPlain d && (cdRdim d ≠ cdCdim d || cdRows d = 1)
  && (if tr then cdRows d ≤ hCols h && cdCols d ≤ hRows h else cdRows d ≤ hRows h && cdCols d ≤ hCols h)
  && (!sp || (cdCdim d = 0 && cdStart d 0 % 4 = 0 && cdCols d % 4 = 0))
/-- A descriptor's address in the scalar store. -/
def descAddrOk (a : Word) : Bool := a.toNat % 32 = 0 && a.toNat ≤ 0xFFE0
/-- The descriptor at a scalar-store address, as it stands before the bundle. -/
def State.descAt (s : State) (a : Word) : BitVec 256 := BitVec.ofNat 256 (natOfBytes (s.scalarBytes s.preCore a.toNat 32))

/-- A copy command as it is issued. -/
def CopyCmd.start0 (id : Nat) (op : CopyOp) (issuer : Agent) (task : Option Nat) (x cls : Nat) : CopyCmd :=
  { id := id, op := op, treg := none, handle := 0, desc := 0, dest := 0, tr := false, sp := false, cv := false, base := 0, data := [],
    issuer := issuer, task := task, inv := none, fence := 0, st := .queued, start := 0, remote := [], tlr := 0, mtlr := 0, acks := [],
    ctx := x, cls := cls, unit := none }

/-- The task of the unit on the sequencer that acts. -/
def State.seqTask (s : State) : Option Nat := s.preCore.unit.bind fun u => u.task

/-- The class of the unit on a core's sequencer. -/
def Core.seqCls (k : Core) : Nat := (k.unit.map fun u => u.cls).getD 0

/-- Enters a command of the sequencer into a channel. -/
def State.enqCopy (s : State) (ch : Nat) (op : CopyOp) (f : CopyCmd → CopyCmd) : State :=
  let (id, s) := s.newId
  let c := f (CopyCmd.start0 id op s.cur s.seqTask s.preCore.unitCtx s.preCore.seqCls)
  s.onSeqCore fun k => k.onChan ch fun q => q ++ [c]

/-- CPYIN and CPYOUT at issue (R180). A bundle's two commands never hold more than 32 ranges (R183). -/
def State.issueCopy (s : State) (isIn : Bool) (ch : Nat) (t a : BitVec 6) (tr sp cv : Bool) : State :=
  let e := s.preCore.entry t.toNat
  let cls := if isIn then AClass.filler else AClass.copy
  if e.transient && !e.accepts cls then s.stallOn .tile
  else s.room ((s.preCore.chan ch).length < 16 && (!isIn || (s.core s.seqId).ranges.length < 32)) fun s =>
    let addr := s.rs 0 a
    let h := s.rt 2 t
    let d := s.descAt addr
    if !descAddrOk addr || !copyDescOk d h tr sp then s.faultOn .copyDesc
    else s.takeHandle t cls fun s =>
      let id := s.nextId
      let s := s.enqCopy ch (if isIn then .cin else .cout) fun c =>
        { c with treg := some t, handle := h, desc := d, tr := tr, sp := sp, cv := cv }
      if isIn then s.onSeqCore fun k => k.addRange (hBase h) (hEnd h) (.copy id) else s

/-- CPYXC at issue. -/
def State.issueCross (s : State) (ch : Nat) (t b : BitVec 6) (tr : Bool) : State :=
  let e := s.preCore.entry t.toNat
  if e.transient && !e.accepts .copy then s.stallOn .tile
  else s.room ((s.preCore.chan ch).length < 16) fun s =>
    let w := s.rs 1 b
    if bf w.toNat 6 2 ≠ 0 || bf w.toNat 14 50 ≠ 0 then s.faultOn .copyDesc
    else s.takeHandle t .copy fun s =>
      s.enqCopy ch .cxc fun c => { c with treg := some t, handle := s.rt 2 t, dest := w, tr := tr }

/-- DRAIN at issue (R185). -/
def State.issueDrain (s : State) (ch : Nat) : State :=
  s.room ((s.preCore.chan ch).length < 16) fun s => s.enqCopy ch .marker id

/-! ### QFENCE (R186) -/

/-- The queues that a fence mask names have room. -/
def Core.fenceRoom (k : Core) (mask : Nat) : Bool :=
  (List.range 4).all (fun i => !mask.testBit i || (k.chan i).length < 16)
  && (!mask.testBit 4 || k.arr.queue.length < 8) && (!mask.testBit 5 || k.arr.epi.length < 8)
  && (!mask.testBit 6 || (List.range 4).all fun q => (k.sendQ q).length < 16)

/-- An array-queue entry of zeros. -/
def ArrCmd.zero : ArrCmd := ⟨0, .fence, 0, 0, [], false, 0, false, false, false, 0, 0, 0, false, false⟩
/-- An epilogue-queue entry of zeros. -/
def EpiCmd.zero : EpiCmd := ⟨0, false, 0, 0, 0, 0, 0, 0, [], [], 0, 0, false, 0, 0⟩
/-- A link send-queue entry of zeros. -/
def LqCmd.zero : LqCmd := ⟨0, .fence, 0, 0, 0, 0, 0, 0, 0, 0, 0, 0, false, false, false, false, [], [], 0, false, false⟩

/-- Enters a fence with an identifier into every named queue. -/
def Core.putFence (k : Core) (mask id : Nat) (issuer : Agent) : Core :=
  let k := (List.range 4).foldl (fun (k : Core) i => if mask.testBit i then
      k.onChan i fun q => q ++ [{ CopyCmd.start0 id .fence issuer none 0 0 with fence := id }] else k) k
  let k := if mask.testBit 4 then { k with arr := { k.arr with queue := k.arr.queue ++ [{ ArrCmd.zero with fence := id }] } } else k
  let k := if mask.testBit 5 then
      { k with arr := { k.arr with epi := k.arr.epi ++ [{ EpiCmd.zero with isFence := true, fence := id }] } } else k
  if mask.testBit 6 then (List.range 4).foldl (fun (k : Core) q => k.onSendQ q fun l => l ++ [{ LqCmd.zero with id := id, fence := id }]) k
  else k

/-- QFENCE at issue. -/
def State.issueFence (s : State) (mask : Nat) : State :=
  s.room (s.preCore.fenceRoom mask) fun s =>
    let (id, s) := s.newId
    s.onSeqCore fun k =>
      let k := k.putFence mask id s.cur
      k.openFences k.fenceCount

/-! ### The array (R187 to R196) -/

/-- The operand class of a format: 1 INT4, 2 INT8, 3 T8, 4 F16; 0 none. -/
def mxClass (f : Nat) : Nat :=
  match f with | 0 | 1 => 1 | 2 | 3 => 2 | 11 => 3 | 8 | 9 => 4 | _ => 0
/-- K of a class. -/
def mxK (c : Nat) : Nat := if c = 1 then 512 else 256
/-- The initiation interval of a class. -/
def mxII (c : Nat) : Nat := if c = 4 then 256 else 64
/-- Whether the array is DEGRADED (R189). -/
def ArrayS.degraded (a : ArrayS) : Bool := 8 < a.disabled.length
/-- The next command number (R201). -/
def ArrayS.numAfter (n : Nat) : Nat := if n = 0xFFFFFFFF then 1 else n + 1

/-- Enters a numbered command into the array queue. -/
def State.enqArr (s : State) (c : ArrCmd) (f : ArrayS → ArrayS) : State :=
  s.onSeqCore fun k => { k with arr :=
    let a := f k.arr
    { a with queue := a.queue ++ [{ c with num := a.nextNum }], nextNum := ArrayS.numAfter a.nextNum } }

/-- MXLDW at issue (R192). -/
def State.issueMxldw (s : State) (t a b : BitVec 6) (ns : Bool) : State :=
  let e := s.preCore.entry t.toNat
  if e.transient && !e.accepts .compute then s.stallOn .tile
  else s.room (s.preCore.arr.queue.length < 8) fun s =>
    let w := s.rs 1 b
    let addr := (s.rs 0 a).toNat
    let h := s.rt 2 t
    let cls := mxClass (hFmt h)
    let argBad := bf w.toNat 10 6 ≠ 0 || bf w.toNat 28 36 ≠ 0 || (!ns && (addr % 8 ≠ 0 || 0x10000 < addr + 256))
    let bytes := if ns || argBad then [] else s.scalarBytes s.preCore addr 256
    let scales := (List.range bytes.length).filterMap fun j =>
      let v := (bytes.getD j 0).toNat
      if v = 0 then none else some (j, v)
    if s.preCore.arr.degraded then s.faultOn .arrayDegraded
    else if argBad then s.faultOn .mxArg
    else if cls = 0 then s.faultOn .mxFormat
    else if (cls = 1 || cls = 2) && !scales.isEmpty then s.faultOn .mxScale
    else s.takeHandle t .compute fun s =>
      s.enqArr { ArrCmd.zero with op := .ldw, treg := t, handle := h, scales := scales, ns := ns, word := w } fun x =>
        { x with ldwSince := true, lastLdw := hFmt h }

/-- MXSWAP at issue (R193). -/
def State.issueMxswap (s : State) : State :=
  s.room (s.preCore.arr.queue.length < 8) fun s =>
    if s.preCore.arr.degraded then s.faultOn .arrayDegraded
    else if !s.preCore.arr.ldwSince then s.faultOn .mxNoWeight
    else s.enqArr { ArrCmd.zero with op := .swap } fun x => { x with ldwSince := false, swapped := true, pendFmt := x.lastLdw }

/-- MXMUL at issue (R195, R196). -/
def State.issueMxmul (s : State) (t a b : BitVec 6) (ten acc z : Bool) : State :=
  let e := s.preCore.entry t.toNat
  if !ten && e.transient && !e.accepts .compute then s.stallOn .tile
  else s.room (s.preCore.arr.queue.length < 8) fun s =>
    let x := s.preCore.arr
    let w := s.rs 1 b
    let addr := s.rs 0 a
    let h := s.rt 2 t
    let cls := mxClass x.pendFmt
    let d := if ten then s.descAt addr else 0
    let early : Bool := match x.monitor with
      | some (c0, ii) => s.cycle < c0 + ii
      | none => false
    let go (s : State) : State :=
      let pair := if acc then 0 else (s.core s.seqId).arr.mulPairs + 1
      s.enqArr { ArrCmd.zero with op := .mul, treg := t, handle := h, word := w, ten := ten, acc := acc, z := z, desc := d, pair := pair } fun x =>
        { x with monitor := some (s.cycle, mxII cls), mulPairs := if acc then x.mulPairs else x.mulPairs + 1 }
    if x.degraded then s.faultOn .arrayDegraded
    else if early then s.faultOn .mxSchedule
    else if !x.swapped then s.faultOn .mxNoWeight
    else if bf w.toNat 12 52 ≠ 0 || (!acc && bf w.toNat 8 4 ≠ 0) then s.faultOn .mxArg
    else if ten && (!descAddrOk addr || !cdPlain d || cdRdim d = cdCdim d || 64 < cdRows d || mxK cls < cdCols d) then s.faultOn .mxDesc
    else if !ten && mxClass (hFmt h) ≠ cls then s.faultOn .mxFormat
    else if (cls = 1 || cls = 2) && bf w.toNat 0 8 ≠ 0 then s.faultOn .mxScale
    else if ten then go s
    else s.takeHandle t .compute go

/-! ### The epilogue (R207 to R210) -/

/-- Whether the block uses column scales. -/
def ebSv (b : BitVec 512) : Bool := eb b 33 1 = 1
/-- Whether the source is an accumulator bank. -/
def ebAcc (b : BitVec 512) : Bool := eb b 22 2 = 1
/-- An FP32 pattern that is finite. -/
def fin32 (x : Nat) : Bool := bf x 23 8 ≠ 255

/-- What EPI_PARAM checks of a block (R209). -/
def ebOk (b : BitVec 512) : Bool :=
  eb b 160 288 = 0 && eb b 41 23 = 0 && eb b 24 8 = 0 && eb b 16 2 = 0 && eb b 5 7 = 0
  && eb b 22 2 ≤ 1 && eb b 12 3 ≤ 4
  && (ebAcc b || (eb b 21 1 = 0 && eb b 18 3 = 0 && eb b 32 1 = 0))
  && (eb b 0 5 = 2 || eb b 0 5 = 8 || eb b 0 5 = 9 || eb b 0 5 = 11)
  && (!ebSv b || (eb b 64 16 % 4 = 0 && eb b 64 16 + 1024 ≤ 0x10000))
  && (eb b 12 3 ≠ 4 || (eb b 80 16 % 4 = 0 && eb b 80 16 + 1024 ≤ 0x10000 && fin32 (eb b 128 32) && fin32 (eb b 96 32)
        && eb b 96 32 ≠ 0 && eb b 96 32 < 2 ^ 31))

/-- 256 FP32 words of the scalar store. -/
def State.scalar256 (s : State) (a : Nat) : List Nat :=
  let bs := s.scalarBytes s.preCore a 1024
  (List.range 256).map fun j => natOfBytes ((bs.drop (4 * j)).take 4)

/-- EPI at issue (R209). -/
def State.issueEpi (s : State) (t a : BitVec 6) : State :=
  let k := s.preCore
  let addr := (s.rs 0 a).toNat
  let addrOk := addr % 64 = 0 && addr ≤ 0xFFC0
  let b : BitVec 512 := if addrOk then BitVec.ofNat 512 (natOfBytes (s.scalarBytes k addr 64)) else 0
  let bias : BitVec 6 := BitVec.ofNat 6 (eb b 35 6)
  let useBias := addrOk && ebBv b
  let eo := k.entry t.toNat
  let ei := k.entry bias.toNat
  if (eo.transient && !eo.accepts .writer) || (useBias && ei.transient && !ei.accepts .compute) then s.stallOn .tile
  else s.room (s.preCore.arr.epi.length < 8) fun s =>
    let h := s.rt 2 t
    let hb := s.rt 3 bias
    if k.arr.degraded then s.faultOn .arrayDegraded
    else if !addrOk || !ebOk b || hFmt h ≠ eb b 0 5 || (useBias && (hFmt hb ≠ 10 || bias = t)) then s.faultOn .epiParam
    else if !eo.accepts .writer || (useBias && !ei.accepts .compute) then s.faultOn .tileState
    else
      let fin := !ebAcc b
      s.onSeqCore fun k =>
        let k := k.takeRow t.toNat .writer
        let k := if useBias then k.takeRow bias.toNat .compute else k
        let x := k.arr
        let c : EpiCmd := { EpiCmd.zero with
          num := x.epiNum, treg := t, handle := h, addr := addr, block := b, biasReg := bias, biasHandle := hb
          scales := if ebSv b then s.scalar256 (eb b 64 16) else []
          lut := if eb b 12 3 = 4 then s.scalar256 (eb b 80 16) else []
          pair := if fin then x.epiPairs + 1 else 0 }
        { k with arr := { x with epi := x.epi ++ [c], epiNum := x.epiNum + 1, epiPairs := if fin then x.epiPairs + 1 else x.epiPairs } }

/-! ### The instructions -/

/-- CPYIN. -/
def execSeqCpyin (p : Pred) (ch : BitVec 2) (t a : BitVec 6) (tr sp cv : Bool) (s : State) : Host.Outcome State Fault Refusal :=
  s.slotRun p fun s => s.issueCopy true ch.toNat t a tr sp cv
/-- CPYOUT. -/
def execSeqCpyout (p : Pred) (ch : BitVec 2) (t a : BitVec 6) (tr : Bool) (s : State) : Host.Outcome State Fault Refusal :=
  s.slotRun p fun s => s.issueCopy false ch.toNat t a tr false false
/-- CPYXC. -/
def execSeqCpyxc (p : Pred) (ch : BitVec 2) (t b : BitVec 6) (tr : Bool) (s : State) : Host.Outcome State Fault Refusal :=
  s.slotRun p fun s => s.issueCross ch.toNat t b tr
/-- DRAIN. -/
def execSeqDrain (p : Pred) (ch : BitVec 2) (s : State) : Host.Outcome State Fault Refusal :=
  s.slotRun p fun s => s.issueDrain ch.toNat
/-- QFENCE. -/
def execSeqQfence (p : Pred) (mask : BitVec 7) (s : State) : Host.Outcome State Fault Refusal :=
  s.slotRun p fun s => s.issueFence mask.toNat
/-- MXLDW. -/
def execSeqMxldw (p : Pred) (t a b : BitVec 6) (ns : Bool) (s : State) : Host.Outcome State Fault Refusal :=
  s.slotRun p fun s => s.issueMxldw t a b ns
/-- MXSWAP. -/
def execSeqMxswap (p : Pred) (s : State) : Host.Outcome State Fault Refusal := s.slotRun p fun s => s.issueMxswap
/-- MXMUL. -/
def execSeqMxmul (p : Pred) (t a b : BitVec 6) (ten acc z : Bool) (s : State) : Host.Outcome State Fault Refusal :=
  s.slotRun p fun s => s.issueMxmul t a b ten acc z
/-- EPI. -/
def execSeqEpi (p : Pred) (t a : BitVec 6) (s : State) : Host.Outcome State Fault Refusal :=
  s.slotRun p fun s => s.issueEpi t a

end Sys2Proof.Machine
end

