-- ==== Sys2Proof/Machine/Copy.lean ====
section
/-!
DEFINITION. The copy channels at work (R178 to R186): starting, moving elements, parking, failing, completing; tile-to-tile transfers;
drain markers. An event's request names the core and, in `n`, the channel.
-/

namespace Sys2Proof.Machine

/-! ### Where elements lie (R179, R181, R267) -/

/-- The coordinate of a region element in a dimension. -/
def cdCoord (d : BitVec 256) (i j n : Nat) : Nat :=
  cdStart d n + (if n = cdRdim d then i else 0) + (if n = cdCdim d then j else 0)
/-- Byte offset and bit within the byte of an element, with dimension 0's coordinate mapped. -/
def cdPlace (r : BitVec 512) (d : BitVec 256) (i j : Nat) (dim0 : Nat → Nat) : Nat × Nat :=
  let eo := ((List.range (tlrRank r + 1)).map fun n =>
    (if n = 0 then dim0 (cdCoord d i j 0) else cdCoord d i j n) * tlrStride r n).sum
  let w := fmtWidth (tlrFmt r)
  (eo * w / 8, if w = 4 then 4 * (eo % 2) else 0)

/-- COPY_BOUNDS and MX_BOUNDS: some element's coordinate lies outside the tensor (R180). -/
def cdInside (r : BitVec 512) (d : BitVec 256) : Bool :=
  (List.range 5).all fun n =>
    let last := cdCoord d (cdRows d - 1) (cdCols d - 1) n
    if n ≤ tlrRank r then last < tlrExtent r n else last = 0

/-- Elements that a command moves. -/
def CopyCmd.count (m : CopyCmd) : Nat :=
  match m.op with
  | .cin | .cout => cdRows m.desc * cdCols m.desc
  | .cxc => hRows m.handle * hCols m.handle
  | .push => 64
  | _ => 0

/-- The width of an element in memory. -/
def CopyCmd.width (m : CopyCmd) : Nat := if m.op = .push then 64 else fmtWidth (tlrFmt m.tlr)

/-- The parts in memory of element `e`: TLR, address, bytes, bit. With `.SP` they are the metadata nibble and the group's two
values (R181). -/
def CopyCmd.parts (m : CopyCmd) (e : Nat) : List (BitVec 512 × Word × Nat × Nat) :=
  let d := m.desc
  let i := e / cdCols d
  let j := e % cdCols d
  let nb := (m.width + 7) / 8
  let t := cdTensor d
  if m.op = .push then [(m.tlr, m.base + BitVec.ofNat 64 (8 * e), 8, 0)]
  else if m.sp then
    let p := cdPlace m.mtlr d i j fun x => x / 4
    let a := cdPlace m.tlr d i j fun x => 2 * (x / 4)
    let b := cdPlace m.tlr d i j fun x => 2 * (x / 4) + 1
    [(m.mtlr, tensorAddr (t + 1) p.1, 1, p.2), (m.tlr, tensorAddr t a.1, nb, a.2), (m.tlr, tensorAddr t b.1, nb, b.2)]
  else
    let p := cdPlace m.tlr d i j fun x => x
    [(m.tlr, tensorAddr t p.1, nb, p.2)]

/-- Elements from `e` on with where each part goes, up to the first part that does not translate; that outcome and its address. -/
def State.copyScan (s : State) (c : Nat) (m : CopyCmd) (k : AKind) : Nat → Nat → List (Nat × List (Loc × Nat × Nat)) × Option (TOut × Word)
  | 0, _ => ([], none)
  | fuel + 1, e =>
    let ps := (m.parts e).map fun p => (p, s.translate (some c) m.ctx p.1 p.2.1 p.2.2.1 k)
    match ps.find? fun p => match p.2 with | .ok _ => false | _ => true with
    | some p => ([], some (p.2, p.1.2.1))
    | none =>
      let locs := ps.filterMap fun p => match p.2 with | .ok l => some (l, p.1.2.2.1, p.1.2.2.2) | _ => none
      let (l, o) := State.copyScan s c m k fuel (e + 1)
      ((e, locs) :: l, o)

/-! ### Requests for what lies elsewhere (R184, R284) -/

/-- Opens a read request for every run. -/
def State.readRuns (s : State) (who : Requester) (x : Nat) (runs : List ((Bool × Nat × Nat) × Nat × Nat)) : List Nat × State :=
  runs.foldl (fun (acc : List Nat × State) r =>
    let (id, s) := acc.2.request who x (farLoc r.1 r.2.1) true r.2.2 []
    (acc.1 ++ [id], s)) ([], s)

/-- The bytes of an access within a line, from its home or from the answered requests of the runs. -/
def State.lineBytes (s : State) (runs : List ((Bool × Nat × Nat) × Nat × Nat)) (ids : List Nat) (l : Loc) (n : Nat) : List Byte :=
  match l with
  | .home h a => s.homeBytes h a n
  | l => match l.far with
    | some (h, d, k, a) =>
      match (runs.zip ids).find? fun r => r.1.1 = (h, d, k) && r.1.2.1 ≤ a && a + n ≤ r.1.2.1 + r.1.2.2 with
      | some (r, id) => match s.reqStat id with
        | .answered bs => (bs.drop (a - r.2.1)).take n
        | _ => List.replicate n 0
      | none => List.replicate n 0
    | none => List.replicate n 0
/-- The bytes of an access. -/
def State.locBytes (s : State) (runs : List ((Bool × Nat × Nat) × Nat × Nat)) (ids : List Nat) (l : Loc) (n : Nat) : List Byte :=
  (l.lines n).flatMap fun p => s.lineBytes runs ids p.2.2 p.2.1

/-- Forgets requests. -/
def State.dropReqs (s : State) (ids : List Nat) : State := ids.foldl State.dropReq s
/-- Whether some request still waits. -/
def State.someOpen (s : State) (ids : List Nat) : Bool := ids.any s.reqOpen
/-- The kind with which one of the requests was refused. -/
def State.someRefused (s : State) (ids : List Nat) : Option FKind :=
  ids.findSome? fun id => match s.reqStat id with | .refused k => some k | _ => none

/-! ### Commands in their channel -/

/-- The head of a channel's queue. -/
def State.copyHead (s : State) (c ch : Nat) : Option CopyCmd := ((s.core c).chan ch).head?
/-- Changes the head of a channel's queue. -/
def State.onCopyHead (s : State) (c ch : Nat) (f : CopyCmd → CopyCmd) : State :=
  s.onCore c fun k => k.onChan ch fun q => match q with | [] => [] | m :: t => f m :: t
/-- Takes the head out of a channel; fences and drain waits that this lets go follow. -/
def State.popCopy (s : State) (c ch : Nat) : State :=
  s.onCore c fun k =>
    let k := k.onChan ch fun q => q.tail
    let k := k.openFences k.fenceCount
    { k with bands := k.bands.map fun (e : Nat × Band) => match e.2.wait with
        | .marker id => if k.chans.toList.any fun q => q.any fun m => m.id = id then e
            else (e.1, { e.2 with wait := .none, st := if e.2.st = .waiting then .ready else e.2.st })
        | _ => e }

/-- What a command's scoreboard entry does at its end (R162): a fill goes READY or, when it failed, ALLOC; a reader releases. -/
def Core.endCopy (k : Core) (m : CopyCmd) (ok : Bool) : Core :=
  let k := k.dropRange (.copy m.id)
  match m.treg with
  | none => k
  | some t =>
    match m.op with
    | .cin => k.toState t.toNat (if ok then .ready else .alloc)
    | .cout => if m.data.isEmpty then k.dropCopy t.toNat else k
    | .cxc => k.dropCopy t.toNat
    | _ => k

/-- The record of a copy's fault; `EV.KIND` and the class come from its issuer. -/
def State.copyFault (s : State) (c ch : Nat) (m : CopyCmd) (k : FKind) (vaddr pte : Word) : State :=
  let kind := match m.issuer with | .band _ _ => if m.inv.isSome then 3 else 2 | _ => 1
  let (slice, band) := match m.issuer with | .band _ n => (n / 16, n % 16) | _ => (0, 0)
  s.takeFault m.ctx { FRec.zero with
    kind := k, core := BitVec.ofNat 6 c, slice := BitVec.ofNat 3 slice, band := BitVec.ofNat 4 band
    seqf := kind = 1, rtn := kind = 3, invid := BitVec.ofNat 32 (m.inv.getD 0), vaddr := vaddr, pte := pte } (.chan c ch) kind m.cls

/-- A command fails (R180): the record, the tile's row, and the channel goes on. -/
def State.failCopy (s : State) (c ch : Nat) (m : CopyCmd) (k : FKind) (vaddr pte : Word) : State :=
  let s := s.dropReqs (m.remote ++ m.acks)
  let s := s.onCore c fun q => (q.endCopy m false).dropRange (.arrive c m.id)
  ((s.popCopy c ch).copyFault c ch m k vaddr pte)

/-! ### COPY_COMMAND_START (R180) -/

/-- The metadata nibbles of a command's groups (R181), one for each. -/
def CopyCmd.metaParts (m : CopyCmd) : List (BitVec 512 × Word × Nat × Nat) :=
  if m.sp then ((List.range m.count).filter fun e => e % cdCols m.desc % 4 = 0).filterMap fun e => (m.parts e).head? else []
/-- Where the nibbles lie, up to the first that does not translate; that outcome and its address. Once elements have moved they have been
checked. -/
def State.metaScan (s : State) (c : Nat) (m : CopyCmd) : List (Loc × Nat) × Option (TOut × Word) :=
  if m.start ≠ 0 then ([], none)
  else
    let ps := m.metaParts.map fun p => (p, s.translate (some c) m.ctx p.1 p.2.1 1 .read)
    let good := ps.takeWhile fun p => match p.2 with | .ok _ => true | _ => false
    (good.filterMap fun p => match p.2 with | .ok l => some (l, p.1.2.2.2) | _ => none, (ps[good.length]?).map fun p => (p.2, p.1.2.1))
/-- COPY_META: a nibble has p0 ≥ p1. -/
def badNibble (bs : List Byte) (bit : Nat) : Bool := bf (natOfBytes bs) (bit + 2) 2 ≤ bf (natOfBytes bs) bit 2
/-- Whether one of the nibbles that are at hand is bad: those in local homes, and those that answered requests brought. -/
def State.metaBad (s : State) (runs : List ((Bool × Nat × Nat) × Nat × Nat)) (ids : List Nat) (ms : List (Loc × Nat)) : Bool :=
  ms.any fun l => (l.1.far.isNone || !ids.isEmpty) && badNibble (s.locBytes runs ids l.1 1) l.2

/-- Whether `.CV` takes a format. -/
def cvFmt (f : Nat) : Bool := f = 8 || f = 9 || f = 10 || f = 11

/-- The checks against the TLR, in the order of R180. -/
def copyTlrFault (m : CopyCmd) (r : BitVec 512) : Option FKind :=
  let f := tlrFmt r
  let h := hFmt m.handle
  if (if m.cv then !cvFmt f || !cvFmt h else f ≠ h) then some .copyFormat
  else if !cdInside r m.desc then some .copyBounds
  else if tlrSp r ≠ m.sp then some .copySparse
  else none

/-- Whether a command that writes memory must wait: its band's earlier loads happen before its writes (R299, R303). -/
def State.copyAfterLoads (s : State) (m : CopyCmd) : Bool :=
  match m.op, m.issuer with
  | .cout, .band c n | .push, .band c n =>
    ((s.band c n).map fun b => b.acc.any fun a => !a.tile && (a.kind = .load || a.kind = .atom)).getD false
  | _, _ => false

/-- A queued command at the head of its channel starts. Metadata that is not at hand is checked before the first element is written. -/
def evCopyCommandStart (s : State) : State :=
  let c := s.req.core
  let ch := s.req.n
  match s.copyHead c ch with
  | none => s
  | some m =>
    if m.st ≠ .queued || s.cmdHeld c ch m || s.copyAfterLoads m then s
    else
      match m.op with
      | .marker | .fence => s
      | .cxc => s.onCopyHead c ch fun m => { m with st := .waitDest }
      | .push =>
        match s.checkTensor (some c) m.ctx m.base 512 with
        | .error k => s.failCopy c ch m k m.base 0
        | .ok r => s.onCopyHead c ch fun m => { m with st := .moving, tlr := r }
      | _ =>
        match s.tlr (some c) m.ctx (cdTensor m.desc) with
        | .error k => s.failCopy c ch m k 0 0
        | .ok r =>
          let meta1 : Except FKind (BitVec 512) := if m.sp then s.tlr (some c) m.ctx (cdTensor m.desc + 1) else .ok 0
          let bad := copyTlrFault m r <|> match meta1 with
            | .error k => some k
            | .ok g => if m.sp && tlrFmt g ≠ 1 then some .copyFormat else none
          let m' := { m with tlr := r, mtlr := meta1.toOption.getD 0 }
          match bad with
          | some k => s.failCopy c ch m k 0 0
          | none =>
            if s.metaBad [] [] (s.metaScan c m').1 then s.failCopy c ch m .copyMeta 0 0
            else s.onCopyHead c ch fun _ => { m' with st := .moving }

/-! ### Moving (R179 to R181, R184) -/

/-- The tile element that region element `e` pairs with. -/
def CopyCmd.tileAt (m : CopyCmd) (e : Nat) : Nat × Nat :=
  let i := e / cdCols m.desc
  let j := e % cdCols m.desc
  if m.tr then (j, i) else (i, j)

/-- The value that a fill writes, from the bytes of an element's parts (R51, R181); none where a nibble has p0 ≥ p1. -/
def fillValue (m : CopyCmd) (e : Nat) (parts : List (Nat × Nat)) : Option Nat :=
  let w := m.width
  let val := fun (p : Nat × Nat) => bf p.1 p.2 w
  let x : Option Nat :=
    if m.sp then
      let nib := (parts.getD 0 (0, 0))
      let p0 := bf nib.1 nib.2 2
      let p1 := bf nib.1 (nib.2 + 2) 2
      let pos := (cdStart m.desc 0 + e % cdCols m.desc) % 4
      if p1 ≤ p0 then none
      else some (if pos = p0 then val (parts.getD 1 (0, 0)) else if pos = p1 then val (parts.getD 2 (0, 0)) else 0)
    else some (val (parts.getD 0 (0, 0)))
  x.map fun x =>
    if m.cv then
      match Fmt.ofCode (hFmt m.handle), Fmt.ofCode (tlrFmt m.tlr) with
      | some d, some f => (convert d f .rne false false x).bits
      | _, _ => x
    else x

/-- The layout unit's copies after elements' parts were used: one count for each 128-byte line (R274). -/
def State.touchParts (s : State) (c : Nat) (m : CopyCmd) (k : AKind) (es : List Nat) : State :=
  s.touchLines c m.ctx k (es.flatMap fun e => (m.parts e).map fun p => (p.1, p.2.1))

/-- Whether a scan's stop parks the copy (R180, R277). -/
def parkKind (k : FKind) : Bool :=
  k = .pageUnmapped || k = .pageAccess || k = .pagePoisoned || k = .inputLocked

/-- What a stop of the scan does: a page fault parks the command at the first element not yet moved. -/
def State.copyStop (s : State) (c ch : Nat) (m : CopyCmd) (stop : Option (TOut × Word)) : State :=
  match stop with
  | some (.fault k pte, va) =>
    if parkKind k then (s.onCopyHead c ch fun m => { m with st := .parked }).copyFault c ch m k va pte else s
  | _ => s

/-- What a fill reads next: the metadata that is still to be checked, the elements, the first stop, and the requests for what lies elsewhere.
Metadata comes first: a stop in it holds every element. -/
def State.fillScan (s : State) (c : Nat) (m : CopyCmd) :
    List (Loc × Nat) × List (Nat × List (Loc × Nat × Nat)) × Option (TOut × Word) × List ((Bool × Nat × Nat) × Nat × Nat) :=
  let (ms, mstop) := s.metaScan c m
  let (oks, stop) := if mstop.isSome then ([], mstop) else s.copyScan c m .read (m.count - m.start) m.start
  (ms, oks, stop, farRuns ((ms.map fun l => (l.1, 1)) ++ oks.flatMap fun o => o.2.map fun l => (l.1, l.2.1)))

/-- CPYIN: the elements that translate are written, once the metadata of all of them is known to be good (COPY_META). -/
def State.moveIn (s : State) (c ch : Nat) (m : CopyCmd) : State :=
  let (ms, oks, stop, runs) := s.fillScan c m
  if !runs.isEmpty && m.remote.isEmpty then
    let (ids, s) := s.readRuns (.copy c ch m.id) m.ctx runs
    s.onCopyHead c ch fun m => { m with remote := ids }
  else if s.someOpen m.remote || (s.someRefused m.remote).isSome || s.metaBad runs m.remote ms then s
  else
    let vals := oks.map fun o => (o.1, fillValue m o.1 (o.2.map fun l => (natOfBytes (s.locBytes runs m.remote l.1 l.2.1), l.2.2)))
    let good := vals.takeWhile fun v => v.2.isSome
    let s := s.onCore c fun k => good.foldl (fun k v =>
      let (i, j) := m.tileAt v.1
      s.setTileElem k m.handle i j (v.2.getD 0)) k
    let s := (s.touchParts c m .read (good.map fun v => v.1)).dropReqs m.remote
    let m := { m with start := m.start + good.length, remote := [] }
    let s := s.onCopyHead c ch fun _ => m
    if m.start = m.count then (s.onCore c fun k => k.endCopy m true).popCopy c ch
    else if good.length < oks.length then s
    else s.copyStop c ch m stop

/-- CPYOUT and pushes: the tile is read once; elements are written where they translate; remote writes are awaited. -/
def State.moveOut (s : State) (c ch : Nat) (m : CopyCmd) : State :=
  let k := s.core c
  let data : List Word := if m.data.isEmpty then
      (List.range m.count).map fun e => BitVec.ofNat 64 (s.tileElem k m.handle (m.tileAt e).1 (m.tileAt e).2)
    else m.data
  let s := match m.treg with
    | some t => if m.data.isEmpty then s.onCore c fun k => k.dropCopy t.toNat else s
    | none => s
  let m := { m with data := data }
  let s := s.onCopyHead c ch fun _ => m
  let (oks, stop) := s.copyScan c m .write (m.count - m.start) m.start
  let flat := oks.flatMap fun o => o.2.map fun l => (o.1, l)
  let runs := farRuns (flat.map fun f => (f.2.1, f.2.2.1))
  if m.width = 4 && !runs.isEmpty && m.remote.isEmpty then
    let (ids, s) := s.readRuns (.copy c ch m.id) m.ctx runs
    s.onCopyHead c ch fun m => { m with remote := ids }
  else if s.someOpen m.remote || (s.someRefused m.remote).isSome || (s.someRefused m.acks).isSome then s
  else
    let merge := fun (old : List Byte) (e bit n : Nat) =>
      let v := (data.getD e 0).toNat
      if m.width = 4 then bytesOfNat 1 (bf (natOfBytes old) (4 - bit) 4 <<< (4 - bit) ||| (v % 16) <<< bit) else bytesOfNat n v
    let s := flat.foldl (fun s f => match f.2.1 with
      | .home h a => s.homeWrite h a (merge (s.homeBytes h a f.2.2.1) f.1 f.2.2.2 f.2.2.1)
      | _ => s) s
    let far := flat.filterMap fun f => (f.2.1.far).map fun u => (f.1, u, f.2.2)
    let bufs := (runs.zip (List.range runs.length)).map fun r =>
      let old : List Byte := match m.remote[r.2]? with
        | some id => match s.reqStat id with | .answered bs => bs | _ => List.replicate r.1.2.2 0
        | none => List.replicate r.1.2.2 0
      far.foldl (fun (b : List Byte) f =>
        let (h, d, kk, a) := f.2.1
        if (h, d, kk) = r.1.1 && r.1.2.1 ≤ a && a + f.2.2.1 ≤ r.1.2.1 + r.1.2.2 then
          let o := a - r.1.2.1
          b.take o ++ merge ((b.drop o).take f.2.2.1) f.1 f.2.2.2 f.2.2.1 ++ b.drop (o + f.2.2.1)
        else b) old
    let (ids, s) := (runs.zip bufs).foldl (fun (acc : List Nat × State) r =>
      let (id, s) := acc.2.request (.copy c ch m.id) m.ctx (farLoc r.1.1 r.1.2.1) false r.1.2.2 r.2
      (acc.1 ++ [id], s)) ([], s)
    let s := (s.touchParts c m .write (oks.map fun o => o.1)).dropReqs m.remote
    let m := { m with start := m.start + oks.length, remote := [], acks := m.acks ++ ids }
    let s := s.onCopyHead c ch fun _ => m
    if m.start = m.count then
      if s.someOpen m.acks then s
      else ((s.dropReqs m.acks).onCore c fun k => k.endCopy m true).popCopy c ch
    else s.copyStop c ch m stop

/-- The handle value of a core's `t` register. -/
def State.handleOf (s : State) (c n : Nat) : Word :=
  (((s.core c).seq.settle s.cycle).value 2 n s.cycle).getD (s.free (readSite 8 0 2 n))

/-- CPYXC: every element goes to the destination tile, which goes READY (R182). The destination handle is the one that
CPYXC_TRANSFER_BEGIN kept in `base`. A transfer whose destination unit has gone fails as XC_REFUSED. -/
def State.moveCross (s : State) (c ch : Nat) (m : CopyCmd) : State :=
  let d := m.destCore
  if !(s.core d).ranges.any fun r => r.owner = .arrive c m.id then s.failCopy c ch m .xcRefused 0 0 else
  let src := s.core c
  let cols := hCols m.handle
  let s := s.onCore d fun k => (List.range m.count).foldl (fun k e =>
    let i := e / cols
    let j := e % cols
    let v := s.tileElem src m.handle i j
    if m.tr then s.setTileElem k m.base j i v else s.setTileElem k m.base i j v) k
  let s := s.onCore d fun k => (k.toState m.destReg .ready).dropRange (.arrive c m.id)
  (s.onCore c fun k => k.endCopy m true).popCopy c ch

/-- COPY_COMMAND_COMPLETE (R184): the head's elements move; it completes when all have. -/
def evCopyCommandComplete (s : State) : State :=
  let c := s.req.core
  let ch := s.req.n
  match s.copyHead c ch with
  | none => s
  | some m =>
    if m.st ≠ .moving then s
    else
      match m.op with
      | .cin => s.moveIn c ch m
      | .cout | .push => s.moveOut c ch m
      | .cxc => s.moveCross c ch m
      | _ => s

/-- Why a moving command fails (R180, R283): a refused request, a poisoned page that it reads, a fault that does not park, or
metadata with p0 ≥ p1. -/
def State.copyFailure (s : State) (c : Nat) (m : CopyCmd) : Option (FKind × Word × Word) :=
  match s.someRefused (m.remote ++ m.acks) with
  | some k => some (k, 0, 0)
  | none =>
    if s.someOpen m.remote then none
    else
      let isIn := m.op = .cin
      if m.op ≠ .cin && m.op ≠ .cout && m.op ≠ .push then none
      else
        let (ms, oks, stop, runs) := if isIn then s.fillScan c m
          else
            let (oks, stop) := s.copyScan c m .write (m.count - m.start) m.start
            ([], oks, stop, [])
        let bad := isIn && m.sp && (runs.isEmpty || !m.remote.isEmpty) && (s.metaBad runs m.remote ms || oks.any fun o =>
          (fillValue m o.1 (o.2.map fun l => (natOfBytes (s.locBytes runs m.remote l.1 l.2.1), l.2.2))).isNone)
        if bad then some (.copyMeta, 0, 0)
        else match stop with
          | some (.poison pte, va) => some (.pagePoisoned, va, pte)
          | some (.fault k pte, va) => if parkKind k then none else some (k, va, pte)
          | _ => none

/-- COPY_FAIL (R180). -/
def evCopyFail (s : State) : State :=
  let c := s.req.core
  let ch := s.req.n
  match s.copyHead c ch with
  | none => s
  | some m =>
    if m.st ≠ .moving then s
    else match s.copyFailure c m with
      | some (k, va, pte) => s.failCopy c ch m k va pte
      | none => s

/-- CPYXC_TRANSFER_BEGIN (R182). With 32 ranges held at the destination the transfer waits there (log entry 116). -/
def evCpyxcTransferBegin (s : State) : State :=
  let c := s.req.core
  let ch := s.req.n
  match s.copyHead c ch with
  | none => s
  | some m =>
    if m.st ≠ .waitDest then s
    else
      let d := m.destCore
      let k := s.core d
      if !(s.ctx m.ctx).cores.toNat.testBit d || !k.runs m.ctx then s.failCopy c ch m .xcRefused 0 0
      else if (k.entry m.destReg).st ≠ .alloc || 32 ≤ k.ranges.length then s
      else
        let h := s.handleOf d m.destReg
        let fits := if m.tr then hRows h = hCols m.handle && hCols h = hRows m.handle else hRows h = hRows m.handle && hCols h = hCols m.handle
        if !fits || hFmt h ≠ hFmt m.handle then s.failCopy c ch m .xcShape 0 0
        else
          let s := s.onCore d fun k => (k.toState m.destReg .filling).addRange (hBase h) (hEnd h) (.arrive c m.id)
          s.onCopyHead c ch fun m => { m with st := .moving, base := h }

/-- DRAIN_MARKER_COMPLETE (R185). -/
def evDrainMarkerComplete (s : State) : State :=
  match s.copyHead s.req.core s.req.n with
  | some m => if m.op = .marker then s.popCopy s.req.core s.req.n else s
  | none => s

/-! ### The steps -/

/-- COPY_COMMAND_START. -/
def execCopyCommandStart (s : State) : Host.Outcome State Fault Refusal := .next (evCopyCommandStart s)
/-- COPY_COMMAND_COMPLETE. -/
def execCopyCommandComplete (s : State) : Host.Outcome State Fault Refusal := .next (evCopyCommandComplete s)
/-- COPY_FAIL. -/
def execCopyFail (s : State) : Host.Outcome State Fault Refusal := .next (evCopyFail s)
/-- CPYXC_TRANSFER_BEGIN. -/
def execCpyxcTransferBegin (s : State) : Host.Outcome State Fault Refusal := .next (evCpyxcTransferBegin s)
/-- DRAIN_MARKER_COMPLETE. -/
def execDrainMarkerComplete (s : State) : Host.Outcome State Fault Refusal := .next (evDrainMarkerComplete s)

end Sys2Proof.Machine
end

