-- ==== Sys2Proof/Machine/Elem.lean ====
section
/-!
DEFINITION. Element operations shared by the sequencer, the lanes, the array and the epilogue: integer operations
(R246 to R253), minimum, maximum and comparisons (R148, R257, R258, R261), the array's sums (R52, R53) and the
epilogue's element (R211).
-/

namespace Sys2Proof.Machine

/-! ### Integer elements -/

/-- An exact integer into an element: wrapped, or clamped with SAT and NX (R246). -/
def intRes (f : Fmt) (sat : Bool) (x : Int) : Res :=
  if sat then let (r, c) := satInt f x; ⟨r, fIf c (fSAT ||| fNX)⟩ else ⟨wrap f.width x, 0#10⟩

/-- The high half of the full product (R247). -/
def mulhE (f : Fmt) (a b : Nat) : Res := ⟨wrap f.width (intOf f a * intOf f b / 2 ^ f.width), 0#10⟩

/-- Division truncated toward zero (R248). -/
def idivE (f : Fmt) (sat : Bool) (a b : Nat) : Res :=
  let x := intOf f a
  let y := intOf f b
  if y = 0 then ⟨if f.signed then wrap f.width (-1) else 2 ^ f.width - 1, fDZ⟩
  else
    let q := x.tdiv y
    if f.imax < q then (if sat then ⟨wrap f.width f.imax, fSAT ||| fNX⟩ else ⟨wrap f.width q, 0#10⟩)
    else ⟨wrap f.width q, 0#10⟩

/-- The remainder, with the dividend's sign (R248). -/
def iremE (f : Fmt) (a b : Nat) : Res :=
  let x := intOf f a
  let y := intOf f b
  if y = 0 then ⟨wrap f.width x, fDZ⟩ else ⟨wrap f.width (x.tmod y), 0#10⟩

/-- The smaller element (R249). -/
def iminE (f : Fmt) (a b : Nat) : Res := ⟨if intOf f a ≤ intOf f b then a else b, 0#10⟩
/-- The larger element (R249). -/
def imaxE (f : Fmt) (a b : Nat) : Res := ⟨if intOf f b ≤ intOf f a then a else b, 0#10⟩

/-- |a|; the most negative value wraps, or clamps with SAT and NX (R249). -/
def iabsE (f : Fmt) (sat : Bool) (a : Nat) : Res := intRes f sat ((intOf f a).natAbs : Int)
/-- −a (R249). -/
def inegE (f : Fmt) (sat : Bool) (a : Nat) : Res := intRes f sat (-(intOf f a))

/-- The number of set bits among the low n. -/
def popc (x : Nat) : Nat → Nat
  | 0 => 0
  | n + 1 => b2n (x.testBit n) + popc x n

/-- The number of clear bits above the highest set bit of the low n. -/
def clz (x : Nat) : Nat → Nat
  | 0 => 0
  | n + 1 => if x.testBit n then 0 else 1 + clz x n

/-- The number of clear bits below the lowest set bit, from bit i, for n bits. -/
def ctz (x i : Nat) : Nat → Nat
  | 0 => 0
  | n + 1 => if x.testBit i then 0 else 1 + ctz x (i + 1) n

/-- The low w bits in reverse order: bit k becomes bit w - 1 - k. -/
def brev (x w : Nat) : Nat → Nat
  | 0 => 0
  | n + 1 => b2n (x.testBit n) * 2 ^ (w - 1 - n) + brev x w n

/-- `IBIT` (R249): functions 0 POPC, 1 CLZ, 2 CTZ, 3 BREV. -/
def ibitE (f : Fmt) (fn a : Nat) : Res :=
  let w := f.width
  let r := match fn with
    | 0 => popc a w
    | 1 => clz a w
    | 2 => ctz a 0 w
    | _ => brev a w w
  ⟨r % 2 ^ w, 0#10⟩

/-- `ISHIFT` (R250): functions 0 SHL, 1 SHR, 2 SAR; only the width matters. -/
def ishiftE (w fn a n : Nat) : Res :=
  let r := match fn with
    | 0 => if n < w then (a <<< n) % 2 ^ w else 0
    | 1 => if n < w then a >>> n else 0
    | _ => wrap w (sx w a / 2 ^ (if n < w then n else w))
  ⟨r, 0#10⟩

/-- One bit of `ILOGIC`'s table as a mask over all bits (R251). -/
def lutMask (fn : Nat) (a b : Word) (i : Nat) : Word :=
  if fn.testBit i then
    (if i.testBit 1 then a else ~~~a) &&& (if i.testBit 0 then b else ~~~b)
  else 0#64

/-- `ILOGIC` on 64 bits (R251). -/
def ilogic (fn : Nat) (a b : Word) : Word :=
  lutMask fn a b 0 ||| lutMask fn a b 1 ||| lutMask fn a b 2 ||| lutMask fn a b 3

/-- The position of a bit field (R252). -/
def bfPos (w b : Nat) : Nat := b % 2 ^ (w / 2)
/-- The length of a bit field, capped at the width (R252). -/
def bfLen (w b : Nat) : Nat := min w (b / 2 ^ (w / 2) % 2 ^ (w - w / 2))

/-- `BFX` (R252). -/
def bfxE (f : Fmt) (a b : Nat) : Res :=
  let w := f.width
  let len := bfLen w b
  if len = 0 then ⟨0, 0#10⟩
  else
    let fld := ((intOf f a / 2 ^ bfPos w b) % 2 ^ len).toNat
    ⟨if f.signed then wrap w (sx len fld) else fld, 0#10⟩

/-- `BFI` (R252). -/
def bfiE (f : Fmt) (a b c : Nat) : Res :=
  let w := f.width
  let len := bfLen w b
  let pos := bfPos w b
  let mask := ((2 ^ len - 1) <<< pos) % 2 ^ w
  ⟨((c &&& (2 ^ w - 1 - mask)) ||| (((a % 2 ^ len) <<< pos) % 2 ^ w)), 0#10⟩

/-- `ICMP` (R253): EQ, NE, LT, LE, GT, GE. -/
def icmpE (f : Fmt) (cc a b : Nat) : Bool :=
  let x := intOf f a
  let y := intOf f b
  match cc with
  | 0 => x = y
  | 1 => x ≠ y
  | 2 => x < y
  | 3 => x ≤ y
  | 4 => y < x
  | _ => y ≤ x

/-! ### Floating-point comparison, minimum and maximum -/

/-- The truth of a compare code for an ordering, none meaning unordered (R148). -/
def ccTrue (cc : Nat) (o : Option Ordering) : Bool :=
  match cc with
  | 0 => o = some .eq
  | 1 => o ≠ some .eq
  | 2 => o = some .lt
  | 3 => o = some .lt ∨ o = some .eq
  | 4 => o = some .gt
  | 5 => o = some .gt ∨ o = some .eq
  | 6 => o = none
  | _ => o ≠ none

/-- LT, LE, GT and GE: the codes that raise INV on any unordered operand (R148). -/
def ccSignals (cc : Nat) : Bool := 2 ≤ cc && cc ≤ 5

/-- `FCMP` on one pair of values (R148, R258): the truth and the flags. -/
def fcmpE (f : Ieee) (ftz : Bool) (cc a b : Nat) : Bool × Flags :=
  let x := f.valFtz ftz a
  let y := f.valFtz ftz b
  let un := x.isNan || y.isNan
  let o := if un then none else some (x.cmp y)
  (ccTrue cc o, fIf (x.isSnan || y.isSnan || (un && ccSignals cc)) fINV)

/-- `SLCMP` on one pair of codes (R261): NaV in the role of a NaN that does not signal. -/
def slcmpE (ib cc a b : Nat) : Bool × Flags :=
  let o := sliCmp ib a b
  (ccTrue cc o, fIf (decide (o = none) && ccSignals cc) fINV)

/-- A non-NaN input as it is written back: a zero in its own form (R257). -/
def outForm (f : Ieee) (v : Val) (x : Nat) : Nat := if v.isZero then f.signBit v.neg else x

/-- `FMIN` and `FMAX` (R257). -/
def fminmaxE (f : Ieee) (mx ftz : Bool) (a b : Nat) : Res :=
  let x := f.valFtz ftz a
  let y := f.valFtz ftz b
  let inv := fIf (x.isSnan || y.isSnan) fINV
  if x.isNan && y.isNan then ⟨f.nanOf x, inv ||| fNF⟩
  else if x.isNan then ⟨outForm f y b, inv⟩
  else if y.isNan then ⟨outForm f x a, inv⟩
  else
    let less := match x.cmp y with
      | .lt => true
      | .gt => false
      | .eq => x.neg && !y.neg
    if less != mx then ⟨outForm f x a, 0#10⟩ else ⟨outForm f y b, 0#10⟩

/-! ### The array (R52, R53) -/

/-- One group's running sum: its exact finite part and the special values met. -/
structure GSum where
  nan : Bool
  pinf : Bool
  ninf : Bool
  sum : Int × Int
deriving DecidableEq, Repr

/-- The empty group. -/
def GSum.zero : GSum := ⟨false, false, false, (0, 0)⟩

/-- Adds one product with its power-of-two scale (R42, R53). -/
def GSum.add (g : GSum) (a b : Val) (sc : Int) : GSum :=
  if a.isNan || b.isNan || a = .nar || b = .nar then { g with nan := true }
  else if a.isInf || b.isInf then
    if a.isZero || b.isZero then { g with nan := true }
    else if a.neg != b.neg then { g with ninf := true } else { g with pinf := true }
  else
    let p := mulDyad a b
    if p.1 = 0 then g else { g with sum := dyadAdd g.sum (p.1, p.2 + sc) }

/-- A group's sum rounded into FP32 (R52, R53). -/
def GSum.round (g : GSum) : Nat :=
  if g.nan || (g.pinf && g.ninf) then ieee32.defNan
  else if g.pinf then ieee32.inf false
  else if g.ninf then ieee32.inf true
  else (ieee32.roundDyad .rne false false g.sum).bits

/-- FP32 addition in the array: a NaN result is always the default NaN (R53). -/
def arrAdd (a b : Nat) : Nat :=
  let r := (ieee32.add .rne false a b).bits
  if (ieee32.val r).isNan then ieee32.defNan else r

/-- The products of up to n positions of one group. -/
def groupSum : Nat → List (Val × Val) → Int → GSum → GSum × List (Val × Val)
  | 0, l, _, g => (g, l)
  | _, [], _, g => (g, [])
  | n + 1, (a, b) :: l, sc, g => groupSum n l sc (g.add a b sc)

/-- The sum over the groups of 16 of one activation row and one weight column, in ascending order (R52). -/
def floatSums : Nat → List (Val × Val) → Int → Option Nat → Nat
  | 0, _, _, acc => acc.getD 0
  | n + 1, l, sc, acc =>
    let (g, rest) := groupSum 16 l sc GSum.zero
    floatSums n rest sc (some (match acc with
      | none => g.round
      | some a => arrAdd a g.round))

/-- The wrapped integer sum (R52): wrapping each group and each addition is wrapping once. -/
def intSums (l : List (Int × Int)) : Nat := wrap 32 (l.foldl (fun s p => s + p.1 * p.2) 0)

/-! ### The epilogue's element (R211) -/

/-- The status bits of the parameter block (R208): NX, UF, OF, SAT, NF, INV. -/
def statBits (f : Flags) : Nat :=
  let g (m : Flags) (n : Nat) : Nat := if f &&& m ≠ 0#10 then 2 ^ n else 0
  g fNX 0 + g fUF 1 + g fOF 2 + g fSAT 3 + g fNF 4 + g fINV 5

/-- NF for a NaN or infinite FP32 pattern. -/
def nfOf (x : Nat) : Flags := fIf ((ieee32.val x).isNan || (ieee32.val x).isInf) fNF

/-- A rounded activation, or the free value where the rounding is undecided. -/
def actRound (neg : Bool) (y : Nat) : Option Mag → Res
  | some g => ieee32.round .rne false neg g
  | none => ⟨Config.undecided 32 0 y % 2 ^ 32, fNX⟩

/-- The activation (R211): 0 none, 1 ReLU, 2 GELU-tanh, 3 SiLU, 4 table. A zero keeps its sign under GELU-tanh and SiLU. -/
def activate (act : Nat) (lo step : Nat) (lut : Nat → Nat) (y : Nat) : Res :=
  let v := ieee32.val y
  match act with
  | 0 => ⟨y, nfOf y⟩
  | 1 =>
    match v with
    | .nan .. => ⟨y, fNF⟩
    | .inf n => if n then ⟨0, 0#10⟩ else ⟨y, fNF⟩
    | .fin n _ _ => ⟨if n then 0 else y, 0#10⟩
    | _ => ⟨0, 0#10⟩
  | 2 | 3 =>
    match v with
    | .nan .. => ⟨y, fNF⟩
    | .inf n => if n then ⟨ieee32.signBit true, 0#10⟩ else ⟨y, fNF⟩
    | .fin n m e => actRound n y (if act = 2 then geluMag n m e else siluMag n m e)
    | _ => ⟨y, 0#10⟩
  | _ =>
    match v with
    | .nan .. => ⟨ieee32.defNan, fNF⟩
    | .inf n => let z := lut (if n then 0 else 255); ⟨z, nfOf z⟩
    | _ =>
      let l := (ieee32.val lo).dyad
      let s := (ieee32.val step).dyad
      let d := dyadAdd v.dyad (-l.1, l.2)
      let p := (d.1 * s.1, d.2 + s.2)
      let i : Int := if 0 ≤ p.2 then p.1 * 2 ^ p.2.toNat else shrI p.1 (-p.2).toNat
      let z := lut (min 255 (max 0 i)).toNat
      ⟨z, nfOf z⟩

/-- The output conversion (R211): as R50 under RNE, with the I8 exception. -/
def epiOut (ofmt : Fmt) (satf : Bool) (z : Nat) : Res :=
  match ofmt with
  | .i8 =>
    match ieee32.val z with
    | .nan .. => ⟨0, fINV⟩
    | .inf n => ⟨wrap 8 (if n then -128 else 127), fSAT ||| fNX⟩
    | _ =>
      let r := convert .i8 .fp32 .rne false false z
      if r.flags &&& fINV ≠ 0#10 then ⟨r.bits, fSAT ||| fNX⟩ else r
  | f => convert f .fp32 .rne satf false z

/-- One output element (R211): its bits and its status bits. -/
def epiElem (intSrc : Bool) (scale bias : Nat) (act lo step : Nat) (lut : Nat → Nat) (ofmt : Fmt) (satf : Bool)
    (src : Nat) : Nat × Nat :=
  let x := if intSrc then ieeeOfInt ieee32 (sx 32 src) else ⟨src, 0#10⟩
  let y := ieee32.fma .rne false x.bits scale bias
  let z := activate act lo step lut y.bits
  let o := epiOut ofmt satf z.bits
  (o.bits, statBits (x.flags ||| y.flags ||| z.flags ||| o.flags))

end Sys2Proof.Machine
end

