-- ==== Sys2Proof/Machine/Array.lean ====
section
/-!
DEFINITION. The array and its epilogue at work (R187 to R212), joint operations among them (R203, R204, R237, R238). An event's
request names the core.
-/

namespace Sys2Proof.Machine

/-! ### Operands -/

/-- The value of an operand element (R52). -/
def opval (f : Nat) (x : Nat) : Val := match Fmt.ofCode f with | some m => valOf m x | none => .zero false
/-- The integer of an operand element. -/
def opint (f : Nat) (x : Nat) : Int := match Fmt.ofCode f with | some m => intOf m x | none => 0
/-- A weight of a latch. -/
def Latch.at (l : Latch) (k j : Nat) : Nat := (aget l.w (256 * k + j)).getD 0
/-- A column scale as a signed number (R42). -/
def scaleOf (b : Nat) : Int := sx 8 b

/-- The value that the loop of R52 computes for one activation row and one output column. -/
def arraySum (fa : Nat) (row : List Nat) (l : Latch) (sa : Nat) (j : Nat) : Nat :=
  let n := row.length
  let ws := (List.range n).map fun k => l.at k j
  if mxClass fa ≤ 2 then intSums ((row.map (opint fa)).zip (ws.map (opint l.fmt)))
  else floatSums (n / 16) ((row.map (opval fa)).zip (ws.map (opval l.fmt))) (scaleOf sa + scaleOf ((aget l.scales j).getD 0)) none

/-- The 256 results of a row; they are undefined under an undefined latch (R109). -/
def State.rowResults (s : State) (l : Latch) (fa : Nat) (row : List Nat) (sa : Nat) : List Nat :=
  if l.undef then (List.range 256).map fun j => (s.free (2 ^ 45 + j)).toNat % 2 ^ 32
  else (List.range 256).map fun j => arraySum fa row l sa j

/-- Changes a core's array. -/
def State.onArr (s : State) (c : Nat) (f : ArrayS → ArrayS) : State := s.onCore c fun k => { k with arr := f k.arr }

/-- The entries before one that satisfies a test, and that one. -/
def firstWith {α : Type} (p : α → Bool) : List α → Option (List α × α)
  | [] => none
  | a :: t => if p a then some ([], a) else (firstWith p t).map fun r => (a :: r.1, r.2)

/-- Whether a tile's span is free of in-flight writes (R183). -/
def Core.tileClear (k : Core) (h : Word) : Bool := !k.held (hBase h) (hEnd h)

/-! ### Weights (R191 to R193) -/

/-- MXLDW_START. -/
def evMxldwStart (s : State) : State :=
  let a := (s.core s.req.core).arr
  match firstWith (fun q => q.op = .ldw) a.queue with
  | none => s
  | some (before, q) =>
    if q.started || before.any (fun b => b.op = .swap || b.op = .fence) || a.fault.isSome || a.degraded || s.seqHeld s.req.core then s
    else s.onArr s.req.core fun a => { a with
      shadowSt := .filling
      queue := updWhere (fun (x : ArrCmd) => x.op = .ldw && x.num = q.num) (fun x => { x with started := true }) a.queue }

/-- WEIGHT_LOAD_COMPLETE. A load in progress when its unit is pre-empted completes also in FAULTED (R202). -/
def evWeightLoadComplete (s : State) : State :=
  let c := s.req.core
  let k := s.core c
  let a := k.arr
  match firstWith (fun q => q.op = .ldw) a.queue with
  | none => s
  | some (_, q) =>
    if !q.started || a.shadowSt ≠ .filling || (a.fault.isSome && !s.seqHeld c) || a.degraded || !k.tileClear q.handle then s
    else
      let f := hFmt q.handle
      let r0 := bf q.word.toNat 0 10
      let c0 := bf q.word.toNat 16 12
      let K := mxK (mxClass f)
      let w := (List.range K).flatMap fun i => (List.range 256).filterMap fun j =>
        if r0 + i < hRows q.handle && c0 + j < hCols q.handle then
          let v := s.tileElem k q.handle (r0 + i) (c0 + j)
          if v = 0 then none else some (256 * i + j, v)
        else none
      let s := s.onArr c fun a => { a with
        shadow := ⟨true, false, f, w, q.scales⟩
        shadowSt := .full
        queue := a.queue.filter fun x => !(x.op = .ldw && x.num = q.num) }
      (s.onCore c fun k => k.dropCompute q.treg.toNat).freeFences c

/-- MXSWAP_PERFORM. -/
def evMxswapPerform (s : State) : State :=
  let c := s.req.core
  let a := (s.core c).arr
  match firstWith (fun q => q.op = .swap) a.queue with
  | none => s
  | some (before, q) =>
    if before.any (fun b => b.op = .ldw || b.op = .fence || (b.op = .mul && !b.entered)) || a.shadowSt ≠ .full || a.fault.isSome
        || a.degraded then s
    else (s.onArr c fun a => { a with
      live := a.shadow, shadow := Latch.empty, shadowSt := .empty
      queue := a.queue.filter fun x => !(x.op = .swap && x.num = q.num) }).freeFences c

/-! ### Streams (R196, R197, R200) -/

/-- The first stream of the queue that has not entered its last row, when nothing before it holds it. -/
def ArrayS.nextMul (a : ArrayS) : Option ArrCmd :=
  match firstWith (fun q => q.op = .mul && !q.entered) a.queue with
  | some (before, q) => if before.any fun b => b.op = .swap || b.op = .fence then none else some q
  | none => none

/-- The places in memory of row r of a tensor source: address, bytes, bit (R179). -/
def rowPlaces (r : BitVec 512) (d : BitVec 256) (i K : Nat) : List (Word × Nat × Nat) :=
  if cdRows d ≤ i then []
  else (List.range (min K (cdCols d))).map fun j =>
    let p := cdPlace r d i j fun x => x
    (tensorAddr (cdTensor d) p.1, (fmtWidth (tlrFmt r) + 7) / 8, p.2)

/-- The requests that a stream's row waits for. -/
def State.streamReqs (s : State) (c num : Nat) : List Nat :=
  (s.remote.filter fun r => r.2.who = .stream c num).map fun r => r.1

/-- The read of a row of the tensor source: its places with how each translates. -/
def State.rowScan (s : State) (c x : Nat) (r : BitVec 512) (d : BitVec 256) (i K : Nat) : List ((Word × Nat × Nat) × TOut) :=
  (rowPlaces r d i K).map fun p => (p, s.translate (some c) x r p.1 p.2.1 .read)

/-- Why a row cannot enter (R200): the kind, the address and the leaf entry. -/
def State.rowFault (s : State) (c num : Nat) (ps : List ((Word × Nat × Nat) × TOut)) : Option (FKind × Word × Word) :=
  match ps.findSome? fun p => match p.2 with
      | .fault k pte => some (k, p.1.1, pte)
      | .poison pte => some (.pagePoisoned, p.1.1, pte)
      | _ => none with
  | some f => some f
  | none => (s.someRefused (s.streamReqs c num)).map fun k => (k, 0, 0)

/-- The elements of an activation row, or nothing while it cannot be read yet; the state has the requests that it opened. -/
def State.readRow (s : State) (c x : Nat) (q : ArrCmd) (r : BitVec 512) (i K : Nat) : Option (List Nat) × State :=
  let k := s.core c
  if !q.ten then
    if k.tileClear q.handle then
      (some ((List.range K).map fun j => if i < hRows q.handle && j < hCols q.handle then s.tileElem k q.handle i j else 0), s)
    else (none, s)
  else
    let ps := s.rowScan c x r q.desc i K
    if ps.any fun p => match p.2 with | .ok _ => false | _ => true then (none, s)
    else
      let locs := ps.filterMap fun p => match p.2 with | .ok l => some (l, p.1.2) | _ => none
      let runs := farRuns (locs.map fun l => (l.1, l.2.1))
      let ids := s.streamReqs c q.num
      if !runs.isEmpty && ids.isEmpty then (none, (s.readRuns (.stream c q.num) x runs).2)
      else if s.someOpen ids || (s.someRefused ids).isSome then (none, s)
      else
        let w := fmtWidth (tlrFmt r)
        let vals := locs.map fun l => bf (natOfBytes (s.locBytes runs ids l.1 l.2.1)) l.2.2 w
        let s := (s.dropReqs ids).touchLines c x .read (ps.map fun p => (r, p.1.1))
        (some ((vals ++ List.replicate K 0).take K), s)

/-- Where a row of a command goes (R197). -/
def ArrCmd.dst (q : ArrCmd) : RowDst :=
  if q.acc then .bank (bf q.word.toNat 8 1) (bf q.word.toNat 9 3) q.z else .fin q.pair

/-- A row enters the array: its results are in the pipeline. -/
def State.enterRow (s : State) (c : Nat) (q : ArrCmd) (fa : Nat) (row : List Nat) (i : Nat) : State :=
  let a := (s.core c).arr
  let r : RowRes := ⟨q.num, i, q.dst, mxClass fa ≤ 2, s.rowResults a.live fa row (bf q.word.toNat 0 8), false, i = 63⟩
  s.onArr c fun a => { a with pipe := a.pipe ++ [r] }

/-- The record of an array fault; `ROWPROG` goes into it (R200, R346). -/
def State.arrayFault (s : State) (c : Nat) (k : FKind) (vaddr pte rowprog : Word) : State :=
  let co := s.core c
  match co.unit with
  | none => s
  | some u => s.takeFault co.unitCtx { FRec.zero with
      kind := k, core := BitVec.ofNat 6 c, seqf := true, scyc := s.unitCycles co, vaddr := vaddr, pte := pte, rowprog := rowprog }
      (.array c) 1 u.cls

/-- The checks of a tensor source when its stream starts (R196). -/
def State.streamTlr (s : State) (c x : Nat) (q : ArrCmd) : Except FKind (BitVec 512) :=
  match s.tlr (some c) x (cdTensor q.desc) with
  | .error k => .error k
  | .ok r =>
    if mxClass (tlrFmt r) ≠ mxClass (s.core c).arr.live.fmt then .error .mxFormat
    else if !cdInside r q.desc then .error .mxBounds
    else .ok r

/-- Whether a FIN stream's partner stands at the head of the epilogue queue (R210). -/
def ArrayS.partnerReady (a : ArrayS) (q : ArrCmd) : Bool :=
  q.acc || match a.epi.head? with
  | some e => !e.isFence && e.pair = q.pair
  | none => false

/-- Whether the queue's next stream could enter its first row now. -/
def ArrayS.streamReady (a : ArrayS) : Option ArrCmd :=
  if a.stream.isSome || !a.entering.isEmpty || a.fault.isSome || a.degraded || !a.live.valid then none
  else a.nextMul.bind fun q => if a.partnerReady q then some q else none

/-- The band of a gang with a rank. -/
def Core.gangBand (k : Core) (inv rank : Nat) : Option (Nat × Band) :=
  k.bands.find? fun b => b.2.of = .gang inv rank
/-- The band whose result queue takes row i of a joint operation (R238). -/
def Core.rowBand (k : Core) (inv : Nat) (ranks : List Nat) (i : Nat) : Option (Nat × Band) :=
  (ranks[i % max 1 ranks.length]?).bind fun r => k.gangBand inv r

/-- Whether result rows of a joint operation wait for a full RESULT queue: then no row of a stream enters (R238). -/
def Core.resultsHeld (k : Core) : Bool :=
  match firstWith (fun (r : RowRes) => !r.left) k.arr.pipe with
  | some (_, r) => match r.dst with
    | .queues inv ranks => ((k.rowBand inv ranks r.row).map fun b => decide (8 < b.2.resultQ.length + 2)).getD false
    | _ => false
  | none => false

/-- The next row of the stream that is entering enters, when it can be read. Under a pre-emption a tensor-sourced stream stops at that row
instead (R202). -/
def State.streamRow (s : State) (c : Nat) (last : Bool) : State :=
  let a := (s.core c).arr
  let x := (s.core c).unitCtx
  match a.stream with
  | none => s
  | some st =>
    match a.queue.find? fun q => q.op = .mul && q.num = st.num with
    | none => s
    | some q =>
      if st.stopped || a.fault.isSome then s
      else if q.ten && s.seqHeld c then
        (s.dropReqs (s.streamReqs c q.num)).onArr c fun a => { a with
          stream := some { st with stopped := true }, rowprog := BitVec.ofNat 64 (q.num <<< 32 ||| 0x80 ||| st.next) }
      else if (s.core c).resultsHeld || (last ≠ (st.next = 63 : Bool)) then s
      else
        let K := mxK (mxClass a.live.fmt)
        let r := st.tlr
        let fa := if q.ten then tlrFmt r else hFmt q.handle
        match s.readRow c x q r st.next K with
        | (none, s) => s
        | (some row, s) =>
          let s := s.enterRow c q fa row st.next
          if last then
            let s := s.onArr c fun a => { a with
              stream := none
              queue := updWhere (fun (y : ArrCmd) => y.op = .mul && y.num = q.num) (fun y => { y with entered := true }) a.queue }
            if q.ten then s else s.onCore c fun k => k.dropCompute q.treg.toNat
          else s.onArr c fun a => { a with stream := some { st with next := st.next + 1 } }

/-- STREAM_ENTER: the queue's next stream starts and its first row enters; the rows up to the last but one follow, one an
event. -/
def evStreamEnter (s : State) : State :=
  let c := s.req.core
  let k := s.core c
  if k.arr.stream.isSome then s.streamRow c false
  else
    match k.arr.streamReady with
    | none => s
    | some q =>
      if s.seqHeld c then s
      else
      let begin (s : State) (r : BitVec 512) : State :=
        (s.onArr c fun a => { a with
          stream := some ⟨q.num, 0, false, r⟩
          queue := updWhere (fun (y : ArrCmd) => y.op = .mul && y.num = q.num) (fun y => { y with started := true }) a.queue }).streamRow
          c false
      if q.ten then
        match s.streamTlr c k.unitCtx q with
        | .error f => ((s.onCore c fun k => k.dropStream q).freeFences c).arrayFault c f 0 0 k.arr.rowprog
        | .ok r => begin s r
      else if k.tileClear q.handle then begin s 0
      else s

/-- STREAM_LAST_ROW: the tile source releases. -/
def evStreamLastRow (s : State) : State := s.streamRow s.req.core true

/-- STREAM_OPERAND_FAULT (R200). -/
def evStreamOperandFault (s : State) : State :=
  let c := s.req.core
  let k := s.core c
  match k.arr.stream with
  | none => s
  | some st =>
    match k.arr.queue.find? fun q => q.op = .mul && q.num = st.num with
    | none => s
    | some q =>
      if !q.ten || st.stopped || k.arr.fault.isSome then s
      else
        match s.rowFault c q.num (s.rowScan c k.unitCtx st.tlr q.desc st.next (mxK (mxClass k.arr.live.fmt))) with
          | none => s
          | some (f, va, pte) =>
            let rp := BitVec.ofNat 64 (q.num <<< 32 ||| 0x80 ||| st.next)
            let s := (s.dropReqs (s.streamReqs c q.num)).onArr c fun a => { a with
              fault := some .operand, rowprog := rp, stream := some { st with stopped := true } }
            s.arrayFault c f va pte rp

/-! ### Results (R187, R197, R198) -/

/-- Where element j of a bank row lies. -/
def bankAddr (row j : Nat) : Nat := 1024 * row + 4 * j
/-- A bank of a core. -/
def ArrayS.bank (a : ArrayS) (b : Nat) : Memory := if b = 0 then a.bank0 else a.bank1
/-- Element j of a bank row; undefined elements give free values. -/
def State.bankElem (s : State) (a : ArrayS) (b row j : Nat) : Nat :=
  natOfBytes ((a.bank b).readBytes (s.freeByte (5 + b)) (bankAddr row j) 4)

/-- STREAM_ROW_RESULT: the oldest row in the pipeline leaves the array. Rows of a joint operation go to their bands' result
queues, which hold 8 entries each. -/
def evStreamRowResult (s : State) : State :=
  let c := s.req.core
  let a := (s.core c).arr
  match firstWith (fun (r : RowRes) => !r.left) a.pipe with
  | none => s
  | some (before, r) =>
    match r.dst with
    | .queues inv ranks =>
      match (s.core c).rowBand inv ranks r.row with
      | none => s.onArr c fun a => { a with pipe := before ++ a.pipe.drop (before.length + 1) }
      | some (n, b) =>
        if 8 < b.resultQ.length + 2 then s
        else
          let entry := fun (h : Nat) => (List.range 64).map fun st =>
            BitVec.ofNat 64 (r.vals.getD (128 * h + 2 * st) 0 ||| (r.vals.getD (128 * h + 2 * st + 1) 0) <<< 32)
          (s.onBand c n fun b => { b with resultQ := b.resultQ ++ [entry 0, entry 1] }).onArr c fun a =>
            { a with pipe := before ++ a.pipe.drop (before.length + 1) }
    | _ => s.onArr c fun a => { a with pipe := before ++ { r with left := true } :: a.pipe.drop (before.length + 1) }

/-- ACC_BANK_WRITE: a row that has left the array lands in its bank; the last one completes its command. -/
def evAccBankWrite (s : State) : State :=
  let c := s.req.core
  let a := (s.core c).arr
  match firstWith (fun (r : RowRes) => r.left && match r.dst with | .bank _ _ _ => true | _ => false) a.pipe with
  | none => s
  | some (before, r) =>
    match r.dst with
    | .bank b blk z =>
      let row := 64 * blk + r.row
      let vals := (r.vals.zip (List.range 256)).map fun v =>
        if z then v.1
        else
          let old := s.bankElem a b row v.2
          if r.isInt then wrap 32 (old + v.1 : Nat) else arrAdd old v.1
      let m := (a.bank b).writeBytes (bankAddr row 0) (vals.flatMap (bytesOfNat 4))
      let s := s.onArr c fun a =>
        let a := if b = 0 then { a with bank0 := m } else { a with bank1 := m }
        { a with
          pipe := before ++ a.pipe.drop (before.length + 1)
          queue := if r.last && r.num ≠ 0 then a.queue.filter fun q => !(q.op = .mul && q.num = r.num) else a.queue }
      s.freeFences c
    | _ => s

/-! ### Joint operations (R203, R204, R237, R238) -/

/-- Operand entries of a joint operation: rows per entry. -/
def jointRho (cls : Nat) : Nat := if cls = 4 then 1 else 2
/-- How many operand entries the n named bands give, band number m among them. -/
def jointShare (cls n m : Nat) : Nat :=
  let E := 64 / jointRho cls
  (E + n - 1 - m) / n

/-- The K elements of row i of a joint operation (R238), from the entry that holds it. -/
def jointRow (ty : Nat) (entry : List Word) (i : Nat) : List Nat :=
  let cls := mxClass ty
  let w := fmtWidth ty
  let words := if jointRho cls = 2 then (entry.drop (32 * (i % 2))).take 32 else entry
  words.flatMap fun x => (List.range (64 / w)).map fun e => bf x.toNat (w * e) w

/-- The next row of a joint operation enters; with the last row of an operand entry the entry is consumed (R238). -/
def State.jointRowEnter (s : State) (c : Nat) : State :=
  let k := s.core c
  match k.arr.entering with
  | [] => s
  | (r, used) :: t =>
    let s := s.onArr c fun a => { a with pipe := a.pipe ++ [r], entering := t }
    match used.bind fun u => k.gangBand u.1 u.2 with
    | some b => s.onBand c b.1 fun x => { x with mmjQ := x.mmjQ.drop 1 }
    | none => s

/-- JOINT_OP_ENTER: a complete joint operation whose bands' operand queues hold their shares enters at a cycle that is a multiple
of its class's II: its first row does, and the others follow, one an event. It computes against the weights that are live when it enters (R204).
No row enters while result rows wait for a full queue (R238). -/
def evJointOpEnter (s : State) : State :=
  let c := s.req.core
  let k := s.core c
  let a := k.arr
  if k.resultsHeld || a.fault.isSome then s
  else if !a.entering.isEmpty then s.jointRowEnter c
  else match a.joint with
  | none => s
  | some j =>
    let d := j.desc.toNat
    let ty := j.ty.toNat
    let cls := mxClass ty
    let named := (bitsOf (bf d 0 6) 6)
    let n := named.length
    let bs := named.filterMap fun r => k.gangBand j.inv r
    let full := (bs.zip (List.range n)).all fun b => jointShare cls n b.2 ≤ b.1.2.mmjQ.length
    if j.arrived.length < n || bs.length ≠ n || !full || s.cycle % mxII cls ≠ 0 || a.stream.isSome || a.streamReady.isSome then s
    else
      let clear := s.onArr c fun a => { a with joint := none }
      let faultAll (s : State) (f : FKind) : State := bs.foldl (fun s b => s.bandFault c b.1 f b.2.live) s
      if !a.live.valid then faultAll clear .mxNoWeight
      else if mxClass a.live.fmt ≠ cls then faultAll clear .mxFormat
      else
        let rho := jointRho cls
        let dst : RowDst := if bf d 16 1 = 1 then .bank (bf d 17 1) (bf d 18 3) (bf d 21 1 = 1) else .queues j.inv named
        let entry := fun (e : Nat) => match bs[e % n]? with
          | some b => b.2.mmjQ.getD (e / n) []
          | none => []
        let rows := (List.range 64).map fun i =>
          (RowRes.mk 0 i dst (cls ≤ 2) (s.rowResults a.live ty (jointRow ty (entry (i / rho)) i) (bf d 8 8)) false (i = 63),
            if i % rho = rho - 1 then some (j.inv, named.getD (i / rho % n) 0) else none)
        (clear.onArr c fun a => { a with entering := rows }).jointRowEnter c

/-! ### The epilogue (R207 to R212) -/

/-- EPI_START: the head of the epilogue queue starts; under a pre-emption only the one whose stream has begun (R202). -/
def evEpiStart (s : State) : State :=
  let c := s.req.core
  let a := (s.core c).arr
  match a.epi with
  | [] => s
  | e :: t =>
    let begun := !ebAcc e.block && a.queue.any fun q => q.op = .mul && !q.acc && q.pair = e.pair && q.started
    if e.isFence || e.started || (s.seqHeld c && !begun) then s
    else s.onArr c fun a => { a with epi := { e with started := true } :: t }

/-- One output row's bytes and status (R211). -/
def State.epiRow (s : State) (k : Core) (e : EpiCmd) (isInt : Bool) (vals : List Nat) (i : Nat) : Core × Nat :=
  let b := e.block
  let ofmt := (Fmt.ofCode (eb b 0 5)).getD .fp16
  let one := 0x3F800000
  if hRows e.handle ≤ i then (k, 0)
  else
    (List.range (min 256 (hCols e.handle))).foldl (fun (acc : Core × Nat) j =>
      let sc := if ebSv b then e.scales.getD j 0 else one
      let bi := if ebBv b then (if j < hCols e.biasHandle then s.tileElem k e.biasHandle 0 j else 0) else 0x80000000
      let r := epiElem isInt sc bi (eb b 12 3) (eb b 128 32) (eb b 96 32) (fun n => e.lut.getD n 0) ofmt (eb b 15 1 = 1) (vals.getD j 0)
      (s.setTileElem acc.1 e.handle i j r.1, acc.2 ||| r.2)) (k, 0)

/-- EPI_ROW_WRITE: the next row of the head command, from its stream or from its bank. -/
def evEpiRowWrite (s : State) : State :=
  let c := s.req.core
  let k := s.core c
  let a := k.arr
  match a.epi with
  | [] => s
  | e :: t =>
    if e.isFence || !e.started || 64 ≤ e.nextRow || !k.tileClear e.handle || (ebBv e.block && !k.tileClear e.biasHandle) then s
    else
      let put (s : State) (isInt : Bool) (vals : List Nat) (pipe : List RowRes) : State :=
        let (k', st) := s.epiRow k e isInt vals e.nextRow
        s.setCore c { k' with arr := { k'.arr with
          pipe := pipe, epi := { e with nextRow := e.nextRow + 1, stat := e.stat ||| st } :: t } }
      if ebAcc e.block then
        let row := 64 * eb e.block 18 3 + e.nextRow
        put s (eb e.block 32 1 = 1) ((List.range 256).map fun j => s.bankElem a (eb e.block 21 1) row j) a.pipe
      else
        match firstWith (fun (r : RowRes) => r.left && r.dst = .fin e.pair) a.pipe with
        | none => s
        | some (before, r) => if r.row = e.nextRow then put s r.isInt r.vals (before ++ a.pipe.drop (before.length + 1)) else s

/-- EPI_RETIRE (R212). -/
def evEpiRetire (s : State) : State :=
  let c := s.req.core
  match (s.core c).arr.epi with
  | [] => s
  | e :: t =>
    if e.isFence || e.nextRow < 64 then s
    else
      let st := natOfBytes (s.scalarBytes (s.core c) (e.addr + 56) 8)
      (s.onCore c fun k =>
        let k := k.toState e.treg.toNat .ready
        let k := if ebBv e.block then k.dropCompute e.biasReg.toNat else k
        { k with
          scalar := k.scalar.writeBytes (e.addr + 56) (bytesOfNat 8 (st ||| e.stat))
          arr := { k.arr with
            epi := t
            queue := if ebAcc e.block then k.arr.queue else k.arr.queue.filter fun q => !(q.op = .mul && !q.acc && q.pair = e.pair) } }).freeFences c

/-! ### Uncorrectable errors and disabled rows (R205, R206) -/

/-- UE_ARRAY: both latches go invalid, the destination of every stream and EPI in flight becomes undefined, the array goes FAULTED and a row that
the request names (`n` = 1 + physical row; above 264 it names a bank and row) is disabled; the ninth disabled row makes the array DEGRADED. The
record's VADDR holds `n` (log entry 38). -/
def evUeArray (s : State) : State :=
  let c := s.req.core
  let a := (s.core c).arr
  let row := s.req.n - 1
  let off := if s.req.n = 0 || a.disabled.contains row || 264 ≤ row then a.disabled else a.disabled ++ [row]
  if a.degraded then s.onArr c fun a => { a with disabled := off }
  else
    let k := s.core c
    let dsts := (a.queue.filter fun q => q.op = .mul && q.started).map ArrCmd.dst ++ (a.pipe ++ a.entering.map fun e => e.1).map fun r => r.dst
    let fins := a.epi.filter fun e => !e.isFence && (e.started || dsts.contains (.fin e.pair))
    let tile := fins.foldl (fun (m : Memory) e => (List.range (min 64 (hRows e.handle))).foldl (fun (m : Memory) i =>
      let lo := hBase e.handle + i * hPitch e.handle
      m.undefRange lo (lo + min 256 (hCols e.handle) * fmtWidth (hFmt e.handle) / 8)) m) k.tile
    let hit := fun (b : Nat) (m : Memory) => dsts.foldl (fun (m : Memory) r => match r with
      | .bank b' blk _ => if b' = b then m.undefRange (bankAddr (64 * blk) 0) (bankAddr (64 * blk + 64) 0) else m
      | _ => m) m
    let s := s.setCore c { k with
      tile := tile
      arr := { a with
        live := Latch.empty, shadow := Latch.empty, shadowSt := .empty, fault := some .ue, disabled := off
        bank0 := hit 0 a.bank0, bank1 := hit 1 a.bank1
        entering := []
        pipe := a.pipe.map fun r => { r with vals := (List.range 256).map fun j => (s.free (2 ^ 46 + 256 * r.row + j)).toNat % 2 ^ 32 } } }
    let s := s.health1 ([70] ++ (if 8 < off.length then [64, 65] else []))
    s.arrayFault c .ueArray (BitVec.ofNat 64 s.req.n) 0 a.rowprog

/-! ### The steps -/

/-- MXLDW_START. -/
def execMxldwStart (s : State) : Host.Outcome State Fault Refusal := .next (evMxldwStart s)
/-- WEIGHT_LOAD_COMPLETE. -/
def execWeightLoadComplete (s : State) : Host.Outcome State Fault Refusal := .next (evWeightLoadComplete s)
/-- MXSWAP_PERFORM. -/
def execMxswapPerform (s : State) : Host.Outcome State Fault Refusal := .next (evMxswapPerform s)
/-- STREAM_ENTER. -/
def execStreamEnter (s : State) : Host.Outcome State Fault Refusal := .next (evStreamEnter s)
/-- STREAM_LAST_ROW. -/
def execStreamLastRow (s : State) : Host.Outcome State Fault Refusal := .next (evStreamLastRow s)
/-- STREAM_OPERAND_FAULT. -/
def execStreamOperandFault (s : State) : Host.Outcome State Fault Refusal := .next (evStreamOperandFault s)
/-- STREAM_ROW_RESULT. -/
def execStreamRowResult (s : State) : Host.Outcome State Fault Refusal := .next (evStreamRowResult s)
/-- ACC_BANK_WRITE. -/
def execAccBankWrite (s : State) : Host.Outcome State Fault Refusal := .next (evAccBankWrite s)
/-- JOINT_OP_ENTER. -/
def execJointOpEnter (s : State) : Host.Outcome State Fault Refusal := .next (evJointOpEnter s)
/-- EPI_START. -/
def execEpiStart (s : State) : Host.Outcome State Fault Refusal := .next (evEpiStart s)
/-- EPI_ROW_WRITE. -/
def execEpiRowWrite (s : State) : Host.Outcome State Fault Refusal := .next (evEpiRowWrite s)
/-- EPI_RETIRE. -/
def execEpiRetire (s : State) : Host.Outcome State Fault Refusal := .next (evEpiRetire s)
/-- UE_ARRAY. -/
def execUeArray (s : State) : Host.Outcome State Fault Refusal := .next (evUeArray s)

end Sys2Proof.Machine
end

