-- ==== Sys2Proof/Machine/Lane.lean ====
section
/-!
DEFINITION. A band's operands: participation, registers, queues, readiness, and how an instruction of a band ends (R77 to R87, R213,
R214, R220 to R227).
-/

namespace Sys2Proof.Machine

/-! ### The band that acts -/

/-- The core and slot of the band that acts. -/
def State.laneId (s : State) : Nat × Nat := match s.cur with | .band c n => (c, n) | _ => (0, 0)
/-- The band that acts. -/
def State.laneBand (s : State) : Option Band := s.band s.laneId.1 s.laneId.2
/-- The band as the instruction reads it: the second member of a DP pair reads what the first one read (R80). -/
def State.laneView (s : State) (b : Band) : Band := s.preBand.getD b
/-- Changes the band that acts. -/
def State.onLane (s : State) (f : Band → Band) : State := s.onBand s.laneId.1 s.laneId.2 f
/-- A band fault of the band that acts. -/
def State.laneFault (s : State) (k : FKind) (mask : Word) (vaddr pte : Word := 0) : State :=
  s.bandFault s.laneId.1 s.laneId.2 k mask vaddr pte

/-! ### Participation (R78, R213, R222) -/

/-- All 64 strands. -/
def allStrands : Word := 0xFFFFFFFFFFFFFFFF
/-- A strand predicate as a mask; `p7` is 1 everywhere. -/
def Band.pmask (b : Band) (n : Nat) : Word := if n < 7 then (b.p[n]?).getD 0 else allStrands
/-- A band predicate; `bp7` is 1. -/
def Band.bpbit (b : Band) (n : Nat) : Bool := n % 8 = 7 || b.bp.getLsbD (n % 8)
/-- The strands in which an instruction's predicate holds. -/
def Band.predMask (b : Band) (h : LHdr) : Word :=
  let n := h.pred.toNat
  let m := if n < 8 then b.pmask n else if b.bpbit (n - 8) then allStrands else 0
  if h.neg then ~~~m else m
/-- The participating strands: those still unfinished when a parked instruction issues again (R279). -/
def Band.part1 (b : Band) (h : LHdr) : Word :=
  match b.unfinished with
  | some u => b.live &&& u
  | none => b.live &&& b.predMask h
/-- Whether the predicate names `p7` or a band predicate. -/
def bandPred (h : LHdr) : Bool := 7 ≤ h.pred.toNat
/-- Whether a destination of the whole band is written, and once-per-band instructions act (R222). -/
def Band.actsOnce (b : Band) (h : LHdr) : Bool := b.part1 h ≠ 0 || (bandPred h && b.predMask h ≠ 0)
/-- Whether a uniform instruction acts. -/
def Band.actsUniform (b : Band) (h : LHdr) : Bool := b.predMask h ≠ 0
/-- The listed strands of a mask. -/
def strands (m : Word) : List Nat := bitsOf m.toNat 64

/-! ### Operand bytes (R81) -/

/-- A `v` register byte. -/
def byteV (x : BitVec 8) : Bool := x.toNat < 0x80
/-- A `q` register byte. -/
def byteQ (x : BitVec 8) : Bool := 0xF0 ≤ x.toNat
/-- The register number of a `b` byte. -/
def bNum (x : BitVec 8) : Nat := x.toNat - 0x80
/-- The register number of a `q` byte. -/
def qNum (x : BitVec 8) : Nat := x.toNat - 0xF0

/-- A `b` register. -/
def Band.breg (b : Band) (n : Nat) : Word := (b.b[n]?).getD 0
/-- Writes a `b` register. -/
def Band.setB (b : Band) (n : Nat) (x : Word) : Band := { b with b := b.b.setIfInBounds n x }
/-- A strand's share of a `v` register, none where it is undefined. -/
def Band.vreg (b : Band) (n st : Nat) : Option Word := aget b.v (64 * n + st)
/-- Writes a strand's share of a `v` register. -/
def Band.setV (b : Band) (n st : Nat) (x : Word) : Band := { b with v := aput b.v (64 * n + st) x }

/-- The site of a read of a `v` register. -/
def laneSite (second : Bool) (pos n st : Nat) : Nat := 2 ^ 50 + b2n second * 2 ^ 24 + pos * 2 ^ 16 + n * 64 + st

/-- A strand's value of a `v` register; an undefined one gives a free value. -/
def State.vval (s : State) (b : Band) (pos n st : Nat) : Word :=
  (b.vreg n st).getD (s.free (laneSite s.preBand.isSome pos n st))

/-- A strand's value of an operand byte; `popped` holds the entries that its `q` operands popped, by place. -/
def State.lval (s : State) (b : Band) (popped : List (Nat × List Word)) (pos : Nat) (x : BitVec 8) (k st : Nat) : Word :=
  if byteV x then s.vval b pos (x.toNat + k) st
  else if byteQ x then ((aget popped pos).getD []).getD st 0
  else b.breg (bNum x + k)

/-! ### Queues (R226, R227) -/

/-- The endpoint entries that a pop of a `q` register could take now. -/
def State.qDepth (s : State) (c : Nat) (b : Band) (q : Nat) : Nat :=
  match aget b.q q with
  | some e => match e.kind with
    | 1 => b.resultQ.length
    | 4 => (((aget (s.core c).rq e.word.toNat).map fun r => if r.ended then r.buf.length + 511 else r.buf.length).getD 0) / 512
    | _ => 0
  | none => 0
/-- Whether a queue kind is popped. -/
def qPops (kind : Nat) : Bool := kind = 1 || kind = 4
/-- Whether an endpoint accepts an entry now. -/
def State.qRoom (s : State) (c : Nat) (b : Band) (q : Nat) : Bool :=
  match aget b.q q with
  | some e => match e.kind with
    | 2 => b.mmjQ.length < 32
    | 3 => ((s.core c).chan e.ch).length < 16
    | _ => false
  | none => false

/-- Pops an entry of a `q` register: a link message's last entry is padded with zeros (R385). -/
def State.qPop (s : State) (q : Nat) : List Word × State :=
  let (c, n) := s.laneId
  match s.band c n with
  | none => ([], s)
  | some b =>
    match aget b.q q with
    | some e =>
      if e.kind = 1 then
        (b.resultQ.headD [], s.onBand c n fun b => { b with resultQ := b.resultQ.tail })
      else
        match aget (s.core c).rq e.word.toNat with
        | some r =>
          let bs := r.buf.take 512
          ((List.range 64).map fun i => BitVec.ofNat 64 (natOfBytes ((bs.drop (8 * i)).take 8)),
           (s.onCore c fun k => { k with rq := amod k.rq e.word.toNat fun r => { r with buf := r.buf.drop 512 } }).pullNext c e.word.toNat)
        | none => ([], s)
    | none => ([], s)

/-- The task's slot that a band works for: a lane unit's own (R218), a gang's through its sequencer unit. -/
def Core.taskOf (k : Core) (b : Band) : Option Nat :=
  match b.of with
  | .unit slot _ _ => some slot
  | .gang _ _ => k.unit.bind fun u => u.task

/-- The index of the lane unit that a band works for. -/
def Band.unitIndex (b : Band) : Option Nat := match b.of with | .unit _ i _ => some i | .gang _ _ => none

/-- Gives an entry to its endpoint: the operand buffer of joint operations, or a copy command on the bound channel (R228). -/
def State.qAccept (s : State) (c n q : Nat) (entry : List Word) : State :=
  match s.band c n with
  | none => s
  | some b =>
    match aget b.q q with
    | some e =>
      let s := s.onBand c n fun b => { b with q := amod b.q q fun e => { e with pushes := e.pushes + 1 } }
      if e.kind = 2 then s.onBand c n fun b => { b with mmjQ := b.mmjQ ++ [entry] }
      else
        let (id, s) := s.newId
        let m : CopyCmd := { CopyCmd.start0 id .push (.band c n) none b.slot (min b.cls 15) with
          base := e.word + BitVec.ofNat 64 (512 * e.pushes), data := entry, inv := b.inv, task := (s.core c).taskOf b, unit := b.unitIndex }
        s.onCore c fun k => k.onChan e.ch fun l => l ++ [m]
    | none => s

/-- The endpoint that a `q` register is bound to: its kind, and the channel of a COPY queue. -/
def Band.endpoint (b : Band) (q : Nat) : Nat × Nat :=
  match aget b.q q with
  | some e => (e.kind, if e.kind = 3 then e.ch else 0)
  | none => (0, 0)

/-- Pushes an entry: to its endpoint when that accepts it and nothing for the endpoint is staged before it, else to the staging
buffer: endpoints accept entries in push order (R227). -/
def State.qPush (s : State) (q : Nat) (entry : List Word) : State :=
  let (c, n) := s.laneId
  match s.band c n with
  | none => s
  | some b =>
    if s.qRoom c b q && !(b.staging.any fun e => b.endpoint e.1 = b.endpoint q) then s.qAccept c n q entry
    else s.onBand c n fun b => { b with staging := b.staging ++ [(q, entry)] }

/-- QUEUE_ENDPOINT_ACCEPT: an endpoint accepts the oldest staged entry of a band (request `core` and `n`) that it has room for. -/
def evQueueEndpointAccept (s : State) : State :=
  let c := s.req.core
  let n := s.req.n
  match s.band c n with
  | none => s
  | some b =>
    match firstWith (fun (e : Nat × List Word) => s.qRoom c b e.1) b.staging with
    | none => s
    | some (before, e) =>
      if before.any fun p => b.endpoint p.1 = b.endpoint e.1 then s
      else (s.onBand c n fun b => { b with staging := before ++ b.staging.drop (before.length + 1) }).qAccept c n e.1 e.2

/-! ### Readiness (R220) -/

/-- Whether a `v` register has a write pending: an outstanding load's destination; those of `LDT` until the tile counter is
zero. -/
def Band.pending (b : Band) (n : Nat) : Bool :=
  b.acc.any fun a => (a.kind = .load || a.kind = .atom) && a.dst.toNat = n

/-- The band waits: its instruction stays where it is. -/
def State.laneWait (s : State) : State := s.onLane fun b => { b with st := .waiting }

/-- The place of an operand in `popped`: the second member of a DP pair counts its places from 8. -/
def State.popPlace (s : State) (pos : Nat) : Nat := if s.preBand.isSome then pos + 8 else pos

/-- The pops of an instruction, as place and queue register, in order: a place that has been popped stays so, and an empty queue stops
the pops at its place (R82). -/
def State.popAll (s : State) : List (Nat × Nat) → State
  | [] => s
  | (pos, q) :: t =>
    match s.laneBand with
    | none => s
    | some b =>
      if (aget b.popped pos).isSome then s.popAll t
      else if s.qDepth s.laneId.1 b q = 0 then s
      else
        let (e, s) := s.qPop q
        (s.onLane fun b => { b with popped := b.popped ++ [(pos, e)] }).popAll t

/-- Everything that comes before the effect of an instruction of a band: REG_RANGE and QUEUE_UNBOUND (R81, R91), registers with
pending writes, QUEUE_DIR, empty and full queues. `regs` are the register groups named (byte and count), `pops` the sources and
`push` the destination that may be `q` registers. The effect gets the band as the instruction reads it, the participating
strands and the popped entries. A dry pass ends before the effect and keeps what it popped (R82). -/
def State.laneGo (s : State) (h : LHdr) (regs : List (BitVec 8 × Nat)) (pops : List (BitVec 8)) (push : Option (BitVec 8))
    (f : State → Band → Word → List (Nat × List Word) → State) : State :=
  let c := s.laneId.1
  match s.laneBand with
  | none => s
  | some b0 =>
    let b := s.laneView b0
    let m := b.part1 h
    let qs := (pops.filter byteQ).map qNum
    let out := (push.toList.filter byteQ).map qNum
    let unbound := fun (q : Nat) => (aget b.q q).isNone
    let kind := fun (q : Nat) => ((aget b.q q).map fun e => e.kind).getD 0
    if regs.any fun r => byteV r.1 && b.vregs < r.1.toNat + r.2 then s.laneFault .regRange m
    else if qs.any unbound || out.any unbound then s.laneFault .queueUnbound m
    else if regs.any fun r => byteV r.1 && (List.range r.2).any fun k => b0.pending (r.1.toNat + k) then s.laneWait
    else if s.laneDry && qs.isEmpty && out.isEmpty then s
    else if m = 0 then (if s.laneDry then s else f s b m [])
    else if qs.any (fun q => !qPops (kind q)) || out.any (fun q => qPops (kind q)) then s.laneFault .queueDir m
    else
      let places := ((pops.zip (List.range pops.length)).filter fun p => byteQ p.1).map fun p => (s.popPlace p.2, qNum p.1)
      let s := s.popAll places
      let b1 := s.laneBand.getD b0
      let mine := b1.popped.filter fun e => places.any fun p => p.1 = e.1
      if mine.length < qs.length then s.laneWait
      else if !out.isEmpty && 4 ≤ b1.staging.length then s.laneWait
      else if s.laneDry then s
      else f (s.onLane fun b => { b with popped := b.popped.filter fun e => !(places.any fun p => p.1 = e.1) }) b m
        (mine.map fun e => (e.1 % 8, e.2))

/-! ### Ends of instructions -/

/-- The band goes on at the next instruction. -/
def State.laneNext (s : State) : State :=
  s.onLane fun b => { b with pc := b.pc + 8, unfinished := none, st := if b.st = .issuing || b.st = .waiting then .ready else b.st }
/-- Merges flags into the band's flag word (R37). -/
def State.laneFlags (s : State) (f : Flags) : State := s.onLane fun b => { b with flag := mergeFlags b.flag f }
/-- The entry that a push makes (R227). -/
def pushEntry (m : Word) (f : Nat → Word) : List Word := (List.range 64).map fun st => if m.getLsbD st then f st else 0

/-- Writes the results of the participating strands to a destination group. -/
def State.laneWrite (s : State) (d : BitVec 8) (m : Word) (r : Nat → List Word) : State :=
  if byteQ d then (if m = 0 then s else s.qPush (qNum d) (pushEntry m fun st => (r st).getD 0 0))
  else s.onLane fun b => (strands m).foldl (fun b st =>
    let ws := r st
    (List.range ws.length).foldl (fun b k => b.setV (d.toNat + k) st (ws.getD k 0)) b) b

/-- A per-strand operation: sources A, B, C with their group sizes, a destination of `dn` registers; `f` gives a strand's results and
flags from the band, the strand and its operand words (place and register in the group). With `U` = 1 it runs once on `b` registers (R79, R222). -/
def State.laneOp (s : State) (h : LHdr) (d : BitVec 8) (dn : Nat) (srcs : List (BitVec 8 × Nat))
    (f : Band → Nat → (Nat → Nat → Word) → List Word × Flags) : Host.Outcome State Fault Refusal :=
  let rd := fun (s : State) (b : Band) (popped : List (Nat × List Word)) (st pos k : Nat) =>
    s.lval b popped pos ((srcs.getD pos (0, 0)).1) k st
  .next <|
  if h.u then
    if s.laneDry then s else
    match s.laneBand with
    | none => s
    | some b0 =>
      let b := s.laneView b0
      let s := if b.actsUniform h then
          let r := f b 0 (rd s b [] 0)
          (s.onLane fun b => b.setB (bNum d) (r.1.getD 0 0)).laneFlags r.2
        else s
      s.laneNext
  else
    s.laneGo h ((d, dn) :: srcs) (srcs.map fun x => x.1) (some d) fun s b m popped =>
      let rs := (strands m).map fun st => (st, f b st (rd s b popped st))
      let fl := rs.foldl (fun a r => a ||| r.2.2) 0
      (((s.laneWrite d m fun st => ((aget rs st).map fun r => r.1).getD []).laneFlags fl)).laneNext

/-! ### Elements (R27) -/

/-- Element i of width w of a word. -/
def elem (w : Nat) (x : Word) (i : Nat) : Nat := bf x.toNat (w * i) w
/-- A word of elements of width w with the flags of all. -/
def buildE (w : Nat) (f : Nat → Res) : Word × Flags :=
  let rs := (List.range (64 / w)).map f
  (BitVec.ofNat 64 ((rs.zip (List.range (64 / w))).foldl (fun a r => a ||| (r.1.bits % 2 ^ w) <<< (w * r.2)) 0),
   rs.foldl (fun a r => a ||| r.flags) 0)
/-- The width of a type code; 64 for type codes that name no format. -/
def tyW (ty : BitVec 4) : Nat := ((Fmt.ofCode ty.toNat).map Fmt.width).getD 64
/-- The format of a type code. -/
def tyF (ty : BitVec 4) : Fmt := (Fmt.ofCode ty.toNat).getD .i64

/-- The rounding mode of a lane instruction (R29). -/
def Band.rmode (b : Band) (rm : BitVec 2) (md : Bool) : RMode := RMode.ofBits (if md then b.mode.truncate 2 else rm)
/-- FTZ of the band's mode word. -/
def Band.ftz (b : Band) : Bool := b.mode.getLsbD 2
/-- IDZT of the band's mode word. -/
def Band.idzt (b : Band) : Bool := b.mode.getLsbD 3

/-- The operand word of an I form (R84): the same value in every element. -/
def immWord (ty : BitVec 4) (imm : BitVec 28) : Word :=
  let w := tyW ty
  let v := if ty = 0xA#4 then imm.toNat <<< 4 else if w ≤ 16 then imm.toNat % 2 ^ w else (imm.toInt % 2 ^ w).toNat
  (buildE w fun _ => ⟨v, 0⟩).1

/-! ### The steps -/

/-- QUEUE_ENDPOINT_ACCEPT. -/
def execQueueEndpointAccept (s : State) : Host.Outcome State Fault Refusal := .next (evQueueEndpointAccept s)

end Sys2Proof.Machine
end

