-- ==== Sys2Proof/Machine/LaneArith.lean ====
section
/-!
DEFINITION. Lane arithmetic: integer, floating-point, SLI, comparisons and conversions (R242 to R265).
-/

namespace Sys2Proof.Machine

/-! ### Runners by operand count -/

/-- One-operand elementwise operation of a type. -/
def State.lane1 (s : State) (h : LHdr) (v : VForm) (g : Band → Nat → Res) : Host.Outcome State Fault Refusal :=
  let w := tyW v.ty
  s.laneOp h v.dst 1 [(v.a, 1)] fun b _ r =>
    let o := buildE w fun i => g b (elem w (r 0 0) i)
    ([o.1], o.2)
/-- Two-operand elementwise operation of a type. -/
def State.lane2 (s : State) (h : LHdr) (v : VForm) (g : Band → Nat → Nat → Res) : Host.Outcome State Fault Refusal :=
  let w := tyW v.ty
  s.laneOp h v.dst 1 [(v.a, 1), (v.b, 1)] fun b _ r =>
    let o := buildE w fun i => g b (elem w (r 0 0) i) (elem w (r 1 0) i)
    ([o.1], o.2)
/-- Three-operand elementwise operation of a type. -/
def State.lane3 (s : State) (h : LHdr) (v : VForm) (g : Band → Nat → Nat → Nat → Res) : Host.Outcome State Fault Refusal :=
  let w := tyW v.ty
  s.laneOp h v.dst 1 [(v.a, 1), (v.b, 1), (v.c, 1)] fun b _ r =>
    let o := buildE w fun i => g b (elem w (r 0 0) i) (elem w (r 1 0) i) (elem w (r 2 0) i)
    ([o.1], o.2)
/-- The I form of a two-operand operation (R84): the immediate in every element. -/
def State.laneI (s : State) (h : LHdr) (v : IForm) (g : Band → Nat → Nat → Res) : Host.Outcome State Fault Refusal :=
  let w := tyW v.ty
  let x := immWord v.ty v.imm
  s.laneOp h v.dst 1 [(v.a, 1)] fun b _ r =>
    let o := buildE w fun i => g b (elem w (r 0 0) i) (elem w x i)
    ([o.1], o.2)

/-- Writes a strand or band predicate named by a predicate byte (R81): strand predicates in the strands of a mask. -/
def Band.setPred (b : Band) (d : BitVec 8) (m : Word) (f : Nat → Bool) : Band :=
  let n := d.toNat
  if n < 8 then
    let on := BitVec.ofNat 64 (maskOf ((strands m).filter f))
    { b with p := b.p.setIfInBounds n (((b.p[n]?).getD 0 &&& ~~~m) ||| on) }
  else
    let i := n % 8
    { b with bp := if f 0 then b.bp ||| BitVec.ofNat 7 (1 <<< i) else b.bp &&& ~~~(BitVec.ofNat 7 (1 <<< i)) }

/-- A comparison of element `XT` of two operands into a predicate (R253, R258, R261). -/
def State.laneCmp (s : State) (h : LHdr) (v : VForm) (g : Band → Nat → Nat → Bool × Flags) : Host.Outcome State Fault Refusal :=
  let w := tyW v.ty
  let i := v.xt.toNat
  .next <|
  if h.u then
    match s.laneBand with
    | none => s
    | some b0 =>
      let b := s.laneView b0
      let s := if b.actsUniform h then
          let r := g b (elem w (b.breg (bNum v.a)) i) (elem w (b.breg (bNum v.b)) i)
          (s.onLane fun b => b.setPred v.dst 0 fun _ => r.1).laneFlags r.2
        else s
      s.laneNext
  else
    s.laneGo h [(v.a, 1), (v.b, 1)] [v.a, v.b] none fun s b m popped =>
      let rs := (strands m).map fun st => (st, g b (elem w (s.lval b popped 0 v.a 0 st) i) (elem w (s.lval b popped 1 v.b 0 st) i))
      let fl := rs.foldl (fun a r => a ||| r.2.2) 0
      ((s.onLane fun b => b.setPred v.dst m fun st => ((aget rs st).map fun r => r.1).getD false).laneFlags fl).laneNext

/-! ### Integer instructions (R246 to R254) -/

/-- IADD. -/
def execLaneIadd (h : LHdr) (f : VForm) (s : State) : Host.Outcome State Fault Refusal :=
  s.lane2 h f fun _ a b => intRes (tyF f.ty) f.sat (intOf (tyF f.ty) a + intOf (tyF f.ty) b)
/-- ISUB. -/
def execLaneIsub (h : LHdr) (f : VForm) (s : State) : Host.Outcome State Fault Refusal :=
  s.lane2 h f fun _ a b => intRes (tyF f.ty) f.sat (intOf (tyF f.ty) a - intOf (tyF f.ty) b)
/-- IMUL. -/
def execLaneImul (h : LHdr) (f : VForm) (s : State) : Host.Outcome State Fault Refusal :=
  s.lane2 h f fun _ a b => intRes (tyF f.ty) f.sat (intOf (tyF f.ty) a * intOf (tyF f.ty) b)
/-- IMAD. -/
def execLaneImad (h : LHdr) (f : VForm) (s : State) : Host.Outcome State Fault Refusal :=
  s.lane3 h f fun _ a b c => intRes (tyF f.ty) f.sat (intOf (tyF f.ty) a * intOf (tyF f.ty) b + intOf (tyF f.ty) c)
/-- IMULH. -/
def execLaneImulh (h : LHdr) (f : VForm) (s : State) : Host.Outcome State Fault Refusal :=
  s.lane2 h f fun _ a b => mulhE (tyF f.ty) a b

/-- IDIV and IREM: with IDZT a zero divisor in a participating strand is a band fault (R248). -/
def State.laneDiv (s : State) (h : LHdr) (f : VForm) (g : Nat → Nat → Res) : Host.Outcome State Fault Refusal :=
  let w := tyW f.ty
  match s.laneBand with
  | none => .next s
  | some b0 =>
    let b := s.laneView b0
    let zero := fun (x : Word) => (List.range (64 / w)).any fun i => elem w x i = 0
    if h.u then
      if b.actsUniform h && b.idzt && zero (b.breg (bNum f.b)) then .next (s.laneFault .intDivZero b.live)
      else s.lane2 h f fun _ x y => g x y
    else
      .next <| s.laneGo h [(f.dst, 1), (f.a, 1), (f.b, 1)] [f.a, f.b] (some f.dst) fun t b m popped =>
        let bad := BitVec.ofNat 64 (maskOf ((strands m).filter fun st => zero (t.lval b popped 1 f.b 0 st)))
        if b.idzt && bad ≠ 0 then s.laneFault .intDivZero bad
        else
          let rs := (strands m).map fun st =>
            let x := t.lval b popped 0 f.a 0 st
            let y := t.lval b popped 1 f.b 0 st
            (st, buildE w fun i => g (elem w x i) (elem w y i))
          let fl := rs.foldl (fun a r => a ||| r.2.2) 0
          ((t.laneWrite f.dst m fun st => [((aget rs st).map fun r => r.1).getD 0]).laneFlags fl).laneNext

/-- IDIV. -/
def execLaneIdiv (h : LHdr) (f : VForm) (s : State) : Host.Outcome State Fault Refusal :=
  s.laneDiv h f fun a b => idivE (tyF f.ty) f.sat a b
/-- IREM. -/
def execLaneIrem (h : LHdr) (f : VForm) (s : State) : Host.Outcome State Fault Refusal :=
  s.laneDiv h f fun a b => iremE (tyF f.ty) a b
/-- IMIN. -/
def execLaneImin (h : LHdr) (f : VForm) (s : State) : Host.Outcome State Fault Refusal :=
  s.lane2 h f fun _ a b => iminE (tyF f.ty) a b
/-- IMAX. -/
def execLaneImax (h : LHdr) (f : VForm) (s : State) : Host.Outcome State Fault Refusal :=
  s.lane2 h f fun _ a b => imaxE (tyF f.ty) a b
/-- ISHIFT. -/
def execLaneIshift (h : LHdr) (f : VForm) (s : State) : Host.Outcome State Fault Refusal :=
  s.lane2 h f fun _ a b => ishiftE (tyW f.ty) f.fn.toNat a b
/-- ILOGIC. -/
def execLaneIlogic (h : LHdr) (f : VForm) (s : State) : Host.Outcome State Fault Refusal :=
  s.laneOp h f.dst 1 [(f.a, 1), (f.b, 1)] fun _ _ r => ([ilogic f.fn.toNat (r 0 0) (r 1 0)], 0)
/-- IBIT. -/
def execLaneIbit (h : LHdr) (f : VForm) (s : State) : Host.Outcome State Fault Refusal :=
  s.lane1 h f fun _ a => ibitE (tyF f.ty) f.fn.toNat a
/-- BFX. -/
def execLaneBfx (h : LHdr) (f : VForm) (s : State) : Host.Outcome State Fault Refusal :=
  s.lane2 h f fun _ a b => bfxE (tyF f.ty) a b
/-- BFI. -/
def execLaneBfi (h : LHdr) (f : VForm) (s : State) : Host.Outcome State Fault Refusal :=
  s.lane3 h f fun _ a b c => bfiE (tyF f.ty) a b c
/-- ICMP. -/
def execLaneIcmp (h : LHdr) (f : VForm) (s : State) : Host.Outcome State Fault Refusal :=
  s.laneCmp h f fun _ a b => (icmpE (tyF f.ty) f.fn.toNat a b, 0)

/-- The value of a predicate byte in a strand. -/
def Band.predByte (b : Band) (x : BitVec 8) (st : Nat) : Bool :=
  if x.toNat < 8 then (b.pmask x.toNat).getLsbD st else b.bpbit x.toNat

/-- SEL. -/
def execLaneSel (h : LHdr) (f : VForm) (s : State) : Host.Outcome State Fault Refusal :=
  s.laneOp h f.dst 1 [(f.a, 1), (f.b, 1)] fun b st r => ([if b.predByte f.c st then r 0 0 else r 1 0], 0)
/-- IABS. -/
def execLaneIabs (h : LHdr) (f : VForm) (s : State) : Host.Outcome State Fault Refusal :=
  s.lane1 h f fun _ a => iabsE (tyF f.ty) f.sat a
/-- INEG. -/
def execLaneIneg (h : LHdr) (f : VForm) (s : State) : Host.Outcome State Fault Refusal :=
  s.lane1 h f fun _ a => inegE (tyF f.ty) f.sat a
/-- IADD in the I form. -/
def execLaneIaddImm (h : LHdr) (f : IForm) (s : State) : Host.Outcome State Fault Refusal :=
  s.laneI h f fun _ a b => intRes (tyF f.ty) false (intOf (tyF f.ty) a + intOf (tyF f.ty) b)
/-- ISUB in the I form. -/
def execLaneIsubImm (h : LHdr) (f : IForm) (s : State) : Host.Outcome State Fault Refusal :=
  s.laneI h f fun _ a b => intRes (tyF f.ty) false (intOf (tyF f.ty) a - intOf (tyF f.ty) b)
/-- IMUL in the I form. -/
def execLaneImulImm (h : LHdr) (f : IForm) (s : State) : Host.Outcome State Fault Refusal :=
  s.laneI h f fun _ a b => intRes (tyF f.ty) false (intOf (tyF f.ty) a * intOf (tyF f.ty) b)
/-- IMIN in the I form. -/
def execLaneIminImm (h : LHdr) (f : IForm) (s : State) : Host.Outcome State Fault Refusal :=
  s.laneI h f fun _ a b => iminE (tyF f.ty) a b
/-- IMAX in the I form. -/
def execLaneImaxImm (h : LHdr) (f : IForm) (s : State) : Host.Outcome State Fault Refusal :=
  s.laneI h f fun _ a b => imaxE (tyF f.ty) a b

/-! ### Floating-point instructions (R255 to R259) -/

/-- FADD. -/
def execLaneFadd (h : LHdr) (f : VForm) (s : State) : Host.Outcome State Fault Refusal :=
  s.lane2 h f fun b x y => (tyF f.ty).ieee.add (b.rmode f.rm f.md) b.ftz x y
/-- FSUB. -/
def execLaneFsub (h : LHdr) (f : VForm) (s : State) : Host.Outcome State Fault Refusal :=
  s.lane2 h f fun b x y => (tyF f.ty).ieee.sub (b.rmode f.rm f.md) b.ftz x y
/-- FMUL. -/
def execLaneFmul (h : LHdr) (f : VForm) (s : State) : Host.Outcome State Fault Refusal :=
  s.lane2 h f fun b x y => (tyF f.ty).ieee.mul (b.rmode f.rm f.md) b.ftz x y
/-- FFMA. -/
def execLaneFfma (h : LHdr) (f : VForm) (s : State) : Host.Outcome State Fault Refusal :=
  s.lane3 h f fun b x y z => (tyF f.ty).ieee.fma (b.rmode f.rm f.md) b.ftz x y z
/-- FMIN. -/
def execLaneFmin (h : LHdr) (f : VForm) (s : State) : Host.Outcome State Fault Refusal :=
  s.lane2 h f fun b x y => fminmaxE (tyF f.ty).ieee false b.ftz x y
/-- FMAX. -/
def execLaneFmax (h : LHdr) (f : VForm) (s : State) : Host.Outcome State Fault Refusal :=
  s.lane2 h f fun b x y => fminmaxE (tyF f.ty).ieee true b.ftz x y
/-- FCMP. -/
def execLaneFcmp (h : LHdr) (f : VForm) (s : State) : Host.Outcome State Fault Refusal :=
  s.laneCmp h f fun b x y => fcmpE (tyF f.ty).ieee b.ftz f.fn.toNat x y
/-- FSF. -/
def execLaneFsf (h : LHdr) (f : VForm) (s : State) : Host.Outcome State Fault Refusal :=
  s.lane1 h f fun b x => fsf (tyF f.ty).ieee f.fn.toNat (b.rmode f.rm f.md) b.ftz x
/-- FADD in the I form: RNE. -/
def execLaneFaddImm (h : LHdr) (f : IForm) (s : State) : Host.Outcome State Fault Refusal :=
  s.laneI h f fun b x y => (tyF f.ty).ieee.add .rne b.ftz x y
/-- FMUL in the I form: RNE. -/
def execLaneFmulImm (h : LHdr) (f : IForm) (s : State) : Host.Outcome State Fault Refusal :=
  s.laneI h f fun b x y => (tyF f.ty).ieee.mul .rne b.ftz x y

/-! ### SLI instructions (R260, R261) -/

/-- SLADD. -/
def execLaneSladd (h : LHdr) (f : VForm) (s : State) : Host.Outcome State Fault Refusal :=
  s.lane2 h f fun _ a b => sliAdd (sliBits (tyF f.ty)) a b
/-- SLSUB. -/
def execLaneSlsub (h : LHdr) (f : VForm) (s : State) : Host.Outcome State Fault Refusal :=
  s.lane2 h f fun _ a b => sliSub (sliBits (tyF f.ty)) a b
/-- SLMUL. -/
def execLaneSlmul (h : LHdr) (f : VForm) (s : State) : Host.Outcome State Fault Refusal :=
  s.lane2 h f fun _ a b => sliMul (sliBits (tyF f.ty)) a b
/-- SLDIV. -/
def execLaneSldiv (h : LHdr) (f : VForm) (s : State) : Host.Outcome State Fault Refusal :=
  s.lane2 h f fun _ a b => sliDiv (sliBits (tyF f.ty)) a b
/-- SLCMP. -/
def execLaneSlcmp (h : LHdr) (f : VForm) (s : State) : Host.Outcome State Fault Refusal :=
  s.laneCmp h f fun _ a b => slcmpE (sliBits (tyF f.ty)) f.fn.toNat a b

/-! ### Conversions (R54, R55, R262 to R265) -/

/-- Narrowing: r source registers into one; source element i·r + q lies in register q at position i. -/
def State.laneNarrow (s : State) (h : LHdr) (v : VForm) (g : Band → Nat → Res) : Host.Outcome State Fault Refusal :=
  let wd := tyW v.ty
  let ws := tyW v.xt
  let r := ws / wd
  s.laneOp h v.dst 1 [(v.a, r)] fun b _ rd =>
    let o := buildE wd fun i => g b (elem ws (rd 0 (i % r)) (i / r))
    ([o.1], o.2)

/-- Widening: element i goes to register i mod r of the destination group, at position i div r. -/
def State.laneWiden (s : State) (h : LHdr) (v : VForm) (g : Band → Nat → Res) : Host.Outcome State Fault Refusal :=
  let wd := tyW v.ty
  let ws := tyW v.xt
  let r := wd / ws
  s.laneOp h v.dst r [(v.a, 1)] fun b _ rd =>
    let os := (List.range r).map fun q => buildE wd fun p => g b (elem ws (rd 0 0) (p * r + q))
    (os.map fun o => o.1, os.foldl (fun a o => a ||| o.2) 0)

/-- CVT: source and destination have one width. -/
def execLaneCvt (h : LHdr) (f : VForm) (s : State) : Host.Outcome State Fault Refusal :=
  s.lane1 h f fun b x => convert (tyF f.ty) (tyF f.xt) (b.rmode f.rm f.md) f.sat b.ftz x
/-- CVTW. -/
def execLaneCvtw (h : LHdr) (f : VForm) (s : State) : Host.Outcome State Fault Refusal :=
  s.laneWiden h f fun b x => convert (tyF f.ty) (tyF f.xt) (b.rmode f.rm f.md) f.sat b.ftz x
/-- CVTN. -/
def execLaneCvtn (h : LHdr) (f : VForm) (s : State) : Host.Outcome State Fault Refusal :=
  s.laneNarrow h f fun b x => convert (tyF f.ty) (tyF f.xt) (b.rmode f.rm f.md) f.sat b.ftz x
/-- PACK. -/
def execLanePack (h : LHdr) (f : VForm) (s : State) : Host.Outcome State Fault Refusal :=
  s.laneNarrow h f fun _ x => intRes (tyF f.ty) f.sat (intOf (tyF f.xt) x)
/-- UNPK. -/
def execLaneUnpk (h : LHdr) (f : VForm) (s : State) : Host.Outcome State Fault Refusal :=
  s.laneWiden h f fun _ x => intRes (tyF f.ty) false (intOf (tyF f.xt) x)

end Sys2Proof.Machine
end

