-- ==== Sys2Proof/Machine/Trace.lean ====
section
/-!
DEFINITION. The watch's records and triggers as the agents reach them: the trace buffer, drift, the interlock trigger, breakpoints
(R143, R393 to R399).
-/

namespace Sys2Proof.Machine

/-- Changes a core's watch. -/
def State.onWatch (s : State) (c : Nat) (f : Watch → Watch) : State := s.onCore c fun k => { k with watch := f k.watch }

/-- The header of a record (R394). -/
def State.traceHeader (s : State) (c x slice band kind : Nat) (xovf : Bool) : Nat :=
  kind ||| b2n xovf <<< 10 ||| (band % 16) <<< 11 ||| (slice % 8) <<< 15 ||| (c % 64) <<< 18 ||| (x / 16) <<< 24 ||| (x % 16) <<< 28
    ||| (s.cycle % 2 ^ 32) <<< 32

/-- Writes a record into a core's trace buffer (R393): the oldest one is overwritten when the ring is full. -/
def State.trace (s : State) (c : Nat) (r : BitVec 512) : State :=
  s.onWatch c fun w => { w with
    recs := aput w.recs w.tidx r
    tidx := (w.tidx + 1) % 2048
    twrap := w.twrap || (aget w.recs w.tidx).isSome }

/-- MARK (R143): a drift record when drift logging is on; a drift beyond DTHR triggers an ARMED interlock trigger (R397). -/
def State.mark (s : State) (imm : BitVec 32) : State :=
  let c := s.seqId
  let k := s.preCore
  if !k.watch.drift then s
  else
    let actual : Int := match k.seq.entry with
      | some e => (s.cycle : Int) - e
      | none => 0
    let d : Int := max (-2 ^ 31) (min (2 ^ 31 - 1) (actual - imm.toNat))
    let w := s.traceHeader c k.unitCtx 0 0 2 false
    let s := s.trace c (BitVec.ofNat 512 (w ||| k.seq.pc.toNat <<< 64 ||| imm.toNat <<< 128 ||| (actual % 2 ^ 32).toNat <<< 160
      ||| (d % 2 ^ 32).toNat <<< 192))
    if k.watch.dthr.toNat < d.natAbs && k.watch.itrig = .armed then
      s.onWatch c fun w => { w with itrig := .triggered, window := 256 }
    else s

/-- Stall cycles of the stalled bundle, counted under the lowest cause (R396). -/
def Watch.countStall (w : Watch) (cause : Nat) : Watch :=
  { w with scnt := aput w.scnt cause (((aget w.scnt cause).getD 0) + 1) }

/-- A bundle issues on a core (R396, R397): where the interlock trigger watched before it (`watched`), its stalls are written, and with
the 256th bundle the trigger drains; its last record being written, it is armed again when the cycle has passed (`Core.drain`). -/
def State.watchIssue (s : State) (c : Nat) (watched : Bool) (stalled : List (Nat × Nat)) : State :=
  let k := s.core c
  if !watched then s.onWatch c fun w => { w with scnt := [] }
  else
    let s := if stalled.isEmpty then s
      else s.trace c (BitVec.ofNat 512 (s.traceHeader c k.unitCtx 0 0 3 false ||| k.seq.pc.toNat <<< 64
        ||| (stalled.foldl (fun a e => a ||| (min 0xFFFF e.2) <<< (128 + 16 * e.1)) 0)))
    s.onWatch c fun w => { w with
      scnt := []
      window := w.window - 1
      itrig := if w.window ≤ 1 then .draining else w.itrig }

/-- An enabled entry whose address is about to issue (R399). -/
def matchBreak (l : List (Nat × Break)) (a : Word) : Option Nat :=
  (l.find? fun e => e.2.trig = .armed && (e.2.word.truncate 64 &&& ~~~7#64) = a).map fun e => e.1

/-- Sets the trigger state of an entry. -/
def setTrig (l : List (Nat × Break)) (n : Nat) (t : Trig) : List (Nat × Break) := amod l n fun b => { b with trig := t }

/-- Whether an agent of a core that a stop names has stopped issuing. -/
def Core.stopped (k : Core) (a : Agent) : Bool :=
  match a with
  | .seq _ => k.seq.halted
  | .band _ n => ((aget k.bands n).map fun b => b.st == .halted).getD true
  | _ => true
/-- Entries whose agent has stopped issuing drain (R397). -/
def drainEntries (l : List (Nat × Break)) (stopped : List Nat) : List (Nat × Break) :=
  l.map fun e => if e.2.trig = .triggered && stopped.contains e.1 then (e.1, { e.2 with trig := .draining }) else e
/-- A cycle of a core's triggers (R397): a drained interlock trigger is armed again, an entry whose agent has stopped drains. -/
def Core.drain (k : Core) : Core :=
  let w := k.watch
  let hit := fun (kind : FKind) (lane : Bool) => (w.stops.filter fun r => r.kind = kind && k.stopped r.who
    && lane == (match r.who with | .band _ _ => true | _ => false)).filterMap fun r => r.entry
  { k with watch := { w with
      itrig := if w.itrig = .draining then .armed else w.itrig
      sbp := drainEntries w.sbp (hit .breakHit false)
      lbp := drainEntries w.lbp (hit .breakHit true)
      wps := drainEntries w.wps (hit .watchHit true) } }

/-- A stop that waits to be reported (R398). -/
def State.stopReq (s : State) (c : Nat) (r : StopReq) : State := s.onWatch c fun w => { w with stops := w.stops ++ [r] }

/-! ### HELD (R318) -/

/-- An idle node. -/
def BarNode.idle : BarNode := ⟨.idle, false, false, none, [], []⟩
/-- A leaf of a core. -/
def Core.leaf (k : Core) (n : Nat) : BarNode := (aget k.leaves n).getD BarNode.idle

/-- Whether a band on core d that waits at leaf l has arrived on the path of a band that waits at leaf `leaf` of core c with the operands o
(R318): at that leaf, or at one whose arrival goes to the same roots. -/
def State.arrivedAt (s : State) (c leaf : Nat) (o : BarOps) (d l : Nat) : Bool :=
  if o.lvl = 0 then d = c && l = leaf
  else (d = c && l = leaf) || (((s.core d).leaf l).latched.map fun a => a.ops.lvl = o.lvl && a.ops.rid = o.rid).getD false

/-- Whether some debug-halted agent of a context that has not arrived keeps a waiting band HELD (R318): one on a core that
feeds the nodes of its path. -/
def State.holdsBar (s : State) (x c leaf : Nat) : Bool :=
  match ((s.core c).leaf leaf).latched.map fun a => a.ops with
  | none => false
  | some o =>
    (List.range 64).any fun d =>
      let k := s.core d
      (if o.lvl = 0 then d = c else if o.lvl = 1 then d / 16 = c / 16 else true)
      && ((k.runs x && k.seq.halted)
        || k.bands.any fun b => b.2.slot = x && b.2.halt = .debug && match b.2.wait with | .bar l => !s.arrivedAt c leaf o d l | _ => true)

/-- Bands that wait at barriers go HELD, or WAITING again, as their context's agents halt and resume (R318). -/
def State.updateHeld (s : State) (x : Nat) : State :=
  (List.range 64).foldl (fun s c =>
    let k := s.core c
    if k.bands.any fun b => b.2.slot = x then
      s.setCore c { k with bands := k.bands.map fun (e : Nat × Band) =>
        match e.2.wait with
        | .bar leaf =>
          let held := s.holdsBar x c leaf
          if e.2.slot ≠ x then e
          else if held && e.2.st = .waiting then (e.1, { e.2 with st := .held })
          else if !held && e.2.st = .held then (e.1, { e.2 with st := .waiting })
          else e
        | _ => e }
    else s) s

end Sys2Proof.Machine
end

