-- ==== Sys2Proof/Machine/SlotD.lean ====
section
/-!
DEFINITION. The sequencer's D slot: branches, tile opcodes, binding, waits, tasks, CSRs, remote keys, traps (R70, R112 to R117, R140,
R155, R164 to R177, R333, R379, R380, R404).
-/

namespace Sys2Proof.Machine

/-! ### Branches (R70, R140, R155) -/

/-- The address of the bundle that is being issued. -/
def State.pc0 (s : State) : Word := s.preCore.seq.pc
/-- A taken branch. -/
def State.jump (s : State) (t : Word) : State := { s with frame := { s.frame with target := some t } }
/-- The target of an SB branch. -/
def State.sbTarget (s : State) (off : BitVec 32) : Word := s.pc0 + 32 * off.signExtend 64

/-- BR. -/
def execSeqBr (p : Pred) (off : BitVec 32) (s : State) : Host.Outcome State Fault Refusal :=
  s.slotRun p fun s => s.jump (s.sbTarget off)
/-- BRC. -/
def execSeqBrc (p : Pred) (a : BitVec 6) (s : State) : Host.Outcome State Fault Refusal :=
  s.slotRun p fun s => s.jump (s.rs 0 a)
/-- CALL: `s31` takes the next bundle's address. -/
def execSeqCall (p : Pred) (off : BitVec 32) (s : State) : Host.Outcome State Fault Refusal :=
  s.slotRun p fun s => ((s.ws 31 1 (s.pc0 + 32)).onSeq fun q => { q with callAt := some s.cycle }).jump (s.sbTarget off)
/-- RET. -/
def execSeqRet (p : Pred) (s : State) : Host.Outcome State Fault Refusal := s.slotRun p fun s => s.jump s.retTarget

/-- A loop register's new value, which holds from the next bundle on; inside a landing range it is undefined (R140). -/
def Seq.loopWrite (q : Seq) (file now : Nat) (v : Word) : Seq :=
  if q.inRange file 0 now then
    let gone := q.land.map fun (l : Landing) => if l.file = file then { l with value := none } else l
    { q with land := gone }.writeNow file 0 none
  else q.writeNow file 0 (some v)

/-- KLOOP (R140). -/
def execSeqKloop (p : Pred) (off : BitVec 32) (s : State) : Host.Outcome State Fault Refusal :=
  s.slotRun p fun s =>
    let kc := s.seqRead 0 3 0
    let fc := s.seqRead 1 4 0
    let rot := s.preCore.seq.rot + 1
    let s := s.onSeq fun q =>
      let q := q.settle s.cycle
      let q := (q.loopWrite 3 s.cycle (if kc ≠ 0 then kc - 1 else 0)).loopWrite 4 s.cycle (if fc ≠ 0 then fc - 1 else 0)
      { q with rot := rot }.write 1 (physC rot 15) s.cycle 1 (some (b2w (fc ≠ 0)))
    if 1 < kc.toNat then s.jump (s.sbTarget off) else s

/-! ### Tile opcodes (R164 to R168) -/

/-- Whether E-slot options and channel are valid for an opcode, and whether it uses its `T` field (R165). -/
def templateOk (op ch opt ntile : Nat) : Bool :=
  match op with
  | 0x01 => bf opt 3 12 = 0 && ntile = 1
  | 0x02 | 0x03 => bf opt 1 14 = 0 && ntile = 1
  | 0x04 => opt = 0 && ntile = 0
  | 0x05 => ch = 0 && bf opt 1 14 = 0 && ntile = 1
  | 0x06 => ch = 0 && opt = 0 && ntile = 0
  | 0x07 => ch = 0 && bf opt 3 12 = 0 && (!bitN opt 2 || bitN opt 1) && ntile = (if bitN opt 0 then 0 else 1)
  | 0x08 => ch = 0 && opt = 0 && ntile = 1
  | 0x09 => ch = 0 && bf opt 7 8 = 0 && bf opt 0 7 ≠ 0 && ntile = 0
  | _ => false

/-- A valid binding entry (R165). -/
def bindOk (e : BitVec 256) : Bool :=
  let f := bindF e
  let kind := f 0 3
  let n := f 108 4
  let inout := (List.range 8).any fun i => bindDir e i = 3
  f 168 6 = 0 && f 128 4 = 0 && f 107 1 = 0 && f 103 1 = 0 && f 3 89 = 0 && kind ≤ 4
  && match kind with
  | 0 => e = 0
  | 1 => f 192 64 ≠ 0 && f 192 64 % 8 = 0 && 1 ≤ f 104 3 && f 104 3 ≤ 6 && n ≤ 8
      && (List.range 8).all (fun i => if i < n then bindDir e i ≠ 0 else bindDir e i = 0)
      && (f 99 1 = 0 || inout) && (f 97 1 = 0 || !inout || f 99 1 = 1) && (f 96 1 = 1 || f 92 4 = 0) && (f 99 1 = 1 || f 174 18 = 0)
  | _ =>
    let op := f 192 8
    f 217 39 = 0 && (match kind with | 2 => (1 ≤ op && op ≤ 4) || op = 9 | 3 => 5 ≤ op && op ≤ 7 | _ => op = 8)
    && templateOk op (f 200 2) (f 202 15) n
    && f 112 16 = 0 && f 92 12 = 0 && f 104 3 = 0 && f 174 18 = 0 && f 144 24 = 0

/-- The command of a template (R167). -/
def State.issueTemplate (s : State) (op ch opt : Nat) (t a b : BitVec 6) : State :=
  match op with
  | 0x01 => s.issueCopy true ch t a (bitN opt 0) (bitN opt 1) (bitN opt 2)
  | 0x02 => s.issueCopy false ch t a (bitN opt 0) false false
  | 0x03 => s.issueCross ch t b (bitN opt 0)
  | 0x04 => s.issueDrain ch
  | 0x05 => s.issueMxldw t a b (bitN opt 0)
  | 0x06 => s.issueMxswap
  | 0x07 => s.issueMxmul t a b (bitN opt 0) (bitN opt 1) (bitN opt 2)
  | 0x08 => s.issueEpi t a
  | 0x09 => s.issueFence (bf opt 0 7)
  | _ => s

/-- SARG k of an entry. -/
def bindSarg (e : BitVec 256) (k : Nat) : BitVec 6 := BitVec.ofNat 6 (bindF e (132 + 6 * k) 6)
/-- The access class of an argument's direction. -/
def dirClass (d : Nat) : AClass := match d with | 2 => .writer | 3 => .updater | _ => .compute

/-- The arguments of an invocation in turn (R162): the first state that its class does not accept, or the core after all rows. -/
def Core.takeArgs (k : Core) (e : BitVec 256) : List (BitVec 6) → Nat → Except Bool Core
  | [], _ => .ok k
  | t :: rest, i =>
    let c := dirClass (bindDir e i)
    let x := k.entry t.toNat
    if x.accepts c then Core.takeArgs (k.takeRow t.toNat c) e rest (i + 1) else .error x.transient

/-- Captures an invocation (R168, R174): the snap copy of its INOUT arguments is entered in the range scoreboard. -/
def State.capture (s : State) (c : Nat) (i : Inv) : State :=
  s.onCore c fun k =>
    let k := { k with invs := k.invs ++ [{ i with snapPending := bindSnap i.entry }] }
    if bindSnap i.entry && i.parent.isNone then k.addRange (64 * bindF i.entry 174 18) i.snapEnd (.snap i.id) else k

/-- TOP (R166 to R168): a stall of any argument comes before every fault. -/
def State.issueTop (s : State) (n : BitVec 8) (h0 h1 h2 h3 : BitVec 6) : State :=
  let k := s.preCore
  let e := s.bindEntry k n.toNat
  let nt := bindTiles e
  let kind := bindF e 0 3
  let regs : List (BitVec 6) := (List.range nt).map fun i =>
    match i with | 0 => h0 | 1 => h1 | 2 => h2 | i => BitVec.ofNat 6 (h3.toNat + i - 3)
  if kind = 0 then s.faultOn .topUnbound
  else if kind ≠ 1 then
    let t := s.issueTemplate (bindF e 192 8) (bindF e 200 2) (bindF e 202 15) h0 (bindSarg e 0) (bindSarg e 1)
    if t.frame.stall.isNone && (h1 ≠ 0 || h2 ≠ 0 || h3 ≠ 0 || (nt = 0 && h0 ≠ 0)) then s.faultOn .topArgs else t
  else
    let unused := (nt < 1 && h0 ≠ 0) || (nt < 2 && h1 ≠ 0) || (nt < 3 && h2 ≠ 0) || (nt < 4 && h3 ≠ 0)
    let tooFar := 4 ≤ nt && 63 < h3.toNat + nt - 4
    let twice := (List.range nt).any fun i => (List.range nt).any fun j =>
      i ≠ j && regs[i]? = regs[j]? && (bindDir e i ≠ 1 || bindDir e j ≠ 1)
    let taken := k.takeArgs e regs 0
    let waits : Bool := (List.range nt).any fun i => (i < 3 || h3.toNat + i - 3 ≤ 63) &&
      (let x := k.entry ((regs[i]?).getD 0).toNat
       x.transient && !x.accepts (dirClass (bindDir e i)))
    if waits then s.stallOn .tile
    else if 16 ≤ (k.invs.filter fun i => i.st = .queued).length then s.stallOn .equeue
    else if bindSnap e && 32 ≤ (s.core s.seqId).ranges.length then s.stallOn .equeue
    else if unused || tooFar || twice then s.faultOn .topArgs
    else
      match taken with
      | .error _ => s.faultOn .tileState
      | .ok _ =>
        let i : Inv :=
          { id := k.seq.invNext, opc := n, entry := e, handles := (List.range nt).map fun j => s.rt j ((regs[j]?).getD 0), tregs := regs
            sargs := (List.range 6).map fun j => s.rs j (bindSarg e j), parent := none, parentOp := 0, abyte := 0, st := .queued
            formed := false, bands := [], snapPending := false, cls := (k.unit.map fun u => u.cls).getD 0 }
        if bindSnap e && 0x1000000 < i.snapEnd then s.faultOn .snapRange
        else
          let s := s.onSeqCore fun k =>
            let k := (List.range nt).foldl (fun (k : Core) j => k.takeRow ((regs[j]?).getD 0).toNat (dirClass (bindDir e j))) k
            { k with seq := { k.seq with invNext := k.seq.invNext + 1 } }
          s.capture s.seqId i

/-- TOP. -/
def execSeqTop (p : Pred) (topn : BitVec 8) (h0 h1 h2 h3 : BitVec 6) (s : State) : Host.Outcome State Fault Refusal :=
  s.slotRun p fun s => s.issueTop topn h0 h1 h2 h3

/-- BIND and REBIND (R175). -/
def State.issueBind (s : State) (a b : BitVec 6) (re : Bool) : State :=
  let k := s.preCore
  let n := (s.rs 1 b).toNat
  let addr := (s.rs 0 a).toNat
  if 255 < n || addr % 32 ≠ 0 || 0x10000 < addr + 32 then s.faultOn .bindArg
  else
    let e := BitVec.ofNat 256 (natOfBytes (s.scalarBytes k addr 32))
    let old := s.bindEntry k n
    if !bindOk e then s.faultOn .bindInvalid
    else if !re && bindF old 0 3 ≠ 0 && k.invs.any (fun i => i.opc.toNat = n) then s.faultOn .bindBusy
    else if re && (bindF old 0 3 ≠ 1 || bindF e 0 3 ≠ 1 || bindTiles old ≠ bindTiles e || bindF old 112 16 ≠ bindF e 112 16) then
      s.faultOn .bindKind
    else s.onSeqCore fun k => { k with bind := k.bind.writeBytes (32 * n) (bytesOfNat 32 e.toNat) }

/-- BIND. -/
def execSeqBind (p : Pred) (a b : BitVec 6) (s : State) : Host.Outcome State Fault Refusal := s.slotRun p fun s => s.issueBind a b false
/-- REBIND. -/
def execSeqRebind (p : Pred) (a b : BitVec 6) (s : State) : Host.Outcome State Fault Refusal := s.slotRun p fun s => s.issueBind a b true

/-- Abandons a FAULTED invocation (R162, R173): OUT and INOUT arguments go to ALLOC, IN arguments release, bands are freed. -/
def Core.abandon (k : Core) (i : Inv) : Core :=
  let nested := (k.invs.filter fun v => v.parent = some i.id).map fun v => v.id
  let k := { k with bands := k.bands.filter fun b => !k.serves b.2 i.id }
  let k := nested.foldl (fun (k : Core) n => k.dropRange (.nest n)) (k.dropRange (.snap i.id))
  let k := k.dropJoint (i.id :: nested)
  let k := (List.range (bindTiles i.entry)).foldl (fun (k : Core) n =>
    match i.tregs[n]? with
    | some t => if bindDir i.entry n = 1 then k.dropCompute t.toNat else k.toState t.toNat .alloc
    | none => k) k
  { k with invs := k.invs.filter fun v => v.id ≠ i.id && !nested.contains v.id }

/-- TRESTART (R176). -/
def execSeqTrestart (p : Pred) (a : BitVec 6) (abandon : Bool) (s : State) : Host.Outcome State Fault Refusal :=
  s.slotRun p fun s =>
    let k := s.preCore
    match k.invs.find? fun i => i.id = (s.rs 0 a).toNat && i.parent.isNone && i.st = .faulted with
    | none => s.faultOn .restartState
    | some i =>
      if abandon then (s.onSeqCore fun k => k.abandon i).tidyPens.coreFreed s.seqId
      else
        let fresh := s.bindEntry k i.opc.toNat
        if !bindRestart i.entry || bindF fresh 0 3 ≠ 1 || bindTiles fresh ≠ bindTiles i.entry
            || bindF fresh 112 16 ≠ bindF i.entry 112 16 || bindF fresh 99 1 ≠ bindF i.entry 99 1
            || bindF fresh 174 18 ≠ bindF i.entry 174 18 then s.faultOn .restartDenied
        else s.restartInv s.seqId i.id

/-! ### TWAIT (R177) -/

/-- The bit of a tile state in a TWAIT mask. -/
def TState.bit : TState → Nat
  | .free => 0 | .alloc => 1 | .filling => 2 | .ready => 3 | .bound => 4 | .writing => 5 | .draining => 6

/-- TWAIT on a tile's state. -/
def execSeqTwaitState (p : Pred) (n : BitVec 6) (mask : BitVec 7) (s : State) : Host.Outcome State Fault Refusal :=
  s.slotRun p fun s => if mask.getLsbD (s.preCore.entry n.toNat).st.bit then s else s.stallOn .twait
/-- TWAIT.ALL. -/
def execSeqTwaitAll (p : Pred) (s : State) : Host.Outcome State Fault Refusal :=
  s.slotRun p fun s => if s.preCore.invs.isEmpty then s else s.stallOn .twait
/-- TWAIT.CH. -/
def execSeqTwaitCh (p : Pred) (ch : BitVec 2) (s : State) : Host.Outcome State Fault Refusal :=
  s.slotRun p fun s => if (s.preCore.chan ch.toNat).isEmpty then s else s.stallOn .twait

/-! ### Tasks (R333) -/

/-- LAUNCH and TENQ. -/
def State.issueTask (s : State) (a : BitVec 6) (nb : Bool) (n : BitVec 4) (launch : Bool) : State :=
  let k := s.preCore
  let addr := (s.rs 0 a).toNat
  if addr % 64 ≠ 0 || 0x10000 < addr + 64 then s.faultOn .taskArg
  else
    let r := BitVec.ofNat 512 (natOfBytes (s.scalarBytes k addr 64))
    let x := k.unitCtx
    if !recValid r launch (s.ctx x).cores then s.faultOn .taskInvalid
    else if k.credits = 0 then (if nb then s.wc n 2 true else s.stallOn .store)
    else
      let s := s.enqueue s.seqId x r launch ((k.unit.map fun u => u.launch).getD 0)
      if nb then s.wc n 2 false else s

/-- LAUNCH. -/
def execSeqLaunch (p : Pred) (a : BitVec 6) (nb : Bool) (n : BitVec 4) (s : State) : Host.Outcome State Fault Refusal :=
  s.slotRun p fun s => s.issueTask a nb n true
/-- TENQ. -/
def execSeqTenq (p : Pred) (a : BitVec 6) (nb : Bool) (n : BitVec 4) (s : State) : Host.Outcome State Fault Refusal :=
  s.slotRun p fun s => s.issueTask a nb n false

/-- Whether a counter number and an amount are legal (R333). -/
def ddecOk (k n : Word) : Bool := k.toNat < 256 && -2 ^ 31 ≤ n.toInt && n.toInt < 2 ^ 31

/-- DDEC: the decrement goes to the counter. -/
def execSeqDdec (p : Pred) (a b : BitVec 6) (scope : BitVec 3) (s : State) : Host.Outcome State Fault Refusal :=
  s.slotRun p fun s =>
    let k := s.rs 0 a
    let n := s.rs 1 b
    if scope.toNat < 2 || 4 < scope.toNat || !ddecOk k n then s.faultOn .depArg
    else s.sendDec s.seqId s.preCore.unitCtx k.toNat n.toInt

/-- The cancel that a level id word names (R333), for an issuer of a launch. -/
def cancelOf (x level : Nat) (w : Word) (launch : Nat) : Option CancelMsg :=
  let lid := if bf w.toNat 0 32 = 0 then launch else bf w.toNat 0 32
  match level with
  | 0 => some ⟨0, 0, x, 0, lid, bf w.toNat 32 32⟩
  | 1 => if bf w.toNat 32 32 = 0 then some ⟨0, 0, x, 1, lid, 0⟩ else none
  | 2 => if w ≠ 0 && w.toNat < 1024 then some ⟨0, 0, x, 2, w.toNat, 0⟩ else none
  | 3 => if w ≠ 0 && w.toNat < 256 then some ⟨0, 0, x, 3, w.toNat, 0⟩ else none
  | 4 => if w ≠ 0 && w.toNat < 64 then some ⟨0, 0, x, 4, w.toNat, 0⟩ else none
  | _ => none

/-- DDEC.CANCEL: the cancel goes to the scheduler. -/
def execSeqDdecCancel (p : Pred) (a : BitVec 6) (level : BitVec 3) (s : State) : Host.Outcome State Fault Refusal :=
  s.slotRun p fun s =>
    match cancelOf s.preCore.unitCtx level.toNat (s.rs 0 a) ((s.preCore.unit.map fun u => u.launch.toNat).getD 0) with
    | some m => s.sendCancel s.seqId m
    | none => s.faultOn .depArg

/-! ### MARK and IPATCH (R143, R404) -/

/-- MARK. -/
def execSeqMark (p : Pred) (imm : BitVec 32) (s : State) : Host.Outcome State Fault Refusal := s.slotRun p fun s => s.mark imm

/-- Writes bytes where a translated access goes. -/
def State.writeLoc (s : State) (x : Nat) (l : Loc) (bs : List Byte) : State :=
  match l with
  | .home h a => s.homeWrite h a bs
  | _ => (s.request .none x l false bs.length bs).2

/-- IPATCH: the patch is written and the sequencer fetches nothing until every core has acknowledged. -/
def execSeqIpatch (p : Pred) (a b : BitVec 6) (lane : Bool) (s : State) : Host.Outcome State Fault Refusal :=
  s.slotRun p fun s =>
    let n := if lane then 8 else 32
    let t := s.rs 0 a
    let src := (s.rs 1 b).toNat
    let x := s.preCore.unitCtx
    let c := s.seqId
    if t.toNat % n ≠ 0 || src % n ≠ 0 || 0x10000 < src + n then s.faultOn .ipatchArg
    else
      match s.checkTensor (some c) x t n with
      | .error k => s.faultOn k t
      | .ok r =>
        match s.translate (some c) x r t n .write with
        | .fault k _ => s.faultOn k t
        | .hold => s.stallOn .fetch
        | .poison _ => s.faultOn .pagePoisoned t
        | .ok l =>
          ((s.touch c x r t .write).writeLoc x l (s.scalarBytes s.preCore src n)).onSeq fun q => { q with patching := true }

/-! ### CSRs (R113, R117) -/

/-- The sequencer's CSRs: its value, or none where the number is unassigned or not the sequencer's. -/
def State.seqCsr (s : State) (n : Nat) : Option Word :=
  let k := s.preCore
  let q := k.seq
  match n with
  | 0x000 => some q.mode
  | 0x001 => some q.flag
  | 0x002 => some (match k.unit with
      | some u => BitVec.ofNat 64 (s.seqId ||| u.part.toNat <<< 16 ||| (u.ctx.toNat % 16) <<< 20)
      | none => BitVec.ofNat 64 s.seqId)
  | 0x003 => some (BitVec.ofNat 64 s.cycle)
  | 0x010 => some q.epc
  | 0x011 => some q.ecause
  | 0x012 => some q.erec
  | 0x013 => some q.tvec
  | 0x014 => some q.escr
  | _ => none

/-- The CSRs that the sequencer may write. -/
def csrWritable (n : Nat) : Bool := n = 0x000 || n = 0x001 || n = 0x010 || n = 0x013 || n = 0x014

/-- Writes a CSR of the sequencer. -/
def State.setSeqCsr (s : State) (n : Nat) (v : Word) : State :=
  s.onSeq fun q =>
    match n with
    | 0x000 => { q with mode := v &&& 0xF#64 }
    | 0x001 => { q with flag := clearFlags q.flag v }
    | 0x010 => { q with epc := v &&& ~~~0x1F#64 }
    | 0x013 => { q with tvec := v &&& ~~~0x1F#64 }
    | 0x014 => { q with escr := v }
    | _ => q

/-- The CSR number of a function (R113). -/
def State.csrNum (s : State) (a : BitVec 6) (n : BitVec 9) : Nat := ((s.rs 0 a).toNat % 4096 + n.toNat) % 4096

/-- SYS.CSRR. -/
def execSeqSysCsrr (p : Pred) (d a : BitVec 6) (n : BitVec 9) (s : State) : Host.Outcome State Fault Refusal :=
  s.slotRun p fun s =>
    match s.seqCsr (s.csrNum a n) with
    | some v => s.ws d 4 v
    | none => s.trapOn .illegalOp
/-- SYS.CSRW. -/
def execSeqSysCsrw (p : Pred) (a b : BitVec 6) (n : BitVec 9) (s : State) : Host.Outcome State Fault Refusal :=
  s.slotRun p fun s =>
    if csrWritable (s.csrNum a n) then s.setSeqCsr (s.csrNum a n) (s.rs 1 b) else s.trapOn .illegalOp
/-- A read and write of a CSR; of the flag word `flagMask` clears. -/
def State.csrRmw (s : State) (d a b : BitVec 6) (n : BitVec 9) (f : Word → Word → Word) (flagMask : Word) : State :=
  let num := s.csrNum a n
  match s.seqCsr num with
  | some v =>
    if !csrWritable num then s.trapOn .illegalOp
    else (s.ws d 4 v).setSeqCsr num (if num = 0x001 then flagMask else f v (s.rs 1 b))
  | none => s.trapOn .illegalOp
/-- SYS.CSRS. -/
def execSeqSysCsrs (p : Pred) (d a b : BitVec 6) (n : BitVec 9) (s : State) : Host.Outcome State Fault Refusal :=
  s.slotRun p fun s => s.csrRmw d a b n (fun v w => v ||| w) (s.rs 1 b)
/-- SYS.CSRC. -/
def execSeqSysCsrc (p : Pred) (d a b : BitVec 6) (n : BitVec 9) (s : State) : Host.Outcome State Fault Refusal :=
  s.slotRun p fun s => s.csrRmw d a b n (fun v w => v &&& ~~~w) 0
/-- SYS.INT (R113): a software vector, 16 to 63, of the partition. -/
def execSeqSysInt (p : Pred) (a : BitVec 6) (s : State) : Host.Outcome State Fault Refusal :=
  s.slotRun p fun s =>
    let v := (s.rs 0 a).toNat
    if 63 < v || v < 16 then s.faultOn .sysArg
    else s.raiseVector (s.preCore.unitCtx / 16) v (some (BitVec.ofNat 4 s.preCore.unitCtx))

/-! ### Remote keys (R378 to R380) -/

/-- Where a region record lies: home and byte. -/
def Context.regionPlace (k : Context) (n : Nat) : Nat × Nat := (baseHome k.keys, (baseFrame k.keys + 4) * 4096 + 32 * n)
/-- A context's region record. -/
def State.region (s : State) (x n : Nat) : BitVec 256 :=
  let (h, a) := (s.ctx x).regionPlace n
  BitVec.ofNat 256 (s.homeNat h a 32)

/-- Whether a request's fields are legal (R379). -/
def regionOk (r : BitVec 256) (cores : Word) : Bool :=
  let f := fun lo n => bf r.toNat lo n
  let base := f 192 64
  let len := f 128 64
  let rights := f 41 3
  f 64 64 = 0 && f 60 4 = 0 && f 44 3 = 0 && f 38 3 = 0 && f 12 24 = 0 && f 0 12 = 0
  && match f 36 2 with
  | 1 => base / 2 ^ 48 ≠ 0 && len ≠ 0 && base % 2 ^ 48 + len ≤ 2 ^ 48
  | 2 => len ≠ 0 && base < 2 ^ 16 && base % 2 ^ 16 + len ≤ 65536 && rights &&& 6 = 0
  | 3 => len = 0 && cores.toNat.testBit (base % 64) && rights &&& 5 = 0
  | _ => false

/-- Whether a context's region record lies inside its partition's polders, where system software must keep it (R378). -/
def State.regionInside (s : State) (x n : Nat) : Bool :=
  let (h, a) := (s.ctx x).regionPlace n
  (s.partOf x).inPolder h (a / 4096)

/-- SYS.RKREG (R379). A record outside the polders is not written: the context has broken an obligation (R10, R378). CHECK follows the
index's last registration since module reset; the region admits requests from the cycle in which the key lands. -/
def execSeqSysRkreg (p : Pred) (d a b : BitVec 6) (s : State) : Host.Outcome State Fault Refusal :=
  s.slotRun p fun s =>
    let x := s.preCore.unitCtx
    let k := s.ctx x
    let addr := (s.rs 0 a).toNat
    let n := (s.rs 1 b).toNat
    if addr % 32 ≠ 0 || 0x10000 < addr + 32 || 4095 < n || !baseSet k.keys then s.faultOn .sysArg
    else
      let r := BitVec.ofNat 256 (natOfBytes (s.scalarBytes s.preCore addr 32))
      let old := s.region x n
      let key := fun (check : Nat) => BitVec.ofNat 64 ((x / 16) <<< 28 ||| (x % 16) <<< 24 ||| n <<< 12 ||| check)
      let chk := bf old.toNat 0 12
      if !regionOk r k.cores then s.faultOn .sysArg
      else if !s.regionInside x n then s.breaks x
      else if old.getLsbD 63 then
        if k.st = .recovering && old.toNat &&& (2 ^ 256 - 1 - 2 ^ 63 - 0xFFF) = r.toNat then s.ws d 32 (key chk) else s.faultOn .sysArg
      else
        let last := (aget k.checks n).getD 0
        let c := if last = 4095 then 1 else last + 1
        let (h, ad) := k.regionPlace n
        let s := s.onCtx x fun k => { k with checks := aput k.checks n c, keyFrom := aput k.keyFrom n (s.cycle + 32) }
        (s.homeWrite h ad (bytesOfNat 32 (r.toNat ||| 1 <<< 63 ||| c))).ws d 32 (key c)

/-- SYS.RKREV (R380). Requests under the key that are not yet performed find the record revoked. A record outside the polders is not written
(R10, R378). -/
def execSeqSysRkrev (p : Pred) (a : BitVec 6) (s : State) : Host.Outcome State Fault Refusal :=
  s.slotRun p fun s =>
    let x := s.preCore.unitCtx
    let v := (s.rs 0 a).toNat
    if 2 ^ 32 ≤ v || bf v 24 8 ≠ x then s.faultOn .sysArg
    else
      let n := bf v 12 12
      let r := s.region x n
      if baseSet (s.ctx x).keys && !s.regionInside x n then s.breaks x
      else if !baseSet (s.ctx x).keys || !r.getLsbD 63 || bf r.toNat 0 12 ≠ bf v 0 12 then s
      else
        let (h, ad) := (s.ctx x).regionPlace n
        s.homeWrite h ad (bytesOfNat 32 (r.toNat &&& (2 ^ 256 - 1 - 2 ^ 63)))

/-! ### Handler mode (R114, R115) -/

/-- ERET: leaves handler mode for EPC. -/
def execSeqEret (p : Pred) (s : State) : Host.Outcome State Fault Refusal :=
  s.slotRun p fun s =>
    if s.preCore.seq.handler then { s with frame := { s.frame with eret := true, target := some s.preCore.seq.epc } }
    else s.trapOn .illegalOp
/-- TRAP. -/
def execSeqTrap (p : Pred) (imm : BitVec 32) (s : State) : Host.Outcome State Fault Refusal :=
  s.slotRun p fun s => s.faultOn .trap (imm.setWidth 64)

end Sys2Proof.Machine
end

