-- ==== Sys2Proof/Machine/LaneCtl.lean ====
section
/-!
DEFINITION. Lane control, divergence, data movement, queue binding, joint operations, nesting, checks and flags (R171, R172, R203,
R223 to R241, R385).
-/

namespace Sys2Proof.Machine

/-! ### Divergence (R223, R224) -/

/-- Pushes a divergence-stack entry; a full stack is DIV_OVERFLOW and the instruction has no effect. -/
def State.pushDiv (s : State) (m : Word) (e : DivEntry) (f : State → State) : State :=
  match s.laneBand with
  | none => s
  | some b => if 32 ≤ b.stack.length then s.laneFault .divOverflow m else f (s.onLane fun b => { b with stack := b.stack ++ [e] })

/-- Goes to an address: fewer than 2 cycles after that no instruction of the band issues (R220). -/
def State.laneJump (s : State) (t : Word) : State :=
  s.laneNext.onLane fun b => { b with pc := t, readyAt := s.cycle + 2 }

/-- The branch effect of BRA and BRX (R230). -/
def State.laneBranch (s : State) (b : Band) (m t : Word) : State :=
  if m = 0 && b.live ≠ 0 then s.laneNext
  else if t.toNat % 8 ≠ 0 then s.laneFault .fetchAlign m
  else if m = b.live then s.laneJump t
  else s.pushDiv m ⟨t, false, m⟩ fun s => (s.onLane fun b => { b with live := b.live &&& ~~~m }).laneNext

/-- A uniform branch (CALL, RET): the participants are all LIVE strands or none. -/
def State.laneUniform (s : State) (b : Band) (m t : Word) (f : State → State) : State :=
  if m ≠ b.live && m ≠ 0 then s.laneFault .callDiverge m
  else if m = 0 then s.laneNext
  else if t.toNat % 8 ≠ 0 then s.laneFault .fetchAlign m
  else (f s).laneJump t

/-- The target of a Br form. -/
def Band.target (b : Band) (off : BitVec 32) : Word := b.pc + 8 * off.signExtend 64

/-! ### Control (R230) -/

/-- NOP. -/
def execLaneNop (h : LHdr) (f : VForm) (s : State) : Host.Outcome State Fault Refusal :=
  .next (s.laneGo h [(f.a, 0)] [] none fun s _ _ _ => s.laneNext)
/-- BRA. -/
def execLaneBra (h : LHdr) (off : BitVec 32) (s : State) : Host.Outcome State Fault Refusal :=
  .next (s.laneGo h [] [] none fun s b m _ => s.laneBranch b m (b.target off))
/-- BRX: participants that name different targets are BRX_DIVERGE. -/
def execLaneBrx (h : LHdr) (f : VForm) (s : State) : Host.Outcome State Fault Refusal :=
  .next (s.laneGo h [(f.a, 1)] [] none fun s b m _ =>
    let ts := (strands m).map fun st => s.lval b [] 0 f.a 0 st
    let t := ts.headD 0
    if ts.any fun x => x ≠ t then s.laneFault .brxDiverge m else s.laneBranch b m t)
/-- CALL. -/
def execLaneCall (h : LHdr) (off : BitVec 32) (s : State) : Host.Outcome State Fault Refusal :=
  .next (s.laneGo h [] [] none fun s b m _ =>
    s.laneUniform b m (b.target off) fun s => s.onLane fun x => x.setB 111 (b.pc + 8))
/-- RET. -/
def execLaneRet (h : LHdr) (f : VForm) (s : State) : Host.Outcome State Fault Refusal :=
  .next (s.laneGo h [] [] none fun s b m _ => s.laneUniform b m (b.breg (bNum f.a)) id)
/-- JOIN. -/
def execLaneJoin (h : LHdr) (off : BitVec 32) (s : State) : Host.Outcome State Fault Refusal :=
  .next (s.laneGo h [] [] none fun s b m _ =>
    if b.actsUniform h then s.pushDiv m ⟨b.target off, true, b.live⟩ State.laneNext else s.laneNext)
/-- EXIT. -/
def execLaneExit (h : LHdr) (f : VForm) (s : State) : Host.Outcome State Fault Refusal :=
  .next (s.laneGo h [(f.a, 0)] [] none fun s _ m _ =>
    (s.onLane fun b => { b with live := b.live &&& ~~~m, exited := b.exited ||| m }).laneNext)
/-- YIELD. -/
def execLaneYield (h : LHdr) (f : VForm) (s : State) : Host.Outcome State Fault Refusal :=
  .next (s.laneGo h [(f.a, 0)] [] none fun s _ m _ =>
    (if m ≠ 0 then s.onLane fun b => { b with readySince := s.cycle + 1 } else s).laneNext)
/-- WAIT. -/
def execLaneWait (h : LHdr) (f : VForm) (s : State) : Host.Outcome State Fault Refusal :=
  .next (s.laneGo h [] [] none fun s b m _ =>
    let hold := (f.fn.getLsbD 0 && b.tileCtr ≠ 0) || (f.fn.getLsbD 1 && b.acc.any fun a => !a.tile) || (f.fn.getLsbD 2 && !b.staging.isEmpty)
    if m ≠ 0 && hold then s.laneWait else s.laneNext)

/-! ### Data movement (R231 to R235) -/

/-- MOV. -/
def execLaneMov (h : LHdr) (f : VForm) (s : State) : Host.Outcome State Fault Refusal :=
  s.laneOp h f.dst 1 [(f.a, 1)] fun _ _ r => ([r 0 0], 0)
/-- MOVI. -/
def execLaneMovi (h : LHdr) (f : IForm) (s : State) : Host.Outcome State Fault Refusal :=
  s.laneOp h f.dst 1 [] fun _ _ _ => ([immWord f.ty f.imm], 0)
/-- B2V. -/
def execLaneB2v (h : LHdr) (f : VForm) (s : State) : Host.Outcome State Fault Refusal :=
  .next (s.laneGo h [(f.dst, 1)] [] none fun s b m _ =>
    let i := (b.breg (bNum f.b)).toNat % 64
    (if m.getLsbD i then s.onLane fun x => x.setV f.dst.toNat i (b.breg (bNum f.a)) else s).laneNext)
/-- V2B and V2B.FIRST. -/
def execLaneV2b (h : LHdr) (f : VForm) (s : State) : Host.Outcome State Fault Refusal :=
  .next (s.laneGo h [(f.a, 1)] [] none fun s b m _ =>
    if f.fn = 1 then
      match (strands m).head? with
      | some i => (s.onLane fun x => x.setB (bNum f.dst) (s.vval b 0 f.a.toNat i)).laneNext
      | none => s.laneNext
    else if !b.actsOnce h then s.laneNext
    else
      let i := (b.breg (bNum f.b)).toNat % 64
      if b.dead.getLsbD i then ((s.onLane fun x => x.setB (bNum f.dst) 0).laneFlags fDRD).laneNext
      else (s.onLane fun x => x.setB (bNum f.dst) (s.vval b 0 f.a.toNat i)).laneNext)
/-- SHFL. -/
def execLaneShfl (h : LHdr) (f : VForm) (s : State) : Host.Outcome State Fault Refusal :=
  .next (s.laneGo h [(f.dst, 1), (f.a, 1), (f.b, 1)] [] none fun s b m _ =>
    let src := fun (st : Nat) =>
      let d := (s.lval b [] 1 f.b 0 st).toNat % 64
      match f.fn.toNat with
      | 0 => (d : Int)
      | 1 => (st : Int) - d
      | 2 => (st : Int) + d
      | _ => ((st ^^^ d : Nat) : Int)
    let outside := fun (st : Nat) => src st < 0 || 63 < src st
    let dead := fun (st : Nat) => !outside st && b.dead.getLsbD (src st).toNat
    let val := fun (st : Nat) =>
      if outside st then s.vval b 0 f.a.toNat st else if dead st then 0 else s.vval b 0 f.a.toNat (src st).toNat
    ((s.laneWrite f.dst m fun st => [val st]).laneFlags (fIf ((strands m).any dead) fDRD)).laneNext)
/-- VOTE. -/
def execLaneVote (h : LHdr) (f : VForm) (s : State) : Host.Outcome State Fault Refusal :=
  .next (s.laneGo h [(if f.fn = 3 then f.dst else 0xFF, 1)] [] none fun s b m _ =>
    let xs := (strands m).map fun st => b.predByte f.a st
    match f.fn.toNat with
    | 3 =>
      let ballot := BitVec.ofNat 64 (maskOf ((strands m).filter fun st => b.predByte f.a st))
      (s.laneWrite f.dst m fun _ => [ballot]).laneNext
    | n =>
      let r := match n with
        | 0 => xs.all id
        | 1 => xs.any id
        | _ => xs.all id || !xs.any id
      (if f.dst.toNat < 8 || b.actsOnce h then s.onLane fun x => x.setPred f.dst m fun _ => r else s).laneNext)

/-- A node of BRED's tree: it sets flags only where it combines two elements (log entry 106). -/
def bredNode (op : Res → Res → Res) : Option Res → Option Res → Option Res
  | none, b => b
  | a, none => a
  | some a, some b => let r := op a b; some ⟨r.bits, a.flags ||| b.flags ||| r.flags⟩

/-- The next level of BRED's tree. -/
def bredLevel (op : Res → Res → Res) : List (Option Res) → List (Option Res)
  | a :: b :: t => bredNode op a b :: bredLevel op t
  | l => l

/-- BRED's operation on two elements of a type. -/
def bredOp (b : Band) (f : VForm) (x y : Nat) : Res :=
  let t := tyF f.ty
  match f.fn.toNat with
  | 0 => if t.isIeee then t.ieee.add (b.rmode f.rm f.md) b.ftz x y else ⟨wrap t.width (intOf t x + intOf t y), 0⟩
  | 1 => if t.isIeee then fminmaxE t.ieee false b.ftz x y else iminE t x y
  | 2 => if t.isIeee then fminmaxE t.ieee true b.ftz x y else imaxE t x y
  | 3 => ⟨x &&& y, 0⟩
  | 4 => ⟨x ||| y, 0⟩
  | _ => ⟨x ^^^ y, 0⟩

/-- BRED. -/
def execLaneBred (h : LHdr) (f : VForm) (s : State) : Host.Outcome State Fault Refusal :=
  .next (s.laneGo h [(f.dst, 1), (f.a, 1)] [f.a] (some f.dst) fun s b m popped =>
    let w := tyW f.ty
    let leaf := fun (i st : Nat) => if m.getLsbD st then some (Res.mk (elem w (s.lval b popped 0 f.a 0 st) i) 0) else none
    let r := buildE w fun i =>
      ((((List.range 6).foldl (fun l _ => bredLevel (fun x y => bredOp b f x.bits y.bits) l) ((List.range 64).map (leaf i))).headD none).getD
        ⟨0, 0⟩)
    ((s.laneWrite f.dst m fun _ => [r.1]).laneFlags r.2).laneNext)

/-! ### QBIND (R226, R236, R385) -/

/-- Receive queues whose band is gone or has unbound them go back to no owner; the rest of a partly consumed message is
discarded (R385). -/
def Core.tidyRx (k : Core) : Core :=
  { k with rq := k.rq.map fun (e : Nat × RecvQ) =>
      match e.2.owner with
      | .band n =>
        if ((aget k.bands n).map fun b => b.q.any fun q => q.2.kind = 4 && q.2.word.toNat = e.1).getD false then e
        else (e.1, { e.2 with owner := .none, buf := [], ended := false, pulls := [] })
      | _ => e }

/-- Whether a queue register may not be bound anew: endpoint entries, staged pushes. -/
def State.qBusy (s : State) (c : Nat) (b : Band) (q : Nat) : Bool :=
  b.staging.any (fun e => e.1 = q) || match aget b.q q with
  | some e => match e.kind with
    | 1 => !b.resultQ.isEmpty
    | 2 => !b.mmjQ.isEmpty
    | 4 => ((aget (s.core c).rq e.word.toNat).map fun r => !r.buf.isEmpty).getD false
    | _ => false
  | none => false

/-- QBIND. -/
def execLaneQbind (h : LHdr) (f : VForm) (s : State) : Host.Outcome State Fault Refusal :=
  .next (s.laneGo h [] [] none fun s b m _ =>
    let c := s.laneId.1
    let n := s.laneId.2
    let q := qNum f.dst
    let w := b.breg (bNum f.a)
    let s := s.onCore c Core.tidyRx
    if !b.actsOnce h then s.laneNext
    else if s.qBusy c b q || ((f.fn = 1 || f.fn = 2) && b.inv.isNone) then s.laneFault .queueBusy m
    else
      match f.fn.toNat with
      | 0 => ((s.onLane fun b => { b with q := adel b.q q }).onCore c Core.tidyRx).laneNext
      | 3 =>
        if w.toNat % 512 ≠ 0 then s.laneFault .queueArg m
        else ((s.onLane fun b => { b with q := aput b.q q ⟨3, f.xt.toNat % 4, w, 0⟩ }).onCore c Core.tidyRx).laneNext
      | 4 =>
        let r := (aget (s.core c).rq (w.toNat % 16)).getD RecvQ.empty
        if 16 ≤ w.toNat then s.laneFault .queueArg m
        else if r.owner ≠ .none && r.owner ≠ .band n then s.laneFault .queueBusy m
        else
          let s := s.onLane fun b => { b with q := aput b.q q ⟨4, 0, w, 0⟩ }
          ((s.onCore c fun k => { k with rq := aput k.rq w.toNat { r with owner := .band n } }.tidyRx).pullNext c w.toNat).laneNext
      | kd => ((s.onLane fun b => { b with q := aput b.q q ⟨kd, 0, 0, 0⟩ }).onCore c Core.tidyRx).laneNext)

/-! ### MMJ (R203, R237) -/

/-- Whether the operands of an MMJ are legal for a rank of a gang of `bands` bands. -/
def mmjOkFor (d : Word) (rank bands : Nat) : Bool :=
  let mask := bf d.toNat 0 6
  bf d.toNat 22 42 = 0 && bf d.toNat 6 2 = 0 && 2 ≤ popcount mask 6 && mask.testBit rank && mask < 2 ^ bands
  && (d.getLsbD 16 || (bf d.toNat 17 1 = 0 && bf d.toNat 18 3 = 0 && bf d.toNat 21 1 = 0))

/-- Whether the queue registers that an MMJ names are bound as it needs them. -/
def mmjQueues (b : Band) (f : VForm) (d : Word) : Bool :=
  let kind := fun (x : BitVec 8) => ((aget b.q (qNum x)).map fun e => e.kind).getD 0
  kind f.b = 2 && (if d.getLsbD 16 then f.c = 0 else byteQ f.c && kind f.c = 1)

/-- MMJ: the band arrives at the rendezvous latch and goes on. A nonzero stream scale with an integer class is accepted and has no effect
(log entry 108). An unbound queue byte is a decode fault, whoever participates (R81, R91). -/
def execLaneMmj (h : LHdr) (f : VForm) (s : State) : Host.Outcome State Fault Refusal :=
  .next (s.laneGo h [] [] none fun s b m _ =>
    let c := s.laneId.1
    let n := s.laneId.2
    let k := s.core c
    let d := b.breg (bNum f.a)
    if (aget b.q (qNum f.b)).isNone || (byteQ f.c && (aget b.q (qNum f.c)).isNone) then s.laneFault .queueUnbound m
    else if !b.actsOnce h then s.laneNext
    else
      match b.of with
      | .unit _ _ _ => s.laneFault .mmjArg m
      | .gang inv rank =>
        let bands := ((k.inv inv).map fun i => bindF i.entry 104 3).getD 0
        if !mmjOkFor d rank bands then s.laneFault .mmjArg m
        else if !mmjQueues b f d then s.laneFault .mmjQueue m
        else if k.arr.degraded then s.laneFault .arrayDegraded m
        else
          let put (s : State) (j : Joint) : State := s.onArr c fun a => { a with joint := some j }
          match k.arr.joint with
          | none => (put s ⟨inv, f.ty, d, [(rank, n, none)]⟩).laneNext
          | some j =>
            if j.inv ≠ inv || j.arrived.any fun a => a.1 = rank then s.laneWait
            else if j.ty ≠ f.ty || j.desc ≠ d then
              let s := (s.onArr c fun a => { a with joint := none }).laneFault .mmjMismatch m
              j.arrived.foldl (fun s a => s.bandFault c a.2.1 .mmjMismatch (((s.band c a.2.1).map fun b => b.live).getD 0)) s
            else (put s { j with arrived := j.arrived ++ [(rank, n, none)] }).laneNext)

/-! ### TOPN (R172, R239) -/

/-- The byte ranges of an invocation's write window (R171). -/
def Inv.window (i : Inv) : List (Nat × Nat) :=
  ((List.range (bindTiles i.entry)).filter fun n => bindDir i.entry n ≠ 1).map fun n => (hBase (i.arg n), hEnd (i.arg n))
/-- Whether bytes lo … hi-1 lie inside the write window. -/
def Inv.covers (i : Inv) (lo hi : Nat) : Bool := (i.window.foldl (fun u r => cutRanges u r.1 r.2) [(lo, hi)]).isEmpty

/-- TOPN. It waits for the band's pending loads, which come before every access of the nested invocation (R299, R303). -/
def execLaneTopn (h : LHdr) (f : VForm) (s : State) : Host.Outcome State Fault Refusal :=
  .next (s.laneGo h [] [] none fun s b m _ =>
    let c := s.laneId.1
    let k := s.core c
    if m = 0 then s.laneNext
    else if b.acc.any fun a => !a.tile && a.kind = .load then s.laneWait
    else
      match b.inv.bind k.inv with
      | none => s.laneFault .nestDenied m
      | some up =>
        let op := f.fn ++ f.xt
        let e := s.bindEntry k op.toNat
        let nt := bindTiles e
        let outs := (List.range nt).filter fun i => bindDir e i ≠ 1
        if k.invs.any (fun i => i.parent = some up.id) || 16 ≤ (k.invs.filter fun i => i.st = .queued).length
            || 32 < k.ranges.length + outs.length then s.laneWait
        else if bindF up.entry 98 1 = 0 then s.laneFault .nestDenied m
        else if up.parent.isSome then s.laneFault .nestDepth m
        else if bindF e 0 3 ≠ 1 then s.laneFault .topUnbound m
        else if op = up.opc then s.laneFault .nestSelf m
        else if (nt = 0 && f.a ≠ 0) || (nt ≠ 0 && (!isB f.a || 0xEF < f.a.toNat + nt - 1))
            || (f.c ≠ 0 && (!isB f.c || 0xEF < f.c.toNat + 5)) then s.laneFault .topArgs m
        else
          let hs := (List.range nt).map fun i => b.breg (bNum f.a + i)
          let i : Inv :=
            { id := k.seq.invNext, opc := op, entry := e, handles := hs, tregs := []
              sargs := (List.range 6).map fun j => if f.c = 0 then 0 else b.breg (bNum f.c + j)
              parent := some up.id, parentOp := up.opc, abyte := f.a, st := .queued, formed := false, bands := [], snapPending := false
              cls := up.cls }
          if hs.any fun x => !hOk x then s.laneFault .tileHandle m
          else if outs.any fun n => !up.covers (hBase (i.arg n)) (hEnd (i.arg n)) then s.laneFault .nestWindow m
          else if bindSnap e && 0x1000000 < i.snapEnd then s.laneFault .snapRange m
          else
            let s := s.onCore c fun k =>
              let k := { k with seq := { k.seq with invNext := k.seq.invNext + 1 } }
              outs.foldl (fun (k : Core) n => k.addRange (hBase (i.arg n)) (hEnd (i.arg n)) (.nest i.id)) k
            (s.capture c i).laneNext)

/-! ### CHKT and FLGR (R240, R241) -/

/-- CHKT. -/
def execLaneChkt (h : LHdr) (f : VForm) (s : State) : Host.Outcome State Fault Refusal :=
  .next (s.laneGo h [(f.a, 1), (f.b, 1)] [] none fun s b m _ =>
    let bad := maskOf ((strands m).filter fun st => s.lval b [] 0 f.a 0 st ≠ s.lval b [] 1 f.b 0 st)
    if bad ≠ 0 then s.laneFault .chkMismatch (BitVec.ofNat 64 bad) else s.laneNext)

/-- FLGR. -/
def execLaneFlgr (h : LHdr) (f : VForm) (s : State) : Host.Outcome State Fault Refusal :=
  .next (s.laneGo h [(f.dst, 1)] [] none fun s b m _ =>
    if (if byteV f.dst then m ≠ 0 else b.actsOnce h) then
      let s := if byteV f.dst then s.laneWrite f.dst m fun _ => [b.flag] else s.onLane fun x => x.setB (bNum f.dst) b.flag
      (if f.fn = 1 then s.onLane fun x => { x with flag := 0 } else s).laneNext
    else s.laneNext)

end Sys2Proof.Machine
end

