-- ==== Sys2Proof/Machine/LaneMem.lean ====
section
/-!
DEFINITION. Lane memory: tensor and tile-store accesses, faults and parking, requests, completion, refusals (R275 to R292, R301,
R395, R398, R400).
-/

namespace Sys2Proof.Machine

/-! ### Pennants as homes (R296, R297) -/

/-- Where a context's pennant word lies: home and byte. -/
def Context.penPlace (k : Context) (n : Nat) : Nat × Nat := (baseHome k.ptab, baseFrame k.ptab * 4096 + 8 * n)

/-- A number for the home word that a pennant number of a context resolves to: equal for the pennant numbers that are the same
pennant (R297); none where the table's frame lies outside the polders. A forward word names a device, the context of its key and a number there. -/
def State.penKey (s : State) (x n : Nat) : Option Nat :=
  let (h, a) := (s.ctx x).penPlace n
  if !(s.partOf x).inPolder h (a / 4096) then none
  else
    let w := s.homeNat h a 8
    let own := bf w 24 8
    let n' := bf w 32 16
    if bf w 62 1 = 0 then some (h * 2 ^ 60 + a)
    else if bf w 50 12 = s.devid then let (h', a') := (s.ctx own).penPlace n'; some (h' * 2 ^ 60 + a')
    else some (2 ^ 100 + bf w 50 12 * 2 ^ 24 + own * 2 ^ 16 + n')

/-! ### Stops by the watch (R398) -/

/-- A band stops at its next boundary for the watch; the stop waits to be reported. A band that is about to park stops when it
has parked. -/
def State.laneStop (s : State) (c n : Nat) (k : FKind) (vaddr mask : Word) (entry : Option Nat) : State :=
  ((s.stopReq c ⟨.band c n, k, vaddr, mask, entry, none⟩).onBand c n fun b => if b.parkRec.isSome then b else b.stop .debug).updateHeld
    (((s.band c n).map Band.slot).getD 0)

/-! ### Outcomes by strand (R275 to R277) -/

/-- One strand's access: the fault of steps 1 to 3 with its address, or the TLR and the parts (offset, length, address, outcome). -/
abbrev StrandAcc := Except (FKind × Word × Word) (BitVec 512 × List (Nat × Nat × Word × TOut))

/-- Steps 1 to 5 of R275 for an access of n bytes at `base + off + extra`. -/
def State.strandAcc (s : State) (c x : Nat) (base : Word) (off : Int) (n align : Nat) (k : AKind) : StrandAcc :=
  let o : Int := (offsetOf base : Int) + off
  let a := base + BitVec.ofInt 64 off
  if o < 0 || 2 ^ 48 < o + n then .error (.addrRange, a, 0)
  else if a.toNat % align ≠ 0 then .error (.memAlign, a, 0)
  else
    match s.checkTensor (some c) x a n with
    | .error f => .error (f, a, 0)
    | .ok r => .ok (r, (pageParts (tlrPage r) a n).map fun p =>
        let va := a + BitVec.ofNat 64 p.1
        (p.1, p.2, va, s.translate (some c) x r va p.2 k))

/-- The first fault of a strand's access: kind, address, leaf entry. -/
def StrandAcc.fault : StrandAcc → Option (FKind × Word × Word)
  | .error f => some f
  | .ok (_, ps) => ps.findSome? fun p => match p.2.2.2 with
      | .fault k pte => some (k, p.2.2.1, pte)
      | _ => none

/-- Whether an outcome of a strand's access satisfies a test. -/
def StrandAcc.any (f : TOut → Bool) : StrandAcc → Bool
  | .error _ => false
  | .ok (_, ps) => ps.any fun p => f p.2.2.2

/-- A page that moves. -/
def TOut.isHold : TOut → Bool
  | .hold => true
  | _ => false
/-- A poisoned page that is read. -/
def TOut.isPoison : TOut → Bool
  | .poison _ => true
  | _ => false

/-- The band-class fault of an instruction (R277): the kind with the lowest code, its strands, and the first one's address. -/
def bandClass (outs : List (Nat × StrandAcc)) : Option (FKind × Word × Word × Word) :=
  let fs := outs.filterMap fun o => match o.2.fault with
    | some f => if parkKind f.1 then none else some (o.1, f)
    | none => none
  match fs with
  | [] => none
  | f :: t =>
    let low := t.foldl (fun (g : Nat × FKind × Word × Word) h => if h.2.1.code < g.2.1.code then h else g) f
    some (low.2.1, BitVec.ofNat 64 (maskOf ((fs.filter fun g => g.2.1 = low.2.1).map fun g => g.1)), low.2.2.1, low.2.2.2)

/-! ### The memory trace (R395) -/

/-- A kind-1 record of an instruction at its issue: OPC and the strands' addresses. -/
def State.traceMem (s : State) (opc : Nat) (m : Word) (addrs : List (Nat × Word)) : State :=
  let (c, n) := s.laneId
  let w := (s.core c).watch
  match s.band c n, addrs with
  | some b, (s0, a0) :: rest =>
    if !(w.memt && w.mslice.getLsbD (n / 16)) then s
    else
      let stride : Int := match rest with
        | (s1, a1) :: _ => max (-2 ^ 31) (min (2 ^ 31 - 1) (((a1.toNat : Int) - a0.toNat).tdiv ((s1 : Int) - s0)))
        | [] => 0
      let base := a0 - BitVec.ofInt 64 (stride * s0)
      let line := fun (st : Nat) => base + BitVec.ofInt 64 (stride * st)
      let exc := addrs.filter fun a => a.2 ≠ line a.1
      let delta := fun (a : Nat × Word) => (a.2 - line a.1).toInt
      let fits := fun (a : Nat × Word) => -2 ^ 24 ≤ delta a && delta a < 2 ^ 24
      let first := exc.take 6
      let entries := (first.zip (List.range 6)).foldl (fun acc e =>
        acc ||| ((e.1.1 <<< 26 ||| (if fits e.1 then 1 <<< 25 ||| (delta e.1 % 2 ^ 25).toNat else 0)) <<< (64 + 32 * e.2))) 0
      let xovf := 6 < exc.length || first.any fun a => !fits a
      s.trace c (BitVec.ofNat 512 (s.traceHeader c b.slot (n / 16) (n % 16) 1 xovf ||| entries ||| opc <<< 278
        ||| (stride % 2 ^ 32).toNat <<< 288 ||| m.toNat <<< 320 ||| base.toNat <<< 384 ||| b.pc.toNat <<< 448))
  | _, _ => s

/-! ### Watchpoints (R400) -/

/-- The watchpoints that an instruction's performed pieces match: the first entry that does, its lowest matching address and its
strands. -/
def Watch.hit (w : Watch) (rd wr : Bool) (ps : List (Nat × Word × Nat)) : Option (Nat × Word × Word) :=
  w.wps.findSome? fun e =>
    let v := e.2.word
    let lo := bf v.toNat 64 64
    let hi := lo + bf v.toNat 32 32
    let on := e.2.trig = .armed && ((v.getLsbD 2 && rd) || (v.getLsbD 3 && wr))
    let ms := ps.filter fun p => on && p.2.1.toNat < hi && lo < p.2.1.toNat + p.2.2
    match ms with
    | [] => none
    | p :: _ =>
      let at1 := ms.foldl (fun a q => min a (max q.2.1.toNat lo)) (max p.2.1.toNat lo)
      some (e.1, BitVec.ofNat 64 at1, BitVec.ofNat 64 (maskOf (ms.map fun q => q.1)))

/-! ### Death of strands (R122, R277) -/

/-- Strands die by an uncorrectable error: the band goes on and a UE_STRAND record is written. -/
def State.strandsDie (s : State) (c n : Nat) (mask vaddr pte : Word) : State :=
  match s.band c n with
  | none => s
  | some b =>
    if mask = 0 then s
    else ((s.health1 [70]).killStrands c n mask).takeFault b.slot (s.bandRecord c n b .ueStrand mask b.pc vaddr pte) (.band c n) b.evKind
      (min b.cls 15)

/-! ### Issue (R278, R279, R284) -/

/-- The bytes that a store piece writes. -/
def Piece.bytes (p : Piece) : List Byte := bytesOfNat p.n (p.data.toNat >>> (8 * p.off))

/-- Opens the remote requests of an access: reads and writes one per contiguous run of a line, atomics one each, in ascending
strand order. -/
def State.openPieces (s : State) (who : Requester) (x : Nat) (a : Access) : State × List Piece :=
  let far := a.pieces.filterMap fun p => p.loc.far.map fun u => (p, u)
  match a.kind with
  | .atom | .red =>
    a.pieces.foldl (fun (acc : State × List Piece) p =>
      match p.loc with
      | .peer d key roff =>
        let tcode := if a.ty = 7 then 1 else if a.ty = 10 then 2 else 0
        let n := if a.op = 7 || a.op = 15 then 16 else 8
        let opnd := if n = 16 then bytesOfNat 8 p.data.toNat ++ bytesOfNat 8 p.data2.toNat else bytesOfNat 8 p.data.toNat
        let (id, s) := acc.1.requestAtomic who x d key roff (a.kind = .red) (a.op ||| tcode <<< 4 ||| a.scope <<< 6) opnd
        (s, acc.2 ++ [{ p with remote := some id }])
      | _ => (acc.1, acc.2 ++ [p])) (s, [])
  | _ =>
    let runs := farRuns (a.pieces.map fun p => (p.loc, p.n))
    let isRead := a.kind = .load
    let (ids, s) := runs.foldl (fun (acc : List Nat × State) r =>
      let buf := far.foldl (fun (b : List Byte) f =>
        let (h, d, kk, ad) := f.2
        if (h, d, kk) = r.1 && r.2.1 ≤ ad && ad + f.1.n ≤ r.2.1 + r.2.2 then
          b.take (ad - r.2.1) ++ f.1.bytes ++ b.drop (ad - r.2.1 + f.1.n) else b) (List.replicate r.2.2 0)
      let (id, s) := acc.2.request who x (farLoc r.1 r.2.1) isRead r.2.2 (if isRead then [] else buf)
      (acc.1 ++ [id], s)) ([], s)
    (s, a.pieces.map fun p => match p.loc.far with
      | some (h, d, kk, ad) => { p with remote := ((runs.zip ids).find? fun r =>
          r.1.1 = (h, d, kk) && r.1.2.1 ≤ ad && ad + p.n ≤ r.1.2.1 + r.1.2.2).map fun r => r.2 }
      | none => p)

/-- Whether an access is an atomic. -/
def Access.strong (a : Access) : Bool := a.kind = .atom || a.kind = .red
/-- Whether an `ATOM` has parts that are not performed: no later strong access of its band is performed before it (R305). -/
def Access.reading (a : Access) : Bool := a.kind = .atom && !a.tile && a.pieces.any fun p => !p.performed
/-- Whether a band has an `ATOM` under way. -/
def Band.atomOpen (b : Band) : Bool := b.acc.any Access.reading

/-- Whether two pieces lie in one unit and their addresses, cut down to multiples of g, and lengths meet. -/
def Piece.meets (g : Nat) (p q : Piece) : Bool :=
  let same : Bool := match p.loc, q.loc with
    | .home h _, .home k _ => h = k
    | .tile _, .tile _ => true
    | .peer d k _, .peer e l _ => d = e && k = l
    | .host _, .host _ => true
    | _, _ => false
  let a := p.loc.addr / g * g
  let b := q.loc.addr / g * g
  same && decide (a < q.loc.addr + q.n) && decide (b < p.loc.addr + p.n)
/-- Whether two pieces touch the same bytes (R285). -/
def Piece.overlaps (p q : Piece) : Bool := p.meets 1 q
/-- Whether two pieces touch one location, an aligned 8-byte word (R304). -/
def Piece.oneLocation (p q : Piece) : Bool := p.meets 8 q

/-- Whether a later access of a band may not be performed before an earlier piece: they touch the same bytes (R285), or both are strong and
touch one location (R304). -/
def Access.after (a : Access) (p : Piece) (e : Access) : Bool :=
  e.pieces.any fun q => !q.performed && (q.overlaps p || (a.strong && e.strong && q.oneLocation p))
/-- Whether an access to a peer or the control node may not be sent yet: an earlier `ATOM` is under way, or an earlier access that it must
follow has not been sent. -/
def Access.held (a : Access) (before : List Access) : Bool :=
  (a.strong && before.any Access.reading)
  || before.any fun e => (e.pieces.any fun q => q.loc.far.isSome && q.remote.isNone) && a.pieces.any fun p => p.loc.far.isSome && a.after p e

/-- The unit and line (or tile-store word) of a piece: pieces of one are performed together. -/
def Piece.key (p : Piece) : Nat × Nat × Nat :=
  match p.loc with
  | .home h a => (h, 0, a / 128)
  | .tile a => (9, 0, a / 8)
  | _ => (8, p.remote.getD 0, 0)

/-- The line requests that a core has outstanding (R18, R284): one per access and line of its bands, and those of its copies. -/
def Core.lineRequests (k : Core) : Nat :=
  (k.bands.foldl (fun t b => b.2.acc.foldl (fun t a =>
    if a.tile then t
    else t + (a.pieces.foldl (fun (l : List (Nat × Nat × Nat)) p => if p.performed || l.contains p.key then l else p.key :: l) []).length) t) 0)
  + k.chans.toList.foldl (fun t q => q.foldl (fun t m => t + m.remote.length + m.acks.length) t) 0
/-- Whether no line request of a core is free: its M pipes accept no memory instruction (R284). -/
def Core.linesFull (k : Core) : Bool := decide (2048 ≤ k.lineRequests)

/-- Once everything that a parking instruction performed has completed the band is PARKED and its record written (R278). -/
def State.settlePark (s : State) (c n : Nat) : State :=
  match s.band c n with
  | none => s
  | some b =>
    match b.parkRec with
    | some r =>
      if b.acc.any fun a => !a.tile && a.pc = b.pc then s
      else
        let stopped := (s.core c).watch.stops.any fun q => q.who = .band c n
        (s.onBand c n fun b =>
          let b := { b with parkRec := none, faultVa := r.vaddr, wait := .none, st := if b.st = .waiting then .parked else b.st }
          if stopped then b.stop .debug else b).takeFault b.slot r (.band c n) b.evKind (min b.cls 15)
    | none => s

/-- A tensor instruction of a band: n bytes per strand, at base `A` + OFF (+ 8·strand for a block), with its access kind; `mk` gives
a strand's operands; the template holds what the access does; `regs` are the registers named. -/
def State.memOp (s : State) (h : LHdr) (opc : Nat) (regs : List (BitVec 8 × Nat)) (a : BitVec 8) (off : BitVec 20) (block : Bool)
    (n align : Nat) (k : AKind) (tmpl : Access) (mk : State → Band → Nat → Word × Word) : Host.Outcome State Fault Refusal :=
  .next (s.laneGo h regs [] none fun s b m _ =>
    let (c, bn) := s.laneId
    let x := b.slot
    let rd := k = .read
    if m = 0 then s.laneNext
    else if (s.core c).linesFull then s.laneWait
    else
      let base := fun (st : Nat) => s.lval b [] 0 a 0 st
      let offs := fun (st : Nat) => off.toInt + (if block then 8 * (st : Int) else 0)
      let outs := (strands m).map fun st => (st, s.strandAcc c x (base st) (offs st) n align k)
      if outs.any fun o => o.2.any TOut.isHold then s.laneWait
      else
        let s := s.traceMem (opc + b2n h.neg * 512) m ((strands m).map fun st => (st, base st + BitVec.ofInt 64 (offs st)))
        match bandClass outs with
        | some (f, mask, va, pte) => s.laneFault f mask va pte
        | none =>
          let dead := maskOf ((outs.filter fun o => o.2.any TOut.isPoison).map fun o => o.1)
          let deadAt : Word × Word := (outs.findSome? fun o => match o.2 with
            | .ok (_, ps) => ps.findSome? fun p => match p.2.2.2 with | .poison pte => some (p.2.2.1, pte) | _ => none
            | _ => none).getD (0, 0)
          let parked := outs.filterMap fun o => if o.2.any TOut.isPoison then none else o.2.fault.map fun f => (o.1, f)
          let ok := outs.flatMap fun o => match o.2 with
            | .ok (r, ps) => if o.2.any TOut.isPoison then [] else ps.flatMap fun p => match p.2.2.2 with
                | .ok l => (l.lines p.2.1).map fun q => (o.1, r, p.1 + q.1, q.2.1, p.2.2.1 + BitVec.ofNat 64 q.1, q.2.2)
                | _ => []
            | _ => []
          let lines := ok.foldl (fun (acc : List (BitVec 512 × Nat)) q =>
            let put (acc : List (BitVec 512 × Nat)) (l : Nat) := if acc.any fun e => e.2 = l then acc else acc ++ [(q.2.1, l)]
            put (put acc (q.2.2.2.2.1.toNat / 128)) ((q.2.2.2.2.1.toNat + q.2.2.2.1 - 1) / 128)) []
          let s := lines.foldl (fun s l => s.touch c x l.1 (BitVec.ofNat 64 (128 * l.2)) k) s
          let (id, s) := s.newId
          let pieces := ok.map fun q =>
            let (st, r, o, len, va, l) := q
            let d := mk s b st
            Piece.mk st o len l va d.1 d.2 (s.penKey x (tf r 32 16)) none false (offsetOf va / tlrPage r)
          let whole := maskOf ((outs.filter fun o => o.2.fault.isNone && !(o.2.any TOut.isPoison)).map fun o => o.1)
          let acc : Access := { tmpl with id := id, pc := b.pc, whole := BitVec.ofNat 64 whole, pieces := pieces }
          let (s, pieces) := if acc.held b.acc then (s, pieces) else s.openPieces (.band c bn id) x acc
          let s := if pieces.isEmpty then s else s.onLane fun b => { b with acc := b.acc ++ [{ acc with pieces := pieces }] }
          let s := s.strandsDie c bn (BitVec.ofNat 64 dead) deadAt.1 deadAt.2
          let hit := (s.core c).watch.hit (rd || k = .atomic) (!rd) (ok.map fun q => (q.1, q.2.2.2.2.1, q.2.2.2.1))
          let s := match parked with
            | [] => s.laneNext
            | (_, f) :: _ =>
              let un := BitVec.ofNat 64 (maskOf (parked.map fun p => p.1))
              let rec1 := s.bandRecord c bn b f.1 un b.pc f.2.1 f.2.2
              (s.onLane fun b => { b with unfinished := some un, st := .waiting, wait := .mem, parkRec := some rec1 }).settlePark c bn
          match hit with
          | some (e, va, mask) =>
            (s.onWatch c fun w => { w with wps := setTrig w.wps e .triggered }).laneStop c bn .watchHit va mask (some e)
          | none => s)

/-- The template of an access. -/
def Access.of (kind : AccKind) (dst : BitVec 8) (size : Nat) (sx : Bool) (op : Nat) (ty : BitVec 4) (scope : Nat) : Access :=
  { id := 0, kind := kind, tile := false, dst := dst, size := size, sx := sx, op := op, ty := ty, scope := scope, pc := 0, whole := 0
    pieces := [] }

/-- The size in bytes that OPX gives. -/
def mSize (f : MForm) : Nat := 2 ^ (f.opx.toNat % 4)

/-- LD. -/
def execLaneLd (h : LHdr) (f : MForm) (s : State) : Host.Outcome State Fault Refusal :=
  s.memOp h 0x0C0 [(f.a, 1), (f.dst, 1)] f.a f.off false (mSize f) 1 .read
    (Access.of .load f.dst (mSize f) (f.opx.getLsbD 2) 0 0 0) fun _ _ _ => (0, 0)
/-- ST. -/
def execLaneSt (h : LHdr) (f : MForm) (s : State) : Host.Outcome State Fault Refusal :=
  s.memOp h 0x0C1 [(f.a, 1), (f.dst, 1)] f.a f.off false (mSize f) 1 .write
    (Access.of .store 0 (mSize f) false 0 0 0) fun s b st => (s.lval b [] 1 f.dst 0 st, 0)
/-- LDB. -/
def execLaneLdb (h : LHdr) (f : MForm) (s : State) : Host.Outcome State Fault Refusal :=
  s.memOp h 0x0C4 [(f.dst, 1)] f.a f.off true 8 8 .read (Access.of .load f.dst 8 false 0 0 0) fun _ _ _ => (0, 0)
/-- STB. -/
def execLaneStb (h : LHdr) (f : MForm) (s : State) : Host.Outcome State Fault Refusal :=
  s.memOp h 0x0C5 [(f.dst, 1)] f.a f.off true 8 8 .write (Access.of .store 0 8 false 0 0 0)
    fun s b st => (s.lval b [] 1 f.dst 0 st, 0)

/-- The width in bytes of an atomic: 8 for the `.W64` forms. -/
def atomBytes (f : MForm) : Nat := if f.opx.getLsbD 3 then 8 else 4
/-- Whether an atomic is a compare-and-swap, which reads two registers. -/
def atomCas (f : MForm) : Bool := f.opx.toNat % 8 = 7

/-- ATOM. -/
def execLaneAtom (h : LHdr) (f : MForm) (s : State) : Host.Outcome State Fault Refusal :=
  s.memOp h 0x0C6 [(f.a, 1), (f.dst, if atomCas f then 2 else 1)] f.a f.off false (atomBytes f) (atomBytes f) .atomic
    (Access.of .atom f.dst (atomBytes f) false f.opx.toNat f.ty f.scope.toNat)
    fun s b st => (s.lval b [] 1 f.dst 0 st, if atomCas f then s.lval b [] 1 f.dst 1 st else 0)
/-- RED. -/
def execLaneRed (h : LHdr) (f : MForm) (s : State) : Host.Outcome State Fault Refusal :=
  s.memOp h 0x0C7 [(f.a, 1), (f.dst, 1)] f.a f.off false (atomBytes f) (atomBytes f) .atomic
    (Access.of .red 0 (atomBytes f) false f.opx.toNat f.ty f.scope.toNat) fun s b st => (s.lval b [] 1 f.dst 0 st, 0)

/-- PREF: translates, counts toward hotness, and drops what fails. -/
def execLanePref (h : LHdr) (f : MForm) (s : State) : Host.Outcome State Fault Refusal :=
  .next (s.laneGo h [(f.a, 1)] [] none fun s b m _ =>
    let c := s.laneId.1
    let lines := (strands m).foldl (fun (acc : List (BitVec 512 × Nat)) st =>
      match s.strandAcc c b.slot (s.lval b [] 0 f.a 0 st) f.off.toInt 1 1 .read with
      | .ok (r, [(_, _, va, .ok _)]) => if acc.any fun e => e.2 = va.toNat / 128 then acc else acc ++ [(r, va.toNat / 128)]
      | _ => acc) []
    (lines.foldl (fun (t : State) l => t.touch c b.slot l.1 (BitVec.ofNat 64 (128 * l.2)) .read) s).laneNext)

/-! ### The tile store (R171, R287) -/

/-- The fault of a strand's tile-store access at an address (R287, R171). -/
def Core.tileFault (k : Core) (b : Band) (a : Int) (n : Nat) (store : Bool) : Option FKind :=
  if a < 0 || 0x1000000 < a + n then some .tileAddr
  else if a.toNat % n ≠ 0 then some .tileAlign
  else if store then
    match b.inv.bind k.inv with
    | some i => if i.covers a.toNat (a.toNat + n) then none else some .tileWrite
    | none => none
  else none

/-- LDT and STT: the tile counter rises; a full one holds the band. -/
def State.tileOp (s : State) (h : LHdr) (f : MForm) (store : Bool) : Host.Outcome State Fault Refusal :=
  .next (s.laneGo h [(f.a, 1), (f.dst, 1)] [] none fun s b m _ =>
    let k := s.core s.laneId.1
    let n := mSize f
    let ad := fun (st : Nat) => ((s.lval b [] 0 f.a 0 st).toNat : Int) + f.off.toInt
    let fs := (strands m).filterMap fun st => (k.tileFault b (ad st) n store).map fun e => (st, e)
    if m = 0 then s.laneNext
    else if 64 ≤ b.tileCtr || k.linesFull then s.laneWait
    else
      match fs with
      | e :: t =>
        let low := t.foldl (fun (g : FKind) q => if q.2.code < g.code then q.2 else g) e.2
        let who := (e :: t).filter fun q => q.2 = low
        s.laneFault low (BitVec.ofNat 64 (maskOf (who.map fun q => q.1))) (BitVec.ofInt 64 (ad ((who.map fun q => q.1).headD 0)))
      | [] =>
        let (id, s) := s.newId
        let ps := (strands m).map fun st =>
          Piece.mk st 0 n (.tile (ad st).toNat) 0 (if store then s.lval b [] 1 f.dst 0 st else 0) 0 none none false 0
        let acc : Access := { Access.of (if store then .store else .load) (if store then 0 else f.dst) n (!store && f.opx.getLsbD 2) 0 0 0 with
          id := id, tile := true, pc := b.pc, whole := m, pieces := ps }
        (s.onLane fun b => { b with acc := b.acc ++ [acc], tileCtr := b.tileCtr + 1 }).laneNext)

/-- LDT. -/
def execLaneLdt (h : LHdr) (f : MForm) (s : State) : Host.Outcome State Fault Refusal := s.tileOp h f false
/-- STT. -/
def execLaneStt (h : LHdr) (f : MForm) (s : State) : Host.Outcome State Fault Refusal := s.tileOp h f true

/-! ### Atomics at their home (R289, R304) -/

/-- The value that an atomic leaves, on elements of w bits. -/
def atomNew (op : Nat) (ty : Nat) (w x opd new : Nat) : Nat :=
  let signed := ty = 6
  let less := fun (a b : Nat) => if signed then decide (sx w a < sx w b) else decide (a < b)
  let fp := ty = 10
  match op % 8 with
  | 0 => if fp then
        let r := (ieee32.add .rne false x opd).bits
        if (ieee32.val r).isNan then ieee32.defNan else r
      else (x + opd) % 2 ^ w
  | 1 => if fp then (fminmaxE ieee32 false false x opd).bits
      else if less opd x then opd else x
  | 2 => if fp then (fminmaxE ieee32 true false x opd).bits
      else if less x opd then opd else x
  | 3 => x &&& opd
  | 4 => x ||| opd
  | 5 => x ^^^ opd
  | 6 => opd
  | _ => if x = opd then new else x

/-- Performs an atomic on a local home; answers the old value. -/
def State.atomicAt (s : State) (h a op ty n : Nat) (opd new : Word) : Nat × State :=
  let x := s.homeNat h a n
  (x, s.homeWrite h a (bytesOfNat n (atomNew op ty (8 * n) x (opd.toNat % 2 ^ (8 * n)) (new.toNat % 2 ^ (8 * n)))))

/-! ### LANE_ACCESS_COMPLETE (R284 to R286) -/

/-- Whether a piece of an access must wait: an earlier access of the band that it follows (R285, R304), an earlier `ATOM` when it is an atomic
(R305), a held range (R183), an answer. -/
def State.pieceWaits (s : State) (k : Core) (b : Band) (before : List Access) (a : Access) (p : Piece) : Bool :=
  (a.strong && before.any Access.reading)
  || (before.any (a.after p))
  || (match p.loc with
    | .tile a => k.ranges.any fun r => r.lo < a + p.n && a < r.hi && match r.owner with | .nest i => b.inv ≠ some i | _ => true
    | _ => false)
  || (match p.remote with
    | some id => match s.reqStat id with | .answered _ => false | _ => true
    | none => false)

/-- Performs one piece. -/
def State.performPiece (s : State) (c : Nat) (a : Access) (p : Piece) : State × Piece :=
  let p := { p with performed := true }
  match p.loc with
  | .home h ad =>
    match a.kind with
    | .load => (s, { p with data := BitVec.ofNat 64 (s.homeNat h ad p.n) })
    | .store => (s.homeWrite h ad p.bytes, p)
    | _ =>
      let (x, s) := s.atomicAt h ad a.op a.ty.toNat p.n p.data p.data2
      (s, { p with data := BitVec.ofNat 64 x })
  | .tile ad =>
    match a.kind with
    | .load => (s, { p with data := BitVec.ofNat 64 (natOfBytes (s.tileBytes (s.core c) ad p.n)) })
    | _ => (s.onCore c fun k => { k with tile := k.tile.writeBytes ad p.bytes }, p)
  | l =>
    match p.remote, a.kind with
    | some id, .load | some id, .atom =>
      let bs := match s.reqStat id with | .answered bs => bs | _ => []
      let start := ((aget s.remote id).map fun r => r.addr).getD 0
      let at1 := match l.far with | some (_, _, _, ad) => ad | none => 0
      (s, { p with data := BitVec.ofNat 64 (natOfBytes ((bs.drop (if a.kind = .atom then 0 else at1 - start)).take p.n)) })
    | _, _ => (s, p)

/-- The value that a strand of a load or `ATOM` receives. -/
def accessValue (a : Access) (st : Nat) : Word :=
  let v := a.pieces.foldl (fun acc p => if p.strand = st then acc ||| (p.data.toNat % 2 ^ (8 * p.n)) <<< (8 * p.off) else acc) 0
  let signed := if a.kind = .atom then a.ty = 6 && a.size = 4 else a.sx
  if signed then BitVec.ofInt 64 (sx (8 * a.size) v) else BitVec.ofNat 64 v

/-- Writes what an access returns in the strands of a mask that are not DEAD. -/
def Band.land (b : Band) (a : Access) (mask : Word) : Band :=
  match a.kind with
  | .load | .atom => (strands (mask &&& ~~~b.dead)).foldl (fun (b : Band) st => b.setV a.dst.toNat st (accessValue a st)) b
  | _ => b

/-- An access whose every part is performed retires: registers, tile counter, requests. -/
def State.retireAccess (s : State) (c n : Nat) (a : Access) : State :=
  let s := s.dropReqs (a.pieces.filterMap fun p => p.remote)
  let s := s.onBand c n fun b =>
    let b := b.land a a.whole
    if a.tile then
      let b := { b with tileCtr := b.tileCtr - 1, acc := updWhere (fun (x : Access) => x.id = a.id) (fun _ => a) b.acc }
      if b.tileCtr = 0 then { b with acc := b.acc.filter fun x => !x.tile } else b
    else { b with acc := b.acc.filter fun x => x.id ≠ a.id }
  s.settlePark c n

/-- LANE_ACCESS_COMPLETE: one line of an access (request `core`, band slot `n`, access `m`, piece `addr`) is performed; the last
one retires the access. Atomics to a peer that waited for an earlier `ATOM` are first sent. -/
def evLaneAccessComplete (s : State) : State :=
  let c := s.req.core
  let n := s.req.n
  match s.band c n with
  | none => s
  | some b =>
    match firstWith (fun (a : Access) => a.id = s.req.m) b.acc with
    | none => s
    | some (before, a) =>
      match a.pieces[s.req.addr]? with
      | none => s
      | some p0 =>
        if p0.loc.far.isSome && p0.remote.isNone then
          if a.held before then s
          else
            let (s, ps) := s.openPieces (.band c n a.id) b.slot a
            s.onBand c n fun b => { b with acc := updWhere (fun (x : Access) => x.id = a.id) (fun x => { x with pieces := ps }) b.acc }
        else
        let mine := fun (p : Piece) => p.key = p0.key && !p.performed
        if p0.performed || (a.pieces.any fun p => mine p && s.pieceWaits (s.core c) b before a p) then s
        else
          let (s, ps) := a.pieces.foldl (fun (acc : State × List Piece) p =>
            if mine p then
              let (s, p) := acc.1.performPiece c a p
              (s, acc.2 ++ [p])
            else (acc.1, acc.2 ++ [p])) (s, [])
          let a := { a with pieces := ps }
          if ps.all fun p => p.performed then s.retireAccess c n a
          else s.onBand c n fun b => { b with acc := updWhere (fun (x : Access) => x.id = a.id) (fun _ => a) b.acc }

/-! ### Refusals (R283) -/

/-- REFUSAL_REPORT: an access with a refused part, all others being performed, halts its band; the record names the instruction and
the refused strands. -/
def evRefusalReport (s : State) : State :=
  let c := s.req.core
  let n := s.req.n
  match s.band c n with
  | none => s
  | some b =>
    match b.acc.find? fun a => a.id = s.req.m with
    | none => s
    | some a =>
      let refused := fun (p : Piece) => match p.remote with
        | some id => match s.reqStat id with | .refused k => some k | _ => none
        | none => none
      match a.pieces.findSome? fun p => (refused p).map fun k => (k, p.va) with
      | none => s
      | some (k, va) =>
        if a.pieces.any fun p => !p.performed && (refused p).isNone then s
        else
          let mask := BitVec.ofNat 64 (maskOf ((a.pieces.filter fun p => (refused p).isSome).map fun p => p.strand))
          let s := s.dropReqs (a.pieces.filterMap fun p => p.remote)
          let s := s.onBand c n fun b => { b.land a (a.whole &&& ~~~mask) with acc := b.acc.filter fun x => x.id ≠ a.id }
          (s.bandFaultAt c n k mask a.pc va 0).settlePark c n

/-! ### CPY and DRAIN (R291, R292) -/

/-- Enters a copy command of the band that acts. -/
def State.laneCopy (s : State) (b : Band) (ch : Nat) (op : CopyOp) (f : CopyCmd → CopyCmd) : Nat × State :=
  let (c, n) := s.laneId
  let (id, s) := s.newId
  let m := f { CopyCmd.start0 id op (.band c n) ((s.core c).taskOf b) b.slot (min b.cls 15) with inv := b.inv, unit := b.unitIndex }
  (id, s.onCore c fun k => k.onChan ch fun q => q ++ [m])

/-- CPY. A `.IN` of a gang writes the region's elements only, and these must lie in its write window (R171, R179). -/
def execLaneCpy (h : LHdr) (f : VForm) (s : State) : Host.Outcome State Fault Refusal :=
  .next (s.laneGo h [] [] none fun s b m _ =>
    let c := s.laneId.1
    let k := s.core c
    let ch := f.xt.toNat % 4
    let op := f.fn.toNat % 4
    let tr := f.fn.getLsbD 2
    let spd := f.fn.getLsbD 3
    let hd := b.breg (bNum f.a)
    let d : BitVec 256 := BitVec.ofNat 256 ((List.range 4).foldl (fun a i => a ||| (b.breg (bNum f.c + i)).toNat <<< (64 * i)) 0)
    let w := b.breg (bNum f.b)
    let rows := if tr then cdCols d else cdRows d
    let bytes := ((if tr then cdRows d else cdCols d) * fmtWidth (hFmt hd) + 7) / 8
    let outside := match b.inv.bind k.inv with
      | some i => (List.range rows).any fun r => !i.covers (hBase hd + r * hPitch hd) (hBase hd + r * hPitch hd + bytes)
      | none => false
    if !b.actsOnce h then s.laneNext
    else if 16 ≤ (k.chan ch).length || (op = 0 && 32 ≤ k.ranges.length) then s.laneWait
    else if !hOk hd then s.laneFault .tileHandle m
    else if op ≠ 2 && !copyDescOk d hd tr spd then s.laneFault .copyDesc m
    else if op = 2 && (bf w.toNat 6 2 ≠ 0 || bf w.toNat 14 50 ≠ 0) then s.laneFault .copyDesc m
    else if op = 0 && outside then s.laneFault .tileWrite m
    else
      let (id, s) := s.laneCopy b ch (if op = 0 then .cin else if op = 1 then .cout else .cxc) fun q =>
        { q with handle := hd, desc := if op = 2 then 0 else d, dest := if op = 2 then w else 0, tr := tr, sp := spd, cv := f.xt.getLsbD 3 }
      (if op = 0 then s.onCore c fun k => k.addRange (hBase hd) (hEnd hd) (.copy id) else s).laneNext)

/-- DRAIN: the marker is entered once, after the band's pushes to that channel that are still staged (R227, R228); the band's next instruction
waits for it. -/
def execLaneDrain (h : LHdr) (f : VForm) (s : State) : Host.Outcome State Fault Refusal :=
  .next (s.laneGo h [] [] none fun s b _ _ =>
    let c := s.laneId.1
    let ch := f.xt.toNat % 4
    if !b.actsOnce h then s.laneNext
    else if 16 ≤ ((s.core c).chan ch).length || b.staging.any fun e => b.endpoint e.1 = (3, ch) then s.laneWait
    else
      let (id, s) := s.laneCopy b ch .marker fun q => { q with inv := none }
      s.laneNext.onLane fun b => { b with st := .waiting, wait := .marker id })

/-! ### The steps -/

/-- LANE_ACCESS_COMPLETE. -/
def execLaneAccessComplete (s : State) : Host.Outcome State Fault Refusal := .next (evLaneAccessComplete s)
/-- REFUSAL_REPORT. -/
def execRefusalReport (s : State) : Host.Outcome State Fault Refusal := .next (evRefusalReport s)

end Sys2Proof.Machine
end

