-- ==== Sys2Proof/Machine/Sync.lean ====
section
/-!
DEFINITION. Pennants, fences and the barrier tree (R296 to R320).
-/

namespace Sys2Proof.Machine

/-! ### Bands that wait for something else -/

/-- A band's instruction completes after a wait: it goes on at the next instruction. -/
def State.bandNext (s : State) (c n : Nat) (f : Band → Band) : State :=
  s.onBand c n fun b =>
    let b := f b
    let w : Bool := b.st = .waiting || b.st = .held || b.st = .issuing
    { b with pc := b.pc + 8, wait := .none, unfinished := none, st := if w then .ready else b.st
             readySince := if w then s.cycle else b.readySince }

/-- The band waits for a reason of its own; its instruction is not complete. -/
def State.laneHold (s : State) (w : BWait) : State := s.onLane fun b => { b with st := .waiting, wait := w }

/-! ### Pennant operations (R297, R298, R310, R311) -/

/-- The pennant number of an instruction: base register and POFF. -/
def penNumber (b : Band) (f : IForm) : Option Nat :=
  let base := if f.a = 0 then 0 else (b.breg (bNum f.a)).toNat
  let n := base + bf f.imm.toNat 0 16
  if bf base 16 48 ≠ 0 || 65535 < n then none else some n

/-- The home word of a pennant number: where it lies, and the forward word when it has the forward form. -/
def State.penHome (s : State) (x n : Nat) : Except FKind (Nat × Nat × Option Word) :=
  let (h, a) := (s.ctx x).penPlace n
  if !(s.partOf x).inPolder h (a / 4096) then .error .polderFault
  else
    let w := BitVec.ofNat 64 (s.homeNat h a 8)
    if !w.getLsbD 63 then .error .pennantFree
    else if !w.getLsbD 62 then .ok (h, a, none)
    else if bf w.toNat 48 2 ≠ 0 then .error .pennantArg
    else .ok (h, a, some w)

/-- Adds a pennant operation of the band that acts; the band waits until it is performed. -/
def State.addPen (s : State) (mk : Nat → PenOp) : State :=
  let (id, s) := s.newId
  { s with pens := s.pens ++ [mk id] }.laneHold (.pennant id)

/-- The `ATOM`s of a band that are under way: no pennant operation is performed before them (R305). -/
def Band.openAtoms (b : Band) : List Nat := (b.acc.filter Access.reading).map fun a => a.id
/-- The loads of a band whose data has not come: what happens after a release must not reach them (R299, R303). -/
def Band.openLoads (b : Band) : List Nat := (b.acc.filter fun a => !a.tile && a.kind = .load).map fun a => a.id

/-- PACQ. -/
def execLanePacq (h : LHdr) (f : IForm) (s : State) : Host.Outcome State Fault Refusal :=
  .next (s.laneGo h (if f.dst = 0 then [] else [(f.dst, 1)]) [] none fun s b _ _ =>
    if !b.actsUniform h then s.laneNext
    else
      match penNumber b f with
      | none => s.laneFault .pennantArg b.live
      | some p =>
        match s.penHome b.slot p with
        | .error k => s.laneFault k b.live
        | .ok (hm, a, fwd) =>
          let ge := f.imm.getLsbD 19
          s.addPen fun id =>
            { id := id, who := .band s.laneId.1 s.laneId.2, acquire := true, ge := ge, home := hm, addr := a, forward := fwd
              target := if ge then (b.breg (bNum f.dst)).truncate 30 else 0, vop := 0, val := 0, scope := bf f.imm.toNat 16 3
              dst := f.dst, accs := b.openAtoms, copies := [], waiting := false, remote := none, pkt := none })

/-- The accesses of a band that a release of a pennant covers (R301, R308): its plain writes, and its posted `RED`s to peers, to tensors bound to
it; at fabric scope also every posted remote write. -/
def Band.covered (b : Band) (key : Option Nat) (scope : Nat) : List Nat :=
  (b.acc.filter fun a => !a.tile && a.pieces.any fun p => !p.performed
    && (((a.kind = .store || (a.kind = .red && p.loc.far.isSome)) && key.isSome && p.pen = key)
      || (scope = 4 && p.loc.far.isSome && (a.kind = .store || a.kind = .red)))).map fun a => a.id

/-- The entries of the masked channels that write a tensor bound to a pennant (R301). -/
def State.coveredCopies (s : State) (c x mask : Nat) (key : Option Nat) : List Nat :=
  (bitsOf mask 4).flatMap fun ch => (((s.core c).chan ch).filter fun m =>
    let t := if m.op = .push then tensorOf m.base else cdTensor m.desc
    (m.op = .cout || m.op = .push) && match s.tlr (some c) x t with
      | .ok r => key.isSome && s.penKey x (tf r 32 16) = key
      | .error _ => false).map fun m => m.id

/-- PREL. -/
def execLanePrel (h : LHdr) (f : IForm) (s : State) : Host.Outcome State Fault Refusal :=
  .next (s.laneGo h [] [] none fun s b _ _ =>
    if !b.actsUniform h then s.laneNext
    else
      match penNumber b f with
      | none => s.laneFault .pennantArg b.live
      | some p =>
        match s.penHome b.slot p with
        | .error k => s.laneFault k b.live
        | .ok (hm, a, fwd) =>
          let key := s.penKey b.slot p
          let scope := bf f.imm.toNat 16 3
          let vop := f.imm.extractLsb' 23 2
          s.addPen fun id =>
            { id := id, who := .band s.laneId.1 s.laneId.2, acquire := false, ge := false, home := hm, addr := a, forward := fwd
              target := 0, vop := vop, val := if vop = 0 then 0 else (b.breg (bNum f.dst)).truncate 32, scope := scope, dst := 0
              accs := b.covered key scope ++ b.openAtoms ++ b.openLoads
              copies := s.coveredCopies s.laneId.1 b.slot (bf f.imm.toNat 19 4) key
              waiting := false, remote := none, pkt := none })

/-- Answers a request of another device: the RESP is kept until it is acknowledged (R372). -/
def State.respond (s : State) (dst seq : Nat) (payload : List Byte) : State :=
  let p : Packet := { Packet.zero with op := 0x06, dst := dst, src := s.devid, roff := BitVec.ofNat 64 seq, payload := payload
                                       len := payload.length - 1 }
  (s.onPeer dst fun q => { q with resps := aput q.resps seq p }).emit p

/-- Logs a packet that another device gave a context (R376). -/
def State.logPacket (s : State) (x : Nat) (p : Packet) : State := s.log x 4 p.bytes
/-- The context slot that a packet's key names (R378). -/
def Packet.owner (p : Packet) : Nat := 16 * bf p.key.toNat 28 4 + bf p.key.toNat 24 4
/-- The region record that a key names, or the NACK code (1 KEY_REVOKED, 2 REMOTE_REFUSED). A region admits requests from the cycle in which
its key lands (R379). -/
def State.regionOf (s : State) (p : Packet) : Except Nat (BitVec 256) :=
  let x := p.owner
  let i := bf p.key.toNat 12 12
  let r := s.region x i
  let check := bf r.toNat 0 12
  if !baseSet (s.ctx x).keys || !s.regionInside x i || check = 0 || s.cycle < (aget (s.ctx x).keyFrom i).getD 0 then .error 2
  else if !r.getLsbD 63 || check ≠ bf p.key.toNat 0 12 then .error 1
  else if !r.getLsbD 47 && bf r.toNat 48 12 ≠ p.src then .error 2
  else .ok r
/-- Refuses a request of another device: `OPX` 1 KEY_REVOKED, 2 REMOTE_REFUSED (R369). -/
def State.nack (s : State) (dst seq code : Nat) : State :=
  s.emit { Packet.zero with op := 0x08, dst := dst, roff := BitVec.ofNat 64 seq, opx := BitVec.ofNat 16 code }

/-- Forgets a pennant operation. -/
def State.dropPen (s : State) (id : Nat) : State := { s with pens := s.pens.filter fun o => o.id ≠ id }

/-- A pennant operation is answered with the word that it read. Another device's is logged when it is performed (R376). -/
def State.penDone (s : State) (o : PenOp) (w : Word) : State :=
  let s := s.dropPen o.id
  match o.who with
  | .band c n => s.bandNext c n fun b =>
      if !o.acquire || o.dst = 0 then b
      else if isB o.dst then b.setB (bNum o.dst) w
      else (strands b.live).foldl (fun (b : Band) st => b.setV o.dst.toNat st w) b
  | .packet src seq =>
    let s := match o.pkt with
      | some p => if w.getLsbD 63 then s.logPacket p.owner p else s
      | none => s
    s.respond src seq (bytesOfNat 8 w.toNat)
  | .coll c q id => s.onCore c fun k => k.onSendQ q fun l => updWhere (fun (m : LqCmd) => m.id = id) (fun m => { m with done := true }) l

/-- A pennant operation fails: a band fault with the LIVE mask, a refusal (for a word with `V` = 0 the word itself, from which the asking device
sees PENNANT_FREE; R297, R369), or a failed collective entry. -/
def State.penFail (s : State) (o : PenOp) (k : FKind) : State :=
  let s := s.dropPen o.id
  match o.who with
  | .band c n => (s.onBand c n fun b => { b with wait := .none }).bandFault c n k (((s.band c n).map fun b => b.live).getD 0)
  | .packet src seq => if k = .pennantFree then s.respond src seq (bytesOfNat 8 0) else s.nack src seq (if k = .keyRevoked then 1 else 2)
  | .coll c q id => s.onCore c fun k => k.onSendQ q fun l =>
      updWhere (fun (m : LqCmd) => m.id = id) (fun m => { m with done := true, failed := true }) l

/-- Whether a `PACQ.GE` condition holds of a word. -/
def penHolds (target : BitVec 30) (w : Word) : Bool := decide ((w.extractLsb' 32 30 - target).toNat < 2 ^ 29)

/-- The key under which another device asked for an operation: revoked, or still admitting it (R380). -/
def State.penRevoked (s : State) (o : PenOp) : Bool :=
  match o.pkt with
  | some p => match s.regionOf p with
    | .error 1 => true
    | _ => false
  | none => false

/-- The waiter scan after a release (R298): waiters whose condition holds are answered. -/
def State.scanWaiters (s : State) (h a : Nat) : State :=
  let w := BitVec.ofNat 64 (s.homeNat h a 8)
  (s.pens.filter fun o => o.waiting && s.penLives o && !s.penRevoked o && o.forward.isNone && o.home = h && o.addr = a && penHolds o.target w).foldl
    (fun s o => s.penDone o w) s

/-- The word that a `PREL` leaves (R311). -/
def prelWord (w : Word) (vop : BitVec 2) (v : BitVec 32) : Word :=
  let old := w.truncate 32
  let val : BitVec 32 := match vop.toNat with | 0 => old | 1 => old + v | 2 => old ||| v | _ => v
  (0b10#2 ++ (w.extractLsb' 32 30 + 1#30) ++ val).setWidth 64

/-- The request that a forwarded pennant operation carries (log entry 6): acquire, GE, VOP, scope, target; value. -/
def penPayload (o : PenOp) : List Byte :=
  bytesOfNat 8 (b2n o.acquire ||| b2n o.ge <<< 1 ||| o.vop.toNat <<< 2 ||| o.scope <<< 4 ||| o.target.toNat <<< 32) ++ bytesOfNat 8 o.val.toNat

/-- Sends a forwarded operation to the device that holds the home word (R297). -/
def State.sendPen (s : State) (o : PenOp) (w : Word) : State :=
  let x := match o.who with
    | .band c n => ((s.band c n).map Band.slot).getD 0
    | .coll c _ _ => (s.core c).unitCtx
    | .packet _ _ => 0
  let (id, s) := s.newId
  let s := { s with
    remote := aput s.remote id (RReq.mk id (.pennant o.id) false (x / 16) (x % 16) true 0 8 RStat.waiting 0 0)
    pens := updWhere (fun p => p.id = o.id) (fun p => { p with forward := some w, remote := some id }) s.pens }
  s.sendFor x { Packet.zero with op := 0x05, dst := bf w.toNat 50 12, key := w.truncate 32, roff := BitVec.ofNat 64 (bf w.toNat 32 16)
                                 payload := penPayload o, len := 15 } (some id)

/-- Whether the accesses and copies that an operation waits for are performed. -/
def State.penReady (s : State) (o : PenOp) : Bool :=
  match o.who with
  | .band c n =>
    let k := s.core c
    !(((aget k.bands n).map fun b => b.acc.any fun a => o.accs.contains a.id).getD false)
    && !(k.chans.toList.any fun q => q.any fun m => o.copies.contains m.id)
  | _ => true

/-- An operation reaches the home atomic unit of a local word (R298, R310, R311): performed, failed, or recorded as a waiter. -/
def State.performPen (s : State) (o : PenOp) : State :=
  let w := BitVec.ofNat 64 (s.homeNat o.home o.addr 8)
  if s.penRevoked o then s.penFail o .keyRevoked
  else if !w.getLsbD 63 then s.penFail o .pennantFree
  else if w.getLsbD 62 then
    match o.who with
    | .packet _ _ => s.penFail o .remoteRefused
    | _ => s.sendPen o w
  else if o.acquire then
    if !o.ge || penHolds o.target w then s.penDone o w
    else if (s.pens.filter fun p => p.waiting && s.penLives p && p.home = o.home).length < 512 then
      { s with pens := updWhere (fun p => p.id = o.id) (fun p => { p with waiting := true }) s.pens }
    else s
  else
    let s := s.homeWrite o.home o.addr (bytesOfNat 8 (prelWord w o.vop o.val).toNat)
    (s.penDone o w).scanWaiters o.home o.addr

/-- PENNANT_OPERATION_PERFORM: the operation `n` is performed at its home atomic unit, recorded as a waiter, or sent to the device
that holds the word; one whose band is gone is withdrawn, and one under a revoked key is refused, a waiter too (R380). -/
def evPennantOperationPerform (s : State) : State :=
  match s.pens.find? fun o => o.id = s.req.n with
  | none => s
  | some o =>
    if !s.penLives o then s.dropPen o.id
    else if o.forward.isNone && s.penRevoked o then s.penFail o .keyRevoked
    else if o.waiting || !s.penReady o then s
    else
      match o.forward, o.remote with
      | some w, none => s.sendPen o w
      | some _, some id =>
        match s.reqStat id with
        | .waiting => s
        | .answered bs =>
          let w := BitVec.ofNat 64 (natOfBytes bs)
          if w.getLsbD 63 then (s.dropReq id).penDone o w else (s.dropReq id).penFail o .pennantFree
        | .refused k => (s.dropReq id).penFail o k
      | none, _ => s.performPen o

/-! ### FENCE and QFENCE (R312, R313) -/

/-- FENCE: the first issue notes what it waits for, the band's pending loads included (R303); it completes when all of that is performed. -/
def execLaneFence (h : LHdr) (f : IForm) (s : State) : Host.Outcome State Fault Refusal :=
  .next (s.laneGo h [] [] none fun s b _ _ =>
    let k := s.core s.laneId.1
    if !b.actsUniform h then s.laneNext
    else
      let snap : List Nat × List Nat := match b.wait with
        | .fence accs copies => (accs, copies)
        | _ => ((b.acc.filter fun (a : Access) => !a.tile).map fun (a : Access) => a.id,
                (bitsOf (bf f.imm.toNat 19 4) 4).flatMap fun ch => (k.chan ch).map fun (m : CopyCmd) => m.id)
      if (b.acc.any fun (a : Access) => snap.1.contains a.id) ||
          k.chans.toList.any fun q => q.any fun (m : CopyCmd) => snap.2.contains m.id then
        s.laneHold (.fence snap.1 snap.2)
      else (s.onLane fun b => { b with wait := .none }).laneNext)

/-- QFENCE. -/
def execLaneQfence (h : LHdr) (f : IForm) (s : State) : Host.Outcome State Fault Refusal :=
  .next (s.laneGo h [] [] none fun s b _ _ =>
    let (c, n) := s.laneId
    if !b.actsUniform h then s.laneNext
    else if !(s.core c).fenceRoom f.imm.toNat then s.laneWait
    else
      let (id, s) := s.newId
      ((s.onCore c fun k => k.putFence f.imm.toNat id (.band c n)).freeFences c).laneNext)

/-! ### The barrier tree (R314 to R318) -/

/-- A node by level (0 leaf 64·core + leaf, 1 die root 16·die + r, 2 chip root r). -/
def State.node (s : State) (level n : Nat) : BarNode :=
  match level with
  | 0 => (s.core (n / 64)).leaf (n % 64)
  | 1 => (aget s.dieRoots n).getD BarNode.idle
  | _ => (aget s.chipRoots n).getD BarNode.idle
/-- Changes a node. -/
def State.setNode (s : State) (level n : Nat) (x : BarNode) : State :=
  match level with
  | 0 => s.onCore (n / 64) fun k => { k with leaves := aput k.leaves (n % 64) x }
  | 1 => { s with dieRoots := aput s.dieRoots n x }
  | _ => { s with chipRoots := aput s.chipRoots n x }

/-- The count that a node of a level waits for. -/
def BarOps.count (o : BarOps) (level : Nat) : Nat :=
  match level with | 0 => o.lcnt.toNat + 1 | 1 => o.dcnt.toNat + 1 | _ => o.ccnt.toNat + 1
/-- Whether two arrivals carry the same operands for a node of a level and its path upward. -/
def BarOps.agree (o p : BarOps) (level : Nat) : Bool :=
  o.lvl = p.lvl && o.rid = p.rid && o.ccnt = p.ccnt && o.f = p.f && (level = 2 || o.dcnt = p.dcnt) && (level ≠ 0 || o.lcnt = p.lcnt)

/-- The message with which a completed node arrives at the one above. -/
def upMsg (level n : Nat) (a : Arrival) : BarMsg :=
  if level = 0 then ⟨1, 16 * (n / 1024) + a.ops.rid.toNat, { a with src := n }⟩ else ⟨2, a.ops.rid.toNat, { a with src := n }⟩

/-- An arrival at a node (R315, R316); `false` when it is refused. -/
def State.arrive (s : State) (level n : Nat) (a : Arrival) : Bool × State :=
  let x := s.node level n
  let full (x : BarNode) : State :=
    if a.ops.lvl.toNat = level then
      { s.setNode level n { x with st := .flipping } with barFlips := s.barFlips ++ [⟨level, n⟩] }
    else { s.setNode level n { x with st := .armed } with barMsgs := s.barMsgs ++ [upMsg level n a] }
  match x.st with
  | .idle =>
    let x := { x with latched := some a, came := [a.src] }
    (true, if a.ops.count level = 1 then full x else s.setNode level n { x with st := .collecting })
  | .collecting =>
    match x.latched with
    | some l =>
      if l.ctx ≠ a.ctx || !l.ops.agree a.ops level then (false, s)
      else
        let x := { x with came := x.came ++ [a.src] }
        (true, if x.came.length = a.ops.count level then full x else s.setNode level n x)
    | none => (false, s)
  | .armed | .flipping => (true, s.setNode level n { x with held := x.held ++ [a] })

/-- BAR_MISMATCH in a band that waits at a barrier. -/
def State.barMismatch (s : State) (c n : Nat) : State :=
  match s.band c n with
  | some b => (s.onBand c n fun b => { b with wait := .none }).bandFault c n .barMismatch b.live
  | none => s

/-- The operands of a BAR. -/
def barOps (i : BitVec 28) : BarOps :=
  ⟨i.extractLsb' 0 6, i.extractLsb' 6 7, i.extractLsb' 14 2, i.extractLsb' 16 4, i.extractLsb' 20 4, i.extractLsb' 24 2, i.getLsbD 26⟩

/-- BAR: the band arrives once its earlier strong accesses and loads (R303), and with `F` its earlier writes, are performed, and waits for the
phase. -/
def execLaneBar (h : LHdr) (f : IForm) (s : State) : Host.Outcome State Fault Refusal :=
  .next (s.laneGo h [] [] none fun s b _ _ =>
    let (c, n) := s.laneId
    let o := barOps f.imm
    if !b.actsUniform h then s.laneNext
    else if 1 ≤ o.lvl.toNat && !(s.partOf b.slot).roots.getLsbD o.rid.toNat then s.laneFault .barArg b.live
    else if (~~~b.dead &&& ~~~b.exited &&& ~~~b.live) ≠ 0 then s.laneFault .barDiverge b.live
    else if b.acc.any fun a => !a.tile && (a.kind ≠ .store || o.f) then s.laneWait
    else
      match s.arrive 0 (64 * c + o.leaf.toNat) ⟨b.slot, o, n⟩ with
      | (false, s) => s.laneFault .barMismatch b.live
      | (true, s) => (s.laneHold (.bar o.leaf.toNat)).updateHeld b.slot)

/-- A node whose phase has ended goes IDLE; held arrivals are taken for the next phase in order, and `refuse` says what becomes of the source
of a refused one (R315). -/
def State.reopenWith (s : State) (level n : Nat) (toggle : Bool) (refuse : State → Nat → State) : State :=
  let x := s.node level n
  let s := s.setNode level n { x with st := .idle, ph := x.ph != toggle, pf := false, latched := none, came := [], held := [] }
  x.held.foldl (fun (s : State) a =>
    match s.arrive level n a with
    | (true, s) => s
    | (false, s) => refuse s a.src) s
/-- A leaf goes IDLE. -/
def State.reopenLeaf (s : State) (n : Nat) (toggle : Bool) : State :=
  s.reopenWith 0 n toggle fun s b => s.barMismatch (n / 64) b

/-- A leaf's phase is abandoned: its bands take BAR_MISMATCH. -/
def State.abandonLeaf (s : State) (n : Nat) : State :=
  let x := s.node 0 n
  if x.st ≠ .armed then s else (x.came.foldl (fun s b => s.barMismatch (n / 64) b) s).reopenLeaf n false
/-- A die root goes IDLE; the leaf of a refused held arrival is abandoned. -/
def State.reopenDie (s : State) (n : Nat) (toggle : Bool) : State := s.reopenWith 1 n toggle State.abandonLeaf

/-- A completed child whose arrival is refused returns to IDLE with the nodes and bands below it (R315). -/
def State.refuseChild (s : State) (level n : Nat) : State :=
  if level = 0 then s.abandonLeaf n
  else
    let x := s.node 1 n
    (x.came.foldl State.abandonLeaf s).reopenDie n false

/-- A node of any level goes IDLE. -/
def State.reopen (s : State) (level n : Nat) (toggle : Bool) : State :=
  match level with
  | 0 => s.reopenLeaf n toggle
  | 1 => s.reopenDie n toggle
  | _ => s.reopenWith 2 n toggle fun s child => s.refuseChild 1 child

/-- The source of a barrier message: the core of a leaf, or a die. -/
def BarMsg.from' (m : BarMsg) : Nat × Nat × Nat := (m.level, m.arrival.src / 64 * b2n (m.level = 1) + m.arrival.src / 16 * b2n (m.level ≠ 1), m.node)

/-- BARRIER_ARRIVAL: the message `n` reaches its node (a leaf, for an arrival that a leaf held when its context ended). Messages from one source to one root arrive in the order in which they were sent
(R15). -/
def evBarrierArrival (s : State) : State :=
  match s.barMsgs[s.req.n]? with
  | none => s
  | some m =>
    if (s.barMsgs.take s.req.n).any fun q => q.from' = m.from' then s else
    let s := { s with barMsgs := s.barMsgs.eraseIdx s.req.n }
    match s.arrive m.level m.node m.arrival with
    | (true, s) => s
    | (false, s) => if m.level = 0 then s.barMismatch (m.node / 64) m.arrival.src else s.refuseChild (m.level - 1) m.arrival.src

/-- A flip reaches a leaf from above: held for the image when the context is not on the core (R318). -/
def State.flipLeaf (s : State) (x n : Nat) : State :=
  let c := n / 64
  let k := s.core c
  if k.runs x || k.hasBands x then
    let l := k.leaf (n % 64)
    { s.setNode 0 n { l with st := .flipping } with barFlips := s.barFlips ++ [⟨0, n⟩] }
  else { s with heldFlips := s.heldFlips ++ [⟨x, logical (s.ctx x).cores c, n % 64⟩] }

/-- A band that waits at a leaf goes on with the flip; one that is in a save image (1000 + its slot there) goes on there, in its record too. -/
def State.flipBand (s : State) (c leaf x b : Nat) : State :=
  if b < 1000 then
    match (s.band c b).map fun (y : Band) => y.wait with
    | some (BWait.bar l) => if l = leaf then s.bandNext c b id else s
    | _ => s
  else
    let j := logical (s.ctx x).cores c
    match (aget (s.ctx x).images j).bind fun im => aget im.bands (b - 1000) with
    | some y =>
      if y.wait ≠ .bar leaf then s
      else
        let (h, base) := (s.ctx x).imageBase c
        let y := { y with pc := y.pc + 8, wait := .none, st := if y.st = .waiting || y.st = .held then .ready else y.st, readySince := s.cycle }
        (s.onCtx x fun q => { q with images := amod q.images j fun im => { im with bands := aput im.bands (b - 1000) y } }).putRecord h base (b - 1000, y)
    | none => s

/-- BARRIER_FLIP: the broadcast `n` is delivered below its node, which goes IDLE with its phase toggled; bands at a leaf go READY. -/
def evBarrierFlip (s : State) : State :=
  match s.barFlips[s.req.n]? with
  | none => s
  | some f =>
    if (s.barFlips.take s.req.n).any fun g => g = f then s else
    let s := { s with barFlips := s.barFlips.eraseIdx s.req.n }
    let x := s.node f.level f.node
    let ctx := (x.latched.map fun a => a.ctx).getD 0
    if x.st ≠ .flipping then s
    else
      let s := match f.level with
        | 0 => x.came.foldl (fun (s : State) (b : Nat) => s.flipBand (f.node / 64) (f.node % 64) ctx b) s
        | 1 => x.came.foldl (fun (s : State) (n : Nat) => s.flipLeaf ctx n) s
        | _ => x.came.foldl (fun (s : State) (n : Nat) =>
            { s.setNode 1 n { s.node 1 n with st := .flipping } with barFlips := s.barFlips ++ [BarFlip.mk 1 n] }) s
      (s.reopen f.level f.node true).updateHeld ctx

/-- The flips on their way to leaves of a context on a core. -/
def State.leafFlips (s : State) (c x : Nat) : List BarFlip :=
  s.barFlips.filter fun f => f.level = 0 && f.node / 64 = c && (s.node 0 f.node).ofCtx x
/-- Flips of leaves of a core that has been saved are held for its image (R318). -/
def State.holdFlips (s : State) (c x : Nat) (mine : List BarFlip) : State :=
  { s with
    barFlips := s.barFlips.filter fun f => !mine.contains f
    heldFlips := s.heldFlips ++ mine.map fun f => HeldFlip.mk x (logical (s.ctx x).cores c) (f.node % 64) }

/-- Flips held for an image reach its leaves when they are restored on a core (R318, R319). -/
def State.deliverFlips (s : State) (c x : Nat) : State :=
  let j := logical (s.ctx x).cores c
  let due := s.dueFlips x j
  let s := { s with heldFlips := s.heldFlips.filter fun f => !(f.ctx = x && f.image = j) }
  due.foldl (fun (s : State) l =>
    let n := 64 * c + l
    { s.setNode 0 n { s.node 0 n with st := .flipping, pf := true } with barFlips := s.barFlips ++ [BarFlip.mk 0 n] }) s

/-! ### The steps -/

/-- BARRIER_ARRIVAL. -/
def execBarrierArrival (s : State) : Host.Outcome State Fault Refusal := .next (evBarrierArrival s)
/-- BARRIER_FLIP. -/
def execBarrierFlip (s : State) : Host.Outcome State Fault Refusal := .next (evBarrierFlip s)

end Sys2Proof.Machine
end

