-- ==== Sys2Proof/Machine/Ports.lean ====
section
/-!
DEFINITION. Drila ports, the fabric parameters, end-to-end timers and the requests that a lost port takes with it (R363 to R367,
R370, R374, R375).
-/

namespace Sys2Proof.Machine

/-! ### LINK_FAILED and refusals at the link's own requesters (R375, R382, R384) -/

/-- A link send-queue entry. -/
def Core.lqEntry (k : Core) (q id : Nat) : Option LqCmd := (k.sendQ q).find? fun m => m.id = id
/-- Changes a link send-queue entry. -/
def Core.onLq (k : Core) (q id : Nat) (f : LqCmd → LqCmd) : Core := k.onSendQ q fun l => updWhere (fun m => m.id = id) f l

/-- A link send-queue entry fails: the record on its core, its tile released, the entry complete as failed (R382, R387). -/
def State.failLq (s : State) (c q : Nat) (m : LqCmd) (k : FKind) (vaddr pte : Word := 0) : State :=
  let co := s.core c
  let s := s.takeFault co.unitCtx (s.seqRecord c k 0 vaddr pte) (.link c q) 1 co.seqCls
  s.onCore c fun co =>
    let co := if m.op = .tsend && !m.pulled then co.dropCopy m.treg.toNat else co
    co.onLq q m.id fun m => { m with done := true, failed := true }

/-- The kind that a refused TNOTE gives its TSEND: a refusal other than a revoked key means a receive queue of another channel
(R381). -/
def noteKind (k : FKind) : FKind := if k = .remoteRefused then .linkQueue else k

/-- A message that a receive queue is pulling is lost (R384): the tile goes ALLOC with a record, or the owning band stops. -/
def State.failPull (s : State) (c q id : Nat) (kind : FKind) : State :=
  let r := (s.core c).recvQ q
  match r.pulls.find? fun p => p.id = id with
  | none => s
  | some p =>
    let s := s.onCore c fun k => k.onRecvQ q fun r => { r with pulls := r.pulls.filter fun p => p.id ≠ id }
    match r.owner with
    | .band n => s.bandFault c n kind (((s.band c n).map fun b => b.live).getD 0)
    | _ =>
      let co := s.core c
      let s := s.takeFault co.unitCtx (s.seqRecord c kind 0 0 0) (.seq c) 1 co.seqCls
      s.onCore c fun k => (k.toState p.treg.toNat .alloc).dropRange (.recv id)

/-- LINK_FAILED for a fragment of a message to a core of this device: the receiver loses the message too (R384). -/
def State.losePulled (s : State) (c : Nat) (m : LqCmd) : State :=
  let w := m.dest.toNat
  let d := bf w 12 6
  let q := bf w 18 4
  let r := (s.core d).recvQ q
  if bf w 0 12 ≠ s.devid || r.chan ≠ some (s.devid, c) then s
  else
    match r.pulls.find? fun p => p.msg = m.msg % 2 ^ 24 with
    | none => s
    | some p => s.failPull d q p.id .linkFailed

/-- Settles the entries of a send queue whose packets have been answered: refused ones fail, a message whose last fragment is
acknowledged completes, completed entries leave in order (R381, R384). -/
def State.settleLq (s : State) (c q : Nat) : State :=
  let s := ((s.core c).sendQ q).foldl (fun (s : State) m =>
    if !m.started || m.done || m.op = .fence then s
    else
      match s.someRefused m.remote with
      | some k =>
        let s := s.failLq c q m (if m.op = .tsend && !m.pulled then noteKind k else k)
        if m.op = .tsend && m.pulled then s.losePulled c m else s
      | none =>
        if m.op = .tsend && m.pulled && !(m.remote.any s.reqOpen) then s.onCore c fun k => k.onLq q m.id fun m => { m with done := true }
        else s) s
  let gone := ((s.core c).sendQ q).takeWhile fun m => m.done
  if gone.isEmpty then s
  else
    let s := (s.onCore c fun k => k.onSendQ q fun l => l.drop gone.length).freeFences c
    gone.foldl (fun s m => m.remote.foldl State.dropReq s) s

/-- Settles the receive queues whose pull was refused or lost (R384). -/
def State.settleRecv (s : State) (c : Nat) : State :=
  s.remote.foldl (fun (s : State) e =>
    match e.2.who, e.2.stat with
    | .recv c' q id, .refused k =>
      if c' ≠ c then s
      else
        (s.dropReq e.1).failPull c q id (if k = .linkFailed then FKind.linkFailed else .linkTileLost)
    | .recv c' _ _, .answered _ => if c' ≠ c then s else s.dropReq e.1
    | _, _ => s) s

/-- Settles every core's link queues. -/
def State.settleLinks (s : State) : State :=
  (List.range 64).foldl (fun (s : State) c =>
    if (s.core c).lq.toList.all (fun l => l.isEmpty) && (s.core c).rq.isEmpty then s
    else ((List.range 4).foldl (fun s q => s.settleLq c q) s).settleRecv c) s

/-- LINK_FAILED for the packets of a peer that satisfy a test (R375). -/
def State.failUnacked (s : State) (d : Nat) (p : Unacked → Bool) : State :=
  let out := (s.peer d).unacked.filter p
  let s := s.onPeer d fun q => { q with unacked := q.unacked.filter fun u => !p u }
  out.foldl (fun s u => match u.req with
    | some id => s.refuseReq id .linkFailed
    | none => s) s

/-! ### Ports (R364, R366) -/

/-- Changes a port; FPORT of HEALTH follows (R417), and `replace` sets REPLACE. -/
def State.onPort (s : State) (p : Nat) (replace : Bool) (f : Port → Port) : State :=
  let s := s.setPort p (f (s.port p))
  let bad := maskOf ((List.range 16).filter fun i => (s.port i).st = .failed || (s.port i).width = 4)
  let h := s.health.toNat % 2 ^ 112 ||| bad <<< 112 ||| (if replace then 1 <<< 64 else 0)
  s.setHealth (BitVec.ofNat 128 h)

/-- A port goes DOWN or FAILED: its replay buffer is dropped, the packets that it has not sent go to other ports (R366; of a FAILED port, log
entry 118), and the unacknowledged requests last sent on it take LINK_FAILED (R375). -/
def State.losePort (s : State) (p : Nat) (st : PortSt) : State :=
  let left := (s.port p).queue
  let s := s.onPort p (st = .failed) fun q => { q with st := st, width := 0, queue := [], replay := [], txSeq := 0, rxSeq := 0, rx := [] }
  let s := left.foldl State.toPort s
  (s.peers.foldl (fun (s : State) e => s.failUnacked e.1 fun u => u.port = some p) s).settleLinks

/-- A port comes UP: the packets that found no UP port take one, in their order (R367). -/
def State.sendWaiting (s : State) : State := s.unsent.foldl State.toPort { s with unsent := [] }
/-- A port's replay buffer is sent again, from the first flit that is not acknowledged (R366, R373). -/
def Port.resend (q : Port) : Port := { q with wire := q.wire ++ q.replay }

/-! ### Flits (R363, R366 to R368, R373) -/

/-- The place in a port's queue of the packet that leaves next: the partitions that have packets waiting take turns (R367). -/
def Port.nextPacket (q : Port) : Option Nat :=
  (List.range 16).findSome? fun d => q.queue.findIdx? fun p => p.part.toNat = (q.lastPart + 1 + d) % 16

/-- The flits of blocks, numbered from a link sequence number modulo 2^12. -/
def flitsFrom (n : Nat) : List (List Byte) → List Flit
  | [] => []
  | b :: t => ⟨n % 4096, flitCrc (n % 4096) b, b⟩ :: flitsFrom (n + 1) t

/-- An UP port sends its next packet: its flits leave and stay in the replay buffer, which holds 4,096 (R366, R367). -/
def State.portSend (s : State) (i : Nat) : State :=
  let q := s.port i
  match q.nextPacket.bind fun k => (q.queue[k]?).map fun p => (k, p) with
  | none => s
  | some (k, p) =>
    let out := flitsFrom q.txSeq p.blocks
    if q.st ≠ .up || 4096 < q.replay.length + out.length then s
    else
      let s := s.setPort i { q with
        queue := q.queue.eraseIdx k, lastPart := p.part.toNat, txSeq := (q.txSeq + out.length) % 4096
        replay := q.replay ++ out, wire := q.wire ++ out }
      if p.seq = 0 then s
      else s.onPeer p.dst fun r => { r with
        unacked := updWhere (fun (u : Unacked) => u.pkt.seq = p.seq) (fun u => { u with port := some i }) r.unacked }

/-- The other side of a link acknowledges a port's flits up to a number. -/
def State.flitAck (s : State) (i seq : Nat) : State :=
  let q := s.port i
  match q.replay.findIdx? fun f => f.seq = seq with
  | some k => s.setPort i { q with replay := q.replay.drop (k + 1) }
  | none => s

/-- The packet whose header has come, and whether all of it has (R368, R369). -/
def arriving (bs : List Byte) : Option (Packet × Bool) :=
  if bs.length < 64 then none
  else
    let p := Packet.ofBytes (bs.take 32)
    let n := p.payloadLen
    let data := (bs.drop 64).take n
    let crc := crc32c (List.replicate 4 0 ++ (bs.drop 4).take 28 ++ data)
    some ({ p with payload := data, good := crc == natOfBytes (bs.take 4) }, 64 * flitCount n ≤ bs.length)

/-- The event of a packet's arrival. -/
def Packet.event (p : Packet) : Instr :=
  if !p.good then .packetDiscard
  else match p.op.toNat with
    | 0x01 => .packetWrite | 0x02 => .packetRead | 0x03 => .packetAtomic | 0x04 => .packetRed | 0x05 => .packetPennant
    | 0x06 => .packetResp | 0x07 => .packetAck | 0x08 => .packetNack | 0x10 => .packetTnote | 0x11 => .packetTpull
    | 0x12 => .packetTdata | 0x20 => .packetCdata | 0x21 => .packetCres
    | _ => .packetDiscard

/-- LPORT_ENABLE: `EN` is written 1 on port `n`. -/
def evLportEnable (s : State) : State :=
  s.ctl fun s =>
  let s := s.onPort s.req.n false fun q => { q with en := true, st := if q.st = .down then .training else q.st }
  s.answer .ok
/-- LPORT_DISABLE: `EN` is written 0 on port `n`. -/
def evLportDisable (s : State) : State :=
  s.ctl fun s =>
  ((s.losePort s.req.n .down).onPort s.req.n false fun q => { q with en := false }).answer .ok

/-- The register LPORT of a port. -/
def Port.word (q : Port) : Nat :=
  let st := match q.st with | .down => 0 | .training => 1 | .up => 2 | .replay => 3 | .recovering => 4 | .failed => 5
  st ||| q.width <<< 4 ||| b2n q.en <<< 8 ||| q.replays <<< 32 ||| q.crcerr <<< 48
/-- LPORT_READ_CLEAR: LPORT of port `n` is read, and its counters clear (R4). -/
def evLportReadClear (s : State) : State :=
  s.ctl fun s =>
  (s.answer .ok (bytesOfNat 8 (s.port s.req.n).word)).onPort s.req.n false fun q => { q with crcerr := 0, replays := 0 }

/-- LINK_TRAINING_END: training of port `n` ends with `value` locked lanes. -/
def evLinkTrainingEnd (s : State) : State :=
  let n := s.req.n
  if (s.port n).st ≠ .training then s
  else if s.req.value < 4 then s.losePort n .failed
  else
    let w := if 8 ≤ s.req.value then 8 else 4
    (s.onPort n (w = 4) fun q => { q with st := .up, width := w }).sendWaiting
/-- LINK_TRAINING_TIMEOUT: 100 ms without 4 locked lanes. -/
def evLinkTrainingTimeout (s : State) : State :=
  if (s.port s.req.n).st = .training then s.losePort s.req.n .failed else s
/-- LINK_FLIT_ERROR: a bad CRC or a gap on port `n`; `m` = 1 when this device's receiver saw a bad CRC, which counts in REPLAY too. -/
def evLinkFlitError (s : State) : State :=
  let st := (s.port s.req.n).st
  if st ≠ .up && st ≠ .replay then s
  else s.onPort s.req.n false fun q =>
    let q := if st = .up then q.resend else q
    { q with st := .replay, crcerr := min 0xFFFF (q.crcerr + (if s.req.m = 1 then 1 else 0)) }
/-- LINK_REPLAY_COMPLETE: every resent flit of port `n` is acknowledged. -/
def evLinkReplayComplete (s : State) : State :=
  if (s.port s.req.n).st ≠ .replay || !(s.port s.req.n).replay.isEmpty then s
  else (s.onPort s.req.n false fun q => { q with st := .up, replays := min 0xFFFF (q.replays + 1) }).sendWaiting
/-- LINK_REPLAY_TIMEOUT: 10 µs in REPLAY. -/
def evLinkReplayTimeout (s : State) : State :=
  if (s.port s.req.n).st = .replay then s.onPort s.req.n false fun q => { q with st := .recovering } else s
/-- LINK_LANE_LOCK_LOSS. -/
def evLinkLaneLockLoss (s : State) : State :=
  if (s.port s.req.n).st = .up then s.onPort s.req.n false fun q => { q with st := .recovering } else s
/-- LINK_RETRAIN_END: retraining of port `n` ends with `value` locked lanes; with fewer than 4 the port stays RECOVERING. -/
def evLinkRetrainEnd (s : State) : State :=
  if (s.port s.req.n).st ≠ .recovering || s.req.value < 4 then s
  else
    let w := if 8 ≤ s.req.value then 8 else 4
    (s.onPort s.req.n (w = 4) fun q => { q.resend with st := .up, width := w }).sendWaiting
/-- A flit comes in on a port (R373): one with a bad CRC or beyond the number expected is answered with a replay, one that has been accepted is
dropped; the next in order is accepted, and the packet that it completes arrives. -/
def State.flitIn (s : State) (i : Nat) (f : Flit) : State :=
  let q := s.port i
  let bad := fun (m : Nat) => evLinkFlitError { s with req := { Request.zero with n := i, m := m } }
  if q.st ≠ .up && q.st ≠ .replay then s
  else if f.crc ≠ flitCrc f.seq f.data then bad 1
  else if f.seq ≠ q.rxSeq then (if q.st = .replay || (q.rxSeq + 4096 - f.seq) % 4096 ≤ 2048 then s else bad 0)
  else
    let q := { q with rxSeq := (q.rxSeq + 1) % 4096, rx := q.rx ++ f.data }
    let s := match arriving q.rx with
      | some (p, _) => s.onPeer p.src fun r => { r with inPort := some i }
      | none => s
    match arriving q.rx with
    | some (p, true) =>
      let s := s.setPort i { q with rx := [] }
      { s with agenda := .event p.event { Request.zero with n := i, pkt := p } :: s.agenda }
    | _ => s.setPort i q
/-- LINK_RECOVERING_TIMEOUT: 100 ms in RECOVERING. -/
def evLinkRecoveringTimeout (s : State) : State :=
  if (s.port s.req.n).st = .recovering then s.losePort s.req.n .failed else s

/-! ### The fabric parameters (R365, R370) -/

/-- LFAB_WRITE: `value` is written to LFAB; reserved bits are discarded, and the counter is not written. -/
def evLfabWrite (s : State) : State :=
  s.ctl fun s =>
  let v := s.req.value
  let dev := bf v 16 12
  let e := bf v 0 10
  let down := (List.range 16).all fun i => (s.port i).st = .down
  if e < 10 || 1000 < e || (!down && dev ≠ s.devid) then s.answer .linkParam
  else { s with devid := dev, e2et := e }.answer .ok
/-- LFAB_READ_CLEAR: LFAB is read, and DUPCNT clears. -/
def evLfabReadClear (s : State) : State :=
  s.ctl fun s =>
  { s.answer .ok (bytesOfNat 8 (s.e2et ||| s.devid <<< 16 ||| s.dupcnt <<< 32)) with dupcnt := 0 }
/-- LPRESET_WRITE: the numbers of peer `value` are cleared; packets to and from it are discarded and their requesters take
LINK_FAILED. The id of this device and a nonzero reserved bit are refused (R409). -/
def evLpresetWrite (s : State) : State :=
  s.ctl fun s =>
  let d := s.req.value % 2 ^ 64
  if 4096 ≤ d || d == s.devid then s.answer .linkParam
  else
  let s := s.failUnacked d fun _ => true
  let s := (s.peer d).egress.foldl (fun (s : State) e => match e.2 with
    | some id => s.refuseReq id .linkFailed
    | none => s) s
  let s := s.remote.foldl (fun (s : State) (e : Nat × RReq) => if e.2.peer = d && e.2.seq ≠ 0 && !e.2.host then s.refuseReq e.1 .linkFailed else s) s
  let other (p : Packet) : Bool := p.dst != d
  let ports := s.ports.map fun (q : Port) => { q with queue := q.queue.filter other }
  let s := { s with peers := adel s.peers d, sent := s.sent.filter other, unsent := s.unsent.filter other, ports }
  s.settleLinks.answer .ok

/-! ### End-to-end timers (R374) -/

/-- E2E_TIMER_EXPIRY: packet `m` to peer `n` is sent again, on a port chosen afresh. -/
def evE2eTimerExpiry (s : State) : State :=
  match (s.peer s.req.n).unacked.find? fun u => u.pkt.seq = s.req.m with
  | none => s
  | some u =>
    if 8192 ≤ s.req.n then { s with sent := s.sent ++ [u.pkt] }
    else if s.upPort.isNone then s
    else { s with sent := s.sent ++ [u.pkt] }.toPort u.pkt
/-- E2E_LIMIT_EXPIRY: packet `m` to peer `n` has gone 100 ms without an acknowledgement. -/
def evE2eLimitExpiry (s : State) : State :=
  (s.failUnacked s.req.n fun u => u.pkt.seq = s.req.m).settleLinks

/-! ### The steps -/

/-- LPORT_ENABLE. -/
def execLportEnable (s : State) : Host.Outcome State Fault Refusal := .next (evLportEnable s)
/-- LPORT_DISABLE. -/
def execLportDisable (s : State) : Host.Outcome State Fault Refusal := .next (evLportDisable s)
/-- LPORT_READ_CLEAR. -/
def execLportReadClear (s : State) : Host.Outcome State Fault Refusal := .next (evLportReadClear s)
/-- LINK_TRAINING_END. -/
def execLinkTrainingEnd (s : State) : Host.Outcome State Fault Refusal := .next (evLinkTrainingEnd s)
/-- LINK_TRAINING_TIMEOUT. -/
def execLinkTrainingTimeout (s : State) : Host.Outcome State Fault Refusal := .next (evLinkTrainingTimeout s)
/-- LINK_FLIT_ERROR. -/
def execLinkFlitError (s : State) : Host.Outcome State Fault Refusal := .next (evLinkFlitError s)
/-- LINK_REPLAY_COMPLETE. -/
def execLinkReplayComplete (s : State) : Host.Outcome State Fault Refusal := .next (evLinkReplayComplete s)
/-- LINK_REPLAY_TIMEOUT. -/
def execLinkReplayTimeout (s : State) : Host.Outcome State Fault Refusal := .next (evLinkReplayTimeout s)
/-- LINK_LANE_LOCK_LOSS. -/
def execLinkLaneLockLoss (s : State) : Host.Outcome State Fault Refusal := .next (evLinkLaneLockLoss s)
/-- LINK_RETRAIN_END. -/
def execLinkRetrainEnd (s : State) : Host.Outcome State Fault Refusal := .next (evLinkRetrainEnd s)
/-- LINK_RECOVERING_TIMEOUT. -/
def execLinkRecoveringTimeout (s : State) : Host.Outcome State Fault Refusal := .next (evLinkRecoveringTimeout s)
/-- LFAB_WRITE. -/
def execLfabWrite (s : State) : Host.Outcome State Fault Refusal := .next (evLfabWrite s)
/-- LFAB_READ_CLEAR. -/
def execLfabReadClear (s : State) : Host.Outcome State Fault Refusal := .next (evLfabReadClear s)
/-- LPRESET_WRITE. -/
def execLpresetWrite (s : State) : Host.Outcome State Fault Refusal := .next (evLpresetWrite s)
/-- E2E_TIMER_EXPIRY. -/
def execE2eTimerExpiry (s : State) : Host.Outcome State Fault Refusal := .next (evE2eTimerExpiry s)
/-- E2E_LIMIT_EXPIRY. -/
def execE2eLimitExpiry (s : State) : Host.Outcome State Fault Refusal := .next (evE2eLimitExpiry s)

end Sys2Proof.Machine
end

