-- ==== Sys2Proof/Machine/Collect.lean ====
section
/-!
DEFINITION. Collectives: the fabric groups, an entry's start with its residual, the switch units' fixed tree of ranks, results as they
arrive, and completion (R386 to R391). The payloads of CDATA and CRES are log entry 6's: fragment 0 is a 16-byte header, fragment
f ≥ 1 holds bytes 256(f-1) to 256f-1.
-/

namespace Sys2Proof.Machine

/-! ### Descriptors (R387) and groups (R386) -/

/-- A field of a collective's descriptor. -/
def cl (d : BitVec 512) (lo n : Nat) : Nat := bf d.toNat lo n
/-- FMT. -/
def clFmt (d : BitVec 512) : Nat := cl d 160 5
/-- COUNT. -/
def clCount (d : BitVec 512) : Nat := cl d 128 32
/-- Bytes of a buffer. -/
def clBytes (d : BitVec 512) : Nat := clCount d * fmtWidth (clFmt d) / 8
/-- An entry of the group table. -/
def State.group (s : State) (g : Nat) : Word := (aget s.groups g).getD 0
/-- Fabric group id. -/
def grpFg (w : Word) : Nat := bf w.toNat 47 12
/-- Members. -/
def grpNm (w : Word) : Nat := bf w.toNat 35 12 + 1
/-- This device's rank. -/
def grpRank (w : Word) : Nat := bf w.toNat 23 12

/-- Kind, operation and residual of an entry (OPT). -/
def LqCmd.kind (m : LqCmd) : Nat := bf m.opt.toNat 0 2
/-- Operation. -/
def LqCmd.cop (m : LqCmd) : Nat := bf m.opt.toNat 2 3
/-- Whether the residual is carried. -/
def LqCmd.res (m : LqCmd) : Bool := m.opt.getLsbD 5

/-- The checks of a descriptor at issue (COLL_DESC). -/
def State.collOk (s : State) (part : Nat) (addr kind op : Nat) (res : Bool) (d : BitVec 512) : Bool :=
  let g := s.group (cl d 192 8)
  let f := clFmt d
  addr % 64 = 0 && addr ≤ 0xFFC0
  && cl d 384 128 = 0 && cl d 212 44 = 0 && cl d 165 27 = 0
  && (f = 0x06 || f = 0x09 || f = 0x0A || f = 0x0B || f = 0x0D)
  && 1 ≤ clCount d && clCount d ≤ 2 ^ 24
  && g.getLsbD 63 && bf g.toNat 59 4 = part
  && cl d 200 12 < grpNm g && (kind ≠ 1 || cl d 200 12 = 0)
  && (!res || f = 0x0B || f = 0x09) && !(res && op ≠ 0)

/-! ### Buffers -/

/-- A buffer as a run of elements inside one tensor of a format (COLL_DESC). -/
def State.collBuffer (s : State) (c x : Nat) (a : Word) (fmt count : Nat) : Option (BitVec 512) :=
  match s.tlr (some c) x (tensorOf a) with
  | .error _ => none
  | .ok r =>
    let w := fmtWidth fmt
    if tlrFmt r = fmt && offsetOf a % (w / 8) = 0 && offsetOf a + count * w / 8 ≤ tlrSpan r then some r else none

/-- The pieces of a run of bytes within pages: offset in the run, length, address, outcome. -/
def State.runParts (s : State) (c x : Nat) (r : BitVec 512) (k : AKind) (base a : Word) : Nat → Nat → List (Nat × Nat × Word × TOut)
  | 0, _ => []
  | fuel + 1, left =>
    if left = 0 then []
    else
      let n := min left (tlrPage r - offsetOf a % tlrPage r)
      (offsetOf a - offsetOf base, n, a, s.translate (some c) x r a n k)
        :: State.runParts s c x r k base (a + BitVec.ofNat 64 n) fuel (left - n)

/-- How the parts of a run come out as a whole: the first fault with its address and page entry, or whether a page is moving. -/
inductive RunOut where
  | fault (k : FKind) (va pte : Word)
  | hold
  | ok
deriving DecidableEq, Repr

/-- The outcome of a run. -/
def runOut (ps : List (Nat × Nat × Word × TOut)) : RunOut :=
  match ps.findSome? fun p => match p.2.2.2 with
      | .fault k pte => some (RunOut.fault k p.2.2.1 pte)
      | .poison pte => some (RunOut.fault .pagePoisoned p.2.2.1 pte)
      | _ => none with
  | some f => f
  | none => if ps.any fun p => match p.2.2.2 with | .hold => true | _ => false then .hold else .ok

/-- The remote runs of a run's parts, in pieces of at most 128 bytes within lines: offset in the run, place, length. -/
def farPieces (ps : List (Nat × Nat × Word × TOut)) : List (Nat × Loc × Nat) :=
  ps.flatMap fun p => match p.2.2.2 with
    | .ok l => match l.far with
      | some (h, d, k, a) =>
        let first := 128 - a % 128
        let n := p.2.1
        let cuts := (0, min first n) :: (List.range ((n - min first n + 127) / 128)).map fun i =>
          (first + 128 * i, min 128 (n - first - 128 * i))
        cuts.map fun q => (p.1 + q.1, farLoc (h, d, k) (a + q.1), q.2)
      | none => []
    | _ => []

/-- The bytes of a run: from its homes, and from answered requests for what lies elsewhere. -/
def State.runBytes (s : State) (ps : List (Nat × Nat × Word × TOut)) (ids : List Nat) : List Byte :=
  let far := (farPieces ps).zip ids
  ps.flatMap fun p => match p.2.2.2 with
    | .ok (.home h a) => s.homeBytes h a p.2.1
    | .ok _ => (far.filter fun f => p.1 ≤ f.1.1 && f.1.1 < p.1 + p.2.1).flatMap fun f => match s.reqStat f.2 with
        | .answered bs => bs.take f.1.2.2
        | _ => List.replicate f.1.2.2 0
    | _ => []

/-- Writes a run of bytes: at its homes at once, elsewhere by requests, whose numbers are answered. -/
def State.runWrite (s : State) (c q id x : Nat) (r : BitVec 512) (ps : List (Nat × Nat × Word × TOut)) (bs : List Byte) :
    List Nat × State :=
  let s := ps.foldl (fun (s : State) p => match p.2.2.2 with
    | .ok (.home h a) => (s.homeWrite h a ((bs.drop p.1).take p.2.1)).touch c x r p.2.2.1 .write
    | .ok _ => s.touch c x r p.2.2.1 .write
    | _ => s) s
  (farPieces ps).foldl (fun (acc : List Nat × State) f =>
    let (n, s) := acc.2.request (.lq c q id) x f.2.1 false f.2.2 ((bs.drop f.1).take f.2.2)
    (acc.1 ++ [n], s)) ([], s)

/-! ### Residuals (R390) -/

/-- The finite value of a code, as an exact number. -/
def finVal (v : Val) : Option (Int × Int) :=
  match v with
  | .zero _ => some (0, 0)
  | .fin _ _ _ => some v.dyad
  | _ => none

/-- A contribution with its residual: the code that is sent, the residual that stays, the flags of its rounding. -/
def residual (fmt : Fmt) (src res : Nat) : Nat × Nat × Flags :=
  let f : Ieee := fmt.ieee
  match finVal (valOf fmt src), finVal (ieee32.val res) with
  | some a, some b =>
    let c := dyadAdd a b
    let zneg := (valOf fmt src).isZero && (valOf fmt src).neg && (ieee32.val res).isZero && (ieee32.val res).neg
    let q : Res := if fmt = .t8 then roundT8 (c.1 < 0) ⟨c.1.natAbs, c.2, false⟩ else f.roundDyad .rne false zneg c
    match finVal (valOf fmt q.bits) with
    | some v => (q.bits, (ieee32.roundDyad .rne false false (dyadAdd c (-v.1, v.2))).bits, q.flags)
    | none => (q.bits, ieee32.inf (c.1 < 0) ^^^ 0x80000000, q.flags)
  | _, _ => (if fmt = .t8 then 0x80 else f.defNan, 0, fNF)

/-! ### COLL_ENTRY_START (R387, R388, R390) -/

/-- The elements of a buffer. -/
def elemsOf (w : Nat) (bs : List Byte) (n : Nat) : List Nat := (List.range n).map fun i => natOfBytes ((bs.drop (i * w / 8)).take (w / 8))

/-- The header of a contribution: kind, operation, residual, format, root, members less one, count. -/
def askBytes (m : LqCmd) (nm : Nat) : List Byte :=
  bytesOfNat 16 (m.kind ||| m.cop <<< 2 ||| b2n m.res <<< 5 ||| clFmt m.desc <<< 6 ||| cl m.desc 200 12 <<< 11 ||| (nm - 1) <<< 23
    ||| clCount m.desc <<< 64)

/-- The word of a CDATA or CRES packet: fabric group, ordinal, fragment. -/
def collWord (fg ord frag : Nat) : Word := BitVec.ofNat 64 (fg % 2 ^ 12 + ord % 2 ^ 20 * 2 ^ 12 + frag * 2 ^ 32)

/-- The fragments of a message with its header. -/
def fragments (head data : List Byte) : List (Nat × List Byte) :=
  (0, head) :: (List.range ((data.length + 255) / 256)).map fun i => (i + 1, (data.drop (256 * i)).take 256)

/-- The first entry of a send queue that has not started; none behind a fence. -/
def Core.lqNext (k : Core) (q : Nat) : Option LqCmd :=
  match (k.sendQ q).dropWhile fun m => m.started && m.op ≠ .fence with
  | m :: _ => if m.op = .fence then none else some m
  | [] => none

/-- Sends a collective's contributions. -/
def State.sendContribution (s : State) (c q x : Nat) (m : LqCmd) (g : Word) (data : List Byte) : State :=
  let (ids, s) := (fragments (askBytes m (grpNm g)) data).foldl (fun (acc : List Nat × State) f =>
    let (id, s) := acc.2.newId
    let s := { s with remote := aput s.remote id (RReq.mk id (.lq c q m.id) false (x / 16) (x % 16) false 0 0 RStat.waiting 0 0) }
    (acc.1 ++ [id], s.sendFor x { Packet.zero with
      op := 0x20, dst := 4096 + grpFg g, roff := collWord (grpFg g) m.ordinal f.1, opx := BitVec.ofNat 16 (grpRank g)
      payload := f.2, len := f.2.length - 1 } (some id))) ([], s)
  s.onCore c fun k => k.onLq q m.id fun m => { m with remote := m.remote ++ ids }

/-- A collective's page fault at its start: the record once; the entry is tried again. -/
def State.parkLq (s : State) (c q : Nat) (m : LqCmd) (k : FKind) (va pte : Word) : State :=
  if m.parked then s
  else
    let co := s.core c
    let s := s.takeFault co.unitCtx (s.seqRecord c k 0 va pte) (.link c q) 1 co.seqCls
    s.onCore c fun k => k.onLq q m.id fun m => { m with parked := true }

/-- COLL_ENTRY_START: the next entry of queue `n` of a core starts: its buffers are checked, its source is read, residuals are formed
and its contributions leave. -/
def evCollEntryStart (s : State) : State :=
  let c := s.req.core
  let q := s.req.n
  let co := s.core c
  match co.lqNext q with
  | none => s
  | some m =>
    if m.op ≠ .coll || s.seqHeld c then s
    else
      let x := co.unitCtx
      let d := m.desc
      let g := s.group (cl d 192 8)
      let src := BitVec.ofNat 64 (cl d 0 64)
      let dst := BitVec.ofNat 64 (cl d 64 64)
      let rsa := BitVec.ofNat 64 (cl d 256 64)
      let n := clCount d
      let fail := fun (s : State) (k : FKind) (va pte : Word) => (s.failLq c q m k va pte).settleLq c q
      match s.collBuffer c x src (clFmt d) n, s.collBuffer c x dst (clFmt d) n with
      | some rs, some rd =>
        let rr := if m.res then s.collBuffer c x rsa 0x0A n else some 0
        match rr with
        | none => fail s .collDesc 0 0
        | some rr =>
          if m.res && tf rr 32 16 ≠ tf rs 32 16 then fail s .collDesc 0 0
          else
            let sends : Bool := m.kind ≠ 2 || cl d 200 12 = grpRank g
            let writes : Bool := m.kind ≠ 0 || cl d 200 12 = grpRank g
            let ps := if sends then s.runParts c x rs .read src src (clBytes d + 1) (clBytes d) else []
            let pr := if m.res && sends then s.runParts c x rr .read rsa rsa (4 * n + 1) (4 * n) else []
            let pw := (if m.res && sends then s.runParts c x rr .write rsa rsa (4 * n + 1) (4 * n) else [])
              ++ (if writes then s.runParts c x rd .write dst dst (clBytes d + 1) (clBytes d) else [])
            match runOut (ps ++ pr ++ pw) with
            | .hold => s
            | .fault k va pte => if parkKind k then s.parkLq c q m k va pte else fail s k va pte
            | .ok =>
              let far := farPieces ps
              let farR := farPieces pr
              if !(far.isEmpty && farR.isEmpty) && m.remote.isEmpty then
                let (ids, s) := (far ++ farR).foldl (fun (acc : List Nat × State) f =>
                  let (n, s) := acc.2.request (.lq c q m.id) x f.2.1 true f.2.2 []
                  (acc.1 ++ [n], s)) ([], s)
                s.onCore c fun k => k.onLq q m.id fun m => { m with remote := ids }
              else if s.someOpen m.remote then s
              else match s.someRefused m.remote with
                | some k => fail (s.dropReqs m.remote) k 0 0
                | none =>
                  let w := fmtWidth (clFmt d)
                  let xs := elemsOf w (s.runBytes ps (m.remote.take far.length)) n
                  let rv := elemsOf 32 (s.runBytes pr (m.remote.drop far.length)) n
                  let fmt := (Fmt.ofCode (clFmt d)).getD .fp32
                  let out := if m.res && sends then (xs.zip rv).map fun e => residual fmt e.1 e.2 else xs.map fun e => (e, 0, (0 : Flags))
                  let data := if sends then out.flatMap fun e => bytesOfNat (w / 8) e.1 else []
                  let flags := out.foldl (fun (a : Flags) e => a ||| e.2.2) 0
                  let s := s.dropReqs m.remote
                  let s := s.onCore c fun k => k.onLq q m.id fun m => { m with
                    started := true, parked := false, remote := []
                    stat := BitVec.ofNat 6 (statBits flags)
                    got := if m.res && sends then [(1, out.flatMap fun e => bytesOfNat 4 e.2.1)] else [] }
                  s.sendContribution c q x m g data
      | _, _ => fail s .collDesc 0 0

/-! ### The switch units (R388, R389) -/

/-- A node of the tree on two contributions. -/
def treeNode (fmt : Fmt) (op a b : Nat) : Res :=
  let canon := fun (r : Res) => if (ieee32.val r.bits).isNan then ⟨ieee32.defNan, r.flags⟩ else r
  match fmt with
  | .i32 => match op with
    | 0 => ⟨wrap 32 (sx 32 a + sx 32 b), 0⟩
    | 1 => iminE .i32 a b
    | _ => imaxE .i32 a b
  | .sli32 => match op with
    | 0 => let r := sliAdd 27 a b; ⟨r.bits, r.flags &&& ~~~(fLXU ||| fLXD)⟩
    | _ =>
      match sliCmp 27 a b with
      | none => ⟨sliNav 27, fNF⟩
      | some o => if decide (o = .gt) == decide (op = 2) then ⟨a, 0⟩ else ⟨b, 0⟩
  | _ => match op with
    | 0 => canon (ieee32.add .rne false a b)
    | 1 => canon (fminmaxE ieee32 false false a b)
    | _ => canon (fminmaxE ieee32 true false a b)

/-- One level of the tree: pairs of neighbours; an absent partner leaves its neighbour. -/
def treeLevel (f : Nat → Nat → Res) : List Nat → List Nat × Flags
  | a :: b :: t =>
    let r := f a b
    let (l, g) := treeLevel f t
    (r.bits :: l, r.flags ||| g)
  | [a] => ([a], 0)
  | [] => ([], 0)

/-- The tree over the ranks' values. -/
def treeFold (f : Nat → Nat → Res) : Nat → List Nat → Nat × Flags
  | 0, l => (l.headD 0, 0)
  | fuel + 1, l =>
    if l.length ≤ 1 then (l.headD 0, 0)
    else
      let (m, g) := treeLevel f l
      let (x, h) := treeFold f fuel m
      (x, g ||| h)

/-- A contribution as the tree takes it: BF16 and T8 in FP32, exactly. -/
def treeLeaf (fmt : Fmt) (x : Nat) : Nat :=
  match fmt with
  | .bf16 => (convert .fp32 .bf16 .rne false false x).bits
  | .t8 => (convert .fp32 .t8 .rne false false x).bits
  | _ => x

/-- The result of the tree in the collective's format. -/
def treeFinal (fmt : Fmt) (x : Nat) : Res :=
  match fmt with
  | .bf16 => convert .bf16 .fp32 .rne false false x
  | .t8 => convert .t8 .fp32 .rne false false x
  | _ => ⟨x, 0⟩

/-- Element i of the reduction over the ranks' contributions, in rank order. -/
def reduceElem (fmt : Fmt) (op : Nat) (xs : List Nat) : Res :=
  let (x, g) := treeFold (treeNode fmt op) 13 (xs.map (treeLeaf fmt))
  let r := treeFinal fmt x
  ⟨r.bits, g ||| r.flags⟩

/-- Fields of a contribution's header. -/
def ask (w lo n : Nat) : Nat := bf w lo n

/-- A switch unit sends a packet to a member: it numbers it as a device does. -/
def State.switchSend (s : State) (fg dev : Nat) (p : Packet) : State :=
  let key := 8192 + fg * 4096 + dev
  let p := { p with src := 4096 + fg, dst := dev, seq := (s.peer key).next }
  let s := s.onPeer key fun q => { q with next := seqAfter q.next, unacked := q.unacked ++ [⟨p, none, none⟩] }
  { s with sent := s.sent ++ [p] }

/-- Sends a result to its members: the header (mismatch, flags) to each, the data to those whose buffers take it. -/
def State.sendResult (s : State) (y : SwitchColl) (bad : Bool) (flags : Flags) (data : List Byte) : State :=
  y.devs.foldl (fun (s : State) rd =>
    let w := ((aget y.asks rd.1)).getD 0
    let takes : Bool := !bad && (ask w 0 2 ≠ 0 || ask w 11 12 = rd.1)
    (fragments (bytesOfNat 16 (b2n bad ||| statBits flags <<< 8)) (if takes then data else [])).foldl (fun (s : State) f =>
      s.switchSend y.group rd.2 { Packet.zero with
        op := 0x21, roff := collWord y.group y.ordinal f.1, payload := f.2, len := f.2.length - 1 }) s) s

/-- A collective whose every member's header and data have come is answered. -/
def State.settleSwitch (s : State) (y : SwitchColl) : State :=
  if y.asks.length < y.members then s
  else
    let w := (y.asks.head?.map fun a => a.2).getD 0
    let gone := { s with switch := s.switch.filter fun (z : SwitchColl) => !(z.group = y.group && z.ordinal = y.ordinal) }
    if y.asks.any fun a => a.2 ≠ w then gone.sendResult y true 0 []
    else
      let fmt := (Fmt.ofCode (ask w 6 5)).getD .fp32
      let n := ask w 64 32
      let size := n * fmt.width / 8
      let bytesAt := fun (r : Nat) => (aget y.data r).getD []
      let senders := if ask w 0 2 = 2 then [ask w 11 12] else List.range y.members
      if senders.any fun r => (bytesAt r).length < size then s
      else if ask w 0 2 = 2 then gone.sendResult y false 0 (bytesAt (ask w 11 12))
      else
        let cols := senders.map fun r => elemsOf fmt.width (bytesAt r) n
        let rs := (List.range n).map fun i => reduceElem fmt (ask w 2 3) (cols.map fun l => l.getD i 0)
        gone.sendResult y false (rs.foldl (fun (a : Flags) r => a ||| r.flags) 0) (rs.flatMap fun r => bytesOfNat (fmt.width / 8) r.bits)

/-- A contribution fragment is taken by its switch unit. -/
def State.performCdata (s : State) (p : Packet) : Bool × State :=
  let fg := bf p.roff.toNat 0 12
  let ord := bf p.roff.toNat 12 20
  let frag := bf p.roff.toNat 32 32
  let rank := p.opx.toNat
  let old := (s.switch.find? fun (z : SwitchColl) => z.group = fg && z.ordinal = ord).getD ⟨fg, ord, 0, [], [], []⟩
  let y : SwitchColl :=
    if frag = 0 then
      let w := natOfBytes p.payload
      { old with members := ask w 23 12 + 1, asks := aput old.asks rank w, devs := aput old.devs rank p.src }
    else { old with data := aput old.data rank ((aget old.data rank).getD [] ++ p.payload) }
  let s := { s with switch := (s.switch.filter fun (z : SwitchColl) => !(z.group = fg && z.ordinal = ord)) ++ [y] }
  (true, s.settleSwitch y)

/-- The key of the numbers that a switch unit keeps for a member. -/
def collKey (p : Packet) : Nat := 8192 + (p.dst - 4096) % 4096 * 4096 + p.src

/-! ### Results (R388, R391) -/

/-- Where a device's collective is: core, queue and entry. -/
def State.collEntry (s : State) (fg ord : Nat) : Option (Nat × Nat × LqCmd) :=
  (List.range 64).findSome? fun c => (List.range 4).findSome? fun q =>
    (((s.core c).sendQ q).find? fun m => m.op = .coll && m.started && !m.done && grpFg (s.group (cl m.desc 192 8)) = fg
      && m.ordinal % 2 ^ 20 = ord).map fun m => (c, q, m)

/-- A result fragment from a switch unit: the header fails the entry on a mismatch, data goes to `DSTA`. The flag says whether it was
performed: a moving page, or a unit that is saved, is waited for. -/
def State.performCres (s : State) (p : Packet) : Bool × State :=
  let fg := bf p.roff.toNat 0 12
  let ord := bf p.roff.toNat 12 20
  let frag := bf p.roff.toNat 32 32
  match s.collEntry fg ord with
  | none =>
    let saved := (List.range 256).any fun x => (s.ctx x).images.any fun im => im.2.lq.toList.any fun l => l.any fun m =>
      m.op = .coll && m.started && grpFg (s.group (cl m.desc 192 8)) = fg && m.ordinal % 2 ^ 20 = ord
    (!saved, s)
  | some (c, q, m) =>
    if frag = 0 then
      let w := natOfBytes p.payload
      if bf w 0 1 = 1 then (true, (s.failLq c q m .collMismatch).settleLq c q)
      else (true, s.onCore c fun k => k.onLq q m.id fun m => { m with got := (0, p.payload) :: m.got, stat := m.stat ||| BitVec.ofNat 6 (bf w 8 6) })
    else
      let x := (s.core c).unitCtx
      let a := BitVec.ofNat 64 (cl m.desc 64 64 + 256 * (frag - 1))
      match s.tlr (some c) x (tensorOf a) with
      | .error k => (true, (s.failLq c q m k a 0).settleLq c q)
      | .ok r =>
        let ps := s.runParts c x r .write a a (p.payload.length + 1) p.payload.length
        match runOut ps with
        | .hold => (false, s)
        | .fault k va pte => (true, (s.failLq c q m k va pte).settleLq c q)
        | .ok =>
          let (ids, s) := s.runWrite c q m.id x r ps p.payload
          (true, s.onCore c fun k => k.onLq q m.id fun m => { m with msg := m.msg + p.payload.length, remote := m.remote ++ ids })

/-! ### COLL_ENTRY_COMPLETE (R391) -/

/-- The first entry of a send queue that has not completed. -/
def Core.lqOpen (k : Core) (q : Nat) : Option LqCmd := (k.sendQ q).find? fun m => !m.done

/-- The requests that an entry's completion waits for: on a member that writes the result its writes, else the acknowledgements of its
contributions too (R391). -/
def State.collAwaited (s : State) (m : LqCmd) (writes : Bool) : List Nat :=
  if writes then m.remote.filter fun id => ((aget s.remote id).map fun r => r.n).getD 0 ≠ 0 else m.remote

/-- COLL_ENTRY_COMPLETE: the first open entry of queue `n` of a core: its result has been written, its contributions are acknowledged;
the residual is written back, `STAT` is updated and the release on the pennant of `DSTA` issues. -/
def evCollEntryComplete (s : State) : State :=
  let c := s.req.core
  let q := s.req.n
  let co := s.core c
  match co.lqOpen q with
  | none => s
  | some m =>
    let x := co.unitCtx
    let d := m.desc
    let g := s.group (cl d 192 8)
    let writes : Bool := m.kind ≠ 0 || cl d 200 12 = grpRank g
    let fail := fun (s : State) (k : FKind) (va pte : Word) => (s.failLq c q m k va pte).settleLq c q
    if m.op ≠ .coll || !m.started || m.rel || (aget m.got 0).isNone || (writes && m.msg < clBytes d) || s.someOpen (s.collAwaited m writes)
        || (s.someRefused m.remote).isSome then s
    else
      match aget m.got 1 with
      | some bs =>
        let a := BitVec.ofNat 64 (cl d 256 64)
        match s.tlr (some c) x (tensorOf a) with
        | .error k => fail s k a 0
        | .ok r =>
          let ps := s.runParts c x r .write a a (bs.length + 1) bs.length
          match runOut ps with
          | .hold => s
          | .fault k va pte => fail s k va pte
          | .ok =>
            let (ids, s) := s.runWrite c q m.id x r ps bs
            s.onCore c fun k => k.onLq q m.id fun m => { m with got := m.got.filter fun e => e.1 ≠ 1, remote := m.remote ++ ids }
      | none =>
        match s.tlr (some c) x (cl d 112 16) with
        | .error k => fail s k 0 0
        | .ok r =>
          let n := tf r 32 16
          match s.penHome x n with
          | .error k => fail s k 0 0
          | .ok (h, a, fwd) =>
            let (id, s) := s.newId
            let s := s.onCore c fun k =>
              let old := natOfBytes (s.scalarBytes k (m.descAddr + 40) 1)
              ({ k with scalar := k.scalar.writeBytes (m.descAddr + 40) (bytesOfNat 1 (old ||| m.stat.toNat)) }).onLq q m.id fun m =>
                { m with rel := true }
            { s with pens := s.pens ++ [{
                id := id, who := .coll c q m.id, acquire := false, ge := false, home := h, addr := a, forward := fwd, target := 0
                vop := 1, val := 1, scope := 4, dst := 0, accs := [], copies := [], waiting := false, remote := none, pkt := none }] }

/-! ### The steps -/

/-- COLL_ENTRY_START. -/
def execCollEntryStart (s : State) : Host.Outcome State Fault Refusal := .next (evCollEntryStart s)
/-- COLL_ENTRY_COMPLETE. -/
def execCollEntryComplete (s : State) : Host.Outcome State Fault Refusal := .next (evCollEntryComplete s)

end Sys2Proof.Machine
end

