-- ==== Sys2Proof/Machine/Hang.lean ====
section
/-!
DEFINITION. The hang watchdogs: what each cycle adds to the hang counts, and a count that fires (R157, R375, R405).
-/

namespace Sys2Proof.Machine

/-! ### The counts (R405) -/

/-- Marks a count that has fired and waits for its decision. -/
def hangFired : Nat := 2 ^ 70

/-- Whether a port is in REPLAY or RECOVERING. -/
def State.portRetries (s : State) (i : Nat) : Bool :=
  match s.ports[i]? with
  | some p => p.st == PortSt.replay || p.st == PortSt.recovering
  | none => false

/-- Whether a port, where one is known, retries. -/
def State.onRetry (s : State) (p : Option Nat) : Bool := (p.map s.portRetries).getD false
/-- Whether the packet of one of some requests, or the response that it awaits, last travelled on a port in REPLAY or RECOVERING (R375). -/
def State.pathRetries (s : State) (ids : List Nat) : Bool :=
  (s.peers.any fun e => e.2.unacked.any fun u => (u.req.map fun r => ids.contains r).getD false && s.onRetry u.port)
  || ids.any fun id => ((aget s.remote id).map fun r => !r.host && r.seq ≠ 0 && s.onRetry (s.peer r.peer).inPort).getD false
/-- Whether the path of the packets that a `LINKQ` stall awaits crosses such a port (R157): those that come from a device, and (`out`) those
sent to it that it has not acknowledged. -/
def State.linkRetries (s : State) (out : Bool) (devs : List Nat) : Bool :=
  devs.any fun d => s.onRetry (s.peer d).inPort || (out && (s.peer d).unacked.any fun u => s.onRetry u.port)

/-- The remote requests that a band waits for: its accesses', its pennant operation's, and those of the copies that its `PREL` or `FENCE`
covers (R309). -/
def State.bandReqs (s : State) (c n : Nat) (b : Band) : List Nat :=
  let mine := s.pens.filter fun o => o.who = .band c n
  let copies := (mine.flatMap fun o => o.copies) ++ match b.wait with | .fence _ l => l | _ => []
  (b.acc.flatMap fun a => a.pieces.filterMap fun p => p.remote) ++ (mine.filterMap fun o => o.remote)
  ++ s.remote.filterMap fun e => match e.2.who with
    | .copy d _ id => if d = c && copies.contains id then some e.1 else none
    | _ => none

/-- What a cycle does to a hang count: it counts, leaves it, or returns it to 0. -/
inductive HangStep where
  | count | keep | zero
deriving DecidableEq, Repr

/-- A count after a cycle; one that has fired stays. -/
def HangStep.apply (h : HangStep) (n : Nat) : Nat :=
  if hangFired ≤ n then n else match h with | .count => n + 1 | .keep => n | .zero => 0

/-- Class 1 (R157): the sequencer. A `LINKQ` stall does not count while the path of the awaited packet crosses a port that retries. -/
def State.hangSeq (s : State) (k : Core) : HangStep :=
  let q := k.seq
  if k.unit.isNone || q.phase = .idle || q.phase = .ended then .zero
  else if q.entry.isSome && q.lastIssue = s.cycle then .zero
  else if q.halted then .keep
  else match q.stall with
    | some .store => .keep
    | some (.linkq out devs) => if s.linkRetries out devs then .keep else .count
    | _ => .count

/-- Class 4: a sequencer stalled with cause STORE. -/
def hangStore (k : Core) : HangStep :=
  if k.unit.isSome && k.seq.phase = .run && k.seq.stall = some .store then .count else .zero

/-- Class 2: a band. -/
def State.hangBand (s : State) (c n : Nat) (b : Band) : HangStep :=
  match b.st with
  | .waiting | .parked => if s.pathRetries (s.bandReqs c n b) then .keep else .count
  | .held | .halted => .keep
  | _ => .zero

/-- Class 3: an engine queue, by whether its head has still to start. -/
def hangQueue (waits : Option Bool) : HangStep := if waits = some true then .count else .zero

/-- The agents of a core with what the cycle does to their counts, by key (`hangKey`); agents that are not resident have none. -/
def State.hangSteps (s : State) (c : Nat) : List (Nat × HangStep) :=
  let k := s.core c
  [(0, s.hangSeq k)]
  ++ (k.bands.map fun b => (1 + b.1, s.hangBand c b.1 b.2))
  ++ ((List.range 4).map fun i => (200 + i, hangQueue ((k.chan i).head?.map fun (m : CopyCmd) => m.st == CopySt.queued)))
  ++ [(204, hangQueue (k.arr.queue.head?.map fun (m : ArrCmd) => !m.started)), (205, hangQueue (k.arr.epi.head?.map fun (m : EpiCmd) => !m.started))]
  ++ ((List.range 4).map fun i => (206 + i, hangQueue ((k.sendQ i).head?.map fun (m : LqCmd) => !m.started)))
  ++ [(300, hangStore k)]

/-- The hang counts of a core after a cycle. -/
def State.hangTick (s : State) (c : Nat) : State :=
  let k := s.core c
  if k.unit.isNone && k.bands.isEmpty && k.watch.hang.isEmpty && k.chans.toList.all fun q => q.isEmpty then s
  else
    let old := fun (n : Nat) => (aget k.watch.hang n).getD 0
    let new := (s.hangSteps c).filterMap fun e =>
      let n := e.2.apply (old e.1)
      if n = 0 then none else some (e.1, n)
    s.onCore c fun k => { k with watch := { k.watch with hang := new } }

/-! ### A count fires -/

/-- The agent of a hang count and its class. -/
def hangAgent (c key : Nat) : Agent × Nat :=
  if key = 0 then (.seq c, 1)
  else if key ≤ 128 then (.band c (key - 1), 2)
  else if key < 204 then (.chan c (key - 200), 3)
  else if key = 204 then (.array c, 3)
  else if key = 205 then (.epi c, 3)
  else if key < 210 then (.link c (key - 206), 3)
  else (.seq c, 4)

/-- HANG_WATCHDOG_FIRE: the count with key `n` on core `core` has reached its threshold: a HANG record with the class in VADDR and the
agent's address in PC (0 for a queue), vector 5, the FAULT sluice. Class 4 fires after twice 2^32 cycles. -/
def evHangWatchdogFire (s : State) : State :=
  let c := s.req.core
  let key := s.req.n
  let k := s.core c
  match aget k.watch.hang key with
  | none => s
  | some n =>
    let limit := if key = 300 then 2 ^ 33 else 2 ^ k.watch.wexp
    if n < limit || hangFired ≤ n then s
    else
      let (who, cls) := hangAgent c key
      let s := s.onCore c fun k => { k with watch := { k.watch with hang := aput k.watch.hang key hangFired } }
      let v := BitVec.ofNat 64 cls
      let fire (s : State) (x : Nat) (r : FRec) (kind prio : Nat) : State :=
        (s.takeFault x r who kind prio).raiseVector (x / 16) 5 (some (BitVec.ofNat 4 x))
      match who with
      | .band _ b =>
        match s.band c b with
        | some bd => fire s bd.slot (s.bandRecord c b bd .hang 0 bd.pc v 0) bd.evKind (min bd.cls 15)
        | none => s
      | .chan _ ch =>
        match (k.chan ch).head? with
        | some m =>
          let s := s.copyFault c ch m .hang v 0
          s.raiseVector (m.ctx / 16) 5 (some (BitVec.ofNat 4 m.ctx))
        | none => s
      | .seq _ => fire s k.unitCtx (s.seqRecord c .hang k.seq.pc v 0) 1 k.seqCls
      | _ => fire s k.unitCtx (s.seqRecord c .hang 0 v 0) 1 k.seqCls

/-! ### The steps -/

/-- HANG_WATCHDOG_FIRE. -/
def execHangWatchdogFire (s : State) : Host.Outcome State Fault Refusal := .next (evHangWatchdogFire s)

end Sys2Proof.Machine
end

