-- ==== Sys2Proof/Machine/Packets.lean ====
section
/-!
DEFINITION. Packets as they arrive: order, duplicates and acknowledgements, admission, and what each operation does (R282, R297, R368 to
R372, R376, R378, R381, R384).
-/

namespace Sys2Proof.Machine

/-! ### Admission (R282, R378) -/

/-- The tensor virtual address that a request of n bytes with a right (bit of the record) reaches, or the NACK code. -/
def State.regionAddr (s : State) (p : Packet) (n right : Nat) : Except Nat Word :=
  match s.regionOf p with
  | .error e => .error e
  | .ok r =>
    if bf r.toNat 36 2 ≠ 1 || !r.getLsbD right || bf r.toNat 128 64 < p.roff.toNat + n then .error 2
    else .ok (BitVec.ofNat 64 (bf r.toNat 192 64 + p.roff.toNat))

/-! ### Accesses on behalf of another device -/

/-- How an access for a packet comes out: refused, waiting (for a migrating page, or for a page that lies on a peer or on the control
node), or done with the bytes read. -/
inductive FarOut where
  | refused
  | waits
  | done (bs : List Byte)
deriving DecidableEq, Repr

/-- The requests that a packet's access made for the lines that lie elsewhere, in their order. -/
def State.farReqs (s : State) (p : Packet) : List RReq := (s.remote.filter fun r => r.2.who = .packet p.src p.seq).map fun r => r.2
/-- Forgets the requests of a packet. -/
def State.farDone (s : State) (p : Packet) : State := { s with remote := s.remote.filter fun r => r.2.who ≠ .packet p.src p.seq }
/-- How the requests of a packet stand together: one still waits, one is refused, or the bytes of their answers. -/
def farOut (l : List RReq) : FarOut :=
  if l.any fun r => r.stat = .waiting then .waits
  else if l.any fun r => match r.stat with | .refused _ => true | _ => false then .refused
  else .done (l.flatMap fun r => match r.stat with | .answered bs => bs.take r.n | _ => [])

/-- Reads or writes bytes of an owner's tensor for a packet, through the owner's page tables, polders and page states (R282); lines of
pages that lie elsewhere are asked for first. -/
def State.ownerAccess (s : State) (p : Packet) (x : Nat) (a : Word) (n : Nat) (data : Option (List Byte)) : FarOut × State :=
  let k := if data.isSome then AKind.write else .read
  match s.checkTensor none x a n with
  | .error _ => (.refused, s)
  | .ok r =>
    let ps := s.frontParts x r k a (n + 1) n
    let bytes := fun (lo m : Nat) => ((data.getD []).drop (lo - offsetOf a)).take m
    if ps.any fun q => match q.2.2.2 with | .fault _ _ | .poison _ => true | _ => false then (.refused, s)
    else if ps.any fun q => q.2.2.2 = .hold then (.waits, s)
    else
      let far : List (Nat × Nat × Loc) := ps.flatMap fun q => match q.2.2.2 with
        | .ok l => if l.far.isSome then (l.lines q.2.1).map fun t => (q.1 + t.1, t.2.1, t.2.2) else []
        | _ => []
      let s := if !(s.farReqs p).isEmpty then s
        else far.foldl (fun (s : State) f => (s.request (.packet p.src p.seq) x f.2.2 data.isNone f.2.1 (bytes f.1 f.2.1)).2) s
      match farOut (s.farReqs p) with
      | .waits => (.waits, s)
      | .refused => (.refused, s.farDone p)
      | .done got =>
        let out := ps.foldl (fun (acc : List Byte × List Byte × State) q =>
          let (bs, got, s) := acc
          match q.2.2.2 with
          | .ok (.home h ha) =>
            if data.isSome then (bs, got, (s.homeWrite h ha (bytes q.1 q.2.1)).setDirty x r q.1)
            else (bs ++ s.homeBytes h ha q.2.1, got, s)
          | .ok _ => if data.isSome then (bs, got, s.setDirty x r q.1) else (bs ++ got.take q.2.1, got.drop q.2.1, s)
          | _ => acc) ([], got, s)
        (.done out.1, out.2.2.farDone p)

/-! ### Tile messages (R381, R384; the packets' own layout is log entry 6's) -/

/-- Changes a receive queue of a context on a core; while the context does not run there, the one of its save image, and without an image the
one that is kept for the core until a unit enters (R381). -/
def State.onQueueOf (s : State) (x c q : Nat) (f : RecvQ → Option RecvQ) : Option State :=
  let k := s.core c
  if k.runs x || k.hasBands x then
    (f (k.recvQ q)).map fun r => s.onCore c fun k => k.onRecvQ q fun _ => r
  else
    let j := logical (s.ctx x).cores c
    match aget (s.ctx x).images j with
    | none => (f ((aget (s.ctx x).rqs (16 * j + q)).getD RecvQ.empty)).map fun r => s.onCtx x fun k => { k with rqs := aput k.rqs (16 * j + q) r }
    | some im => (f ((aget im.rq q).getD RecvQ.empty)).map fun r =>
        s.onCtx x fun k => { k with images := aput k.images j { im with rq := aput im.rq q r } }

/-- Whether a context that names a core in CORES is RECOVERING. -/
def State.recoversOn (s : State) (c : Nat) : Bool :=
  (List.range 256).any fun x => (s.ctx x).st == .recovering && (s.ctx x).cores.toNat.testBit c

/-- TNOTE: admitted into the receive queue that its destination word names; the queue binds to its channel (R381). -/
def State.performNote (s : State) (p : Packet) : State :=
  let w := p.roff.toNat
  let c := bf w 12 6
  let q := bf w 18 4
  let own := 16 * p.part.toNat + p.ctx.toNat
  let who : Except Nat Nat :=
    if p.key = 0 then (if p.src = s.devid && (s.ctx own).cores.toNat.testBit c then .ok own else .error 2)
    else match s.regionOf p with
      | .error e => .error e
      | .ok r => if bf r.toNat 36 2 = 3 && r.getLsbD 42 && bf r.toNat 192 6 = c && bf r.toNat 198 4 = q then .ok p.owner else .error 2
  match who with
  | .error e => s.nack p.src p.seq e
  | .ok x =>
    let v := natOfBytes p.payload
    let from_ := p.opx.toNat % 64
    let note : Note := ⟨bf v 32 24, bf v 0 10 + 1, bf v 10 12 + 1, bf v 22 5⟩
    match s.onQueueOf x c q fun r =>
        if (r.chan = none || r.chan = some (p.src, from_)) && r.notes.length < 16 then
          some { r with chan := some (p.src, from_), notes := r.notes ++ [note] } else none with
    | some s => s.pullNext c q
    | none => s.nack p.src p.seq 2

/-- The bytes of a tile as a packed message. -/
def State.packTile (s : State) (c : Nat) (h : Word) : List Byte :=
  let n := (hCols h * fmtWidth (hFmt h) + 7) / 8
  (List.range (hRows h)).flatMap fun i => s.tileBytes (s.core c) (hBase h + i * hPitch h) n

/-- Sends a message's fragments, and releases its tile (R384). -/
def State.servePull (s : State) (c q : Nat) (m : LqCmd) (dev core queue : Nat) : State :=
  let bs := s.packTile c m.handle
  let x := (s.core c).unitCtx
  let (ids, s) := (List.range ((bs.length + 255) / 256)).foldl (fun (acc : List Nat × State) f =>
    let (id, s) := acc.2.newId
    let data := (bs.drop (256 * f)).take 256
    let s := { s with remote := aput s.remote id (RReq.mk id (.lq c q m.id) false (x / 16) (x % 16) false 0 data.length RStat.waiting 0 0) }
    (acc.1 ++ [id], s.sendFor x { Packet.zero with
      op := 0x12, dst := dev, roff := BitVec.ofNat 64 (m.msg % 2 ^ 24 + f * 2 ^ 32), opx := BitVec.ofNat 16 (core + 64 * queue)
      payload := data, len := data.length - 1 } (some id))) ([], s)
  let s := s.onCore c fun k =>
    let k := k.dropCopy m.treg.toNat
    let k := { k with chtab := k.chtab.map fun (e : Nat × Chan) => if e.2.dest = m.dest then (e.1, { e.2 with pending := e.2.pending - 1 }) else e }
    k.onLq q m.id fun m => { m with pulled := true, remote := m.remote ++ ids }
  s.settleLq c q

/-- TPULL: the sender reads the source tile and sends its fragments, or refuses when the tile is gone; a unit that is saved is waited
for. The flag says whether the packet was performed. -/
def State.performPull (s : State) (p : Packet) : Bool × State :=
  let w := p.roff.toNat
  let c := bf w 24 6
  let dest := bf w 0 22
  let msg := bf w 32 24
  let k := s.core c
  let mine := fun (m : LqCmd) => m.op = .tsend && m.dest.toNat % 2 ^ 22 = dest && m.msg = msg && !m.pulled && !m.done
  let found := (List.range 4).findSome? fun q => ((k.sendQ q).find? mine).map fun m => (q, m)
  match found with
  | some (q, m) =>
    if (k.entry m.treg.toNat).st = .free then
      (true, ((s.nack p.src p.seq 2).failLq c q { m with pulled := true } .linkTileLost).settleLq c q)
    else (true, s.servePull c q m p.src (bf w 12 6) (bf w 18 4))
  | none =>
    let saved := (List.range 256).any fun x =>
      match aget (s.ctx x).images (logical (s.ctx x).cores c) with
      | some im => im.lq.toList.any fun l => l.any mine
      | none => false
    if saved || s.recoversOn c then (false, s) else (true, s.nack p.src p.seq 2)

/-- Writes a fragment of a packed message into a tile (R159); the half byte beyond a row of 4-bit elements stays. -/
def State.writeFragment (s : State) (c : Nat) (h : Word) (start : Nat) (bs : List Byte) : Core :=
  let w := fmtWidth (hFmt h)
  let n := (hCols h * w + 7) / 8
  let half := w = 4 && hCols h % 2 = 1
  let k := s.core c
  (bs.zip (List.range bs.length)).foldl (fun (k : Core) e =>
    let o := start + e.2
    let a := hBase h + (o / n) * hPitch h + o % n
    let b : Byte := if half && o % n = n - 1 then
        BitVec.ofNat 8 (e.1.toNat % 16 + natOfBytes (s.tileBytes k a 1) / 16 * 16) else e.1
    { k with tile := k.tile.write a b }) k

/-- A fragment of a message that a receive queue of a core is pulling; the last one makes the tile READY. -/
def State.takeFragment (s : State) (c q msg frag : Nat) (bs : List Byte) : State :=
  let r := (s.core c).recvQ q
  match r.pulls.find? fun p => p.msg = msg with
  | none => s
  | some p =>
    let got := p.got + bs.length
    let last := p.size ≤ got
    let pulls := if last then r.pulls.filter fun o => o.id ≠ p.id else updWhere (fun o => o.id = p.id) (fun o => { o with got := got }) r.pulls
    match r.owner with
    | .band _ => s.onCore c fun k => k.onRecvQ q fun r => { r with buf := r.buf ++ bs, ended := last, pulls := pulls }
    | _ =>
      let s := s.setCore c (s.writeFragment c p.handle (256 * frag) bs)
      s.onCore c fun k =>
        let k := if last then (k.toState p.treg.toNat .ready).dropRange (.recv p.id) else k
        k.onRecvQ q fun r => { r with pulls := pulls }

/-- The context whose receive queue takes a message on a core: that of the band that owns the queue, else of the sequencer's unit. -/
def Core.queueCtx (k : Core) (q : Nat) : Nat :=
  match (k.recvQ q).owner with
  | .band n => ((aget k.bands n).map Band.slot).getD k.unitCtx
  | _ => k.unitCtx

/-- TDATA: a fragment arrives at the queue that pulls its message, logged for the context that takes it (R376); a unit that is saved is waited
for, and so is a context that recovers (R121). -/
def State.performData (s : State) (p : Packet) : Bool × State :=
  let c := p.opx.toNat % 64
  let q := bf p.opx.toNat 6 4
  let msg := bf p.roff.toNat 0 24
  let frag := bf p.roff.toNat 32 32
  let x := (s.core c).queueCtx q
  let here := ((s.core c).recvQ q).pulls.any fun o => o.msg = msg
  if if here then (s.ctx x).st == .recovering else s.recoversOn c then (false, s)
  else if here then
    (true, (s.takeFragment c q msg frag p.payload).log x 3 (bytesOfNat 8 (q + msg * 256 + frag * 2 ^ 32) ++ p.payload) c)
  else
    let saved := (List.range 256).any fun x =>
      match aget (s.ctx x).images (logical (s.ctx x).cores c) with
      | some im => ((aget im.rq q).map fun r => r.pulls.any fun o => o.msg = msg).getD false
      | none => false
    (!saved, s)

/-! ### Performing a packet -/

/-- A WRITE of an owner's region. -/
def State.performWrite (s : State) (p : Packet) : Bool × State :=
  match s.regionAddr p p.payload.length 42 with
  | .error e => (true, s.nack p.src p.seq e)
  | .ok a =>
    match s.ownerAccess p p.owner a p.payload.length (some p.payload) with
    | (.refused, s) => (true, s.nack p.src p.seq 2)
    | (.waits, s) => (false, s)
    | (.done _, s) => (true, s.logPacket p.owner p)
/-- A READ of an owner's region: `LEN` is the byte count less one. -/
def State.performRead (s : State) (p : Packet) : Bool × State :=
  match s.regionAddr p (p.len + 1) 43 with
  | .error e => (true, s.nack p.src p.seq e)
  | .ok a =>
    match s.ownerAccess p p.owner a (p.len + 1) none with
    | (.refused, s) => (true, s.nack p.src p.seq 2)
    | (.waits, s) => (false, s)
    | (.done bs, s) => (true, s.respond p.src p.seq bs)
/-- An ATOMIC or RED on an owner's region (R289, R369); on a page that lies on a peer it goes on there (R276). -/
def State.performAtomic (s : State) (p : Packet) (red : Bool) : Bool × State :=
  let op := bf p.opx.toNat 0 4
  let n := if op < 8 then 4 else 8
  let ty := match bf p.opx.toNat 4 2 with | 0 => 6 | 1 => 7 | _ => 10
  let bad := (true, s.nack p.src p.seq 2)
  let finish := fun (s : State) (old : List Byte) =>
    let s := s.logPacket p.owner p
    (true, if red then s else s.respond p.src p.seq (old.take 8 ++ List.replicate (8 - old.length) 0))
  match s.regionAddr p n 41 with
  | .error e => (true, s.nack p.src p.seq e)
  | .ok a =>
    match s.checkTensor none p.owner a n with
    | .error _ => bad
    | .ok r =>
      if a.toNat % n ≠ 0 || (red && 6 ≤ op % 8) then bad
      else
        match s.translate none p.owner r a n .atomic with
        | .hold => (false, s)
        | .ok (.home h ha) =>
          let (x, s) := s.atomicAt h ha op ty n (BitVec.ofNat 64 (natOfBytes (p.payload.take 8)))
            (BitVec.ofNat 64 (natOfBytes ((p.payload.drop 8).take 8)))
          finish (s.setDirty p.owner r (offsetOf a)) (bytesOfNat 8 x)
        | .ok (.peer d key roff) =>
          let s := if (s.farReqs p).isEmpty then
            (s.requestAtomic (.packet p.src p.seq) p.owner d key roff red p.opx.toNat p.payload).2 else s
          match farOut (s.farReqs p) with
          | .waits => (false, s)
          | .refused => (true, (s.farDone p).nack p.src p.seq 2)
          | .done old => finish ((s.farDone p).setDirty p.owner r (offsetOf a)) old
        | _ => bad

/-- A forwarded PACQ or PREL (R297), performed at the home word; a PACQ.GE whose condition does not hold joins the waiters, and waits in its
place while they are full. -/
def State.performPennant (s : State) (p : Packet) : Bool × State :=
  match s.regionOf p with
  | .error e => (true, s.nack p.src p.seq e)
  | .ok r =>
    let n := p.roff.toNat
    let base := bf r.toNat 192 16
    if bf r.toNat 36 2 ≠ 2 || !r.getLsbD 41 || n < base || base + bf r.toNat 128 64 ≤ n then (true, s.nack p.src p.seq 2)
    else
      match s.penHome p.owner n with
      | .ok (h, a, none) =>
        let v := natOfBytes (p.payload.take 8)
        let (id, t) := s.newId
        let o : PenOp := {
          id := id, who := .packet p.src p.seq, acquire := bf v 0 1 = 1, ge := bf v 1 1 = 1, home := h, addr := a, forward := none
          target := BitVec.ofNat 30 (bf v 32 30), vop := BitVec.ofNat 2 (bf v 2 2), val := BitVec.ofNat 32 (natOfBytes ((p.payload.drop 8).take 4))
          scope := bf v 4 3, dst := 0, accs := [], copies := [], waiting := false, remote := none, pkt := some p }
        let t := { t with pens := t.pens ++ [o] }.performPen o
        if t.pens.any fun q => q.id = id && !q.waiting then (false, s) else (true, t)
      | .error .pennantFree => (true, s.respond p.src p.seq (bytesOfNat 8 0))
      | _ => (true, s.nack p.src p.seq 2)

/-- Performs a sequenced packet that is addressed to the device; the flag says whether it was performed. Inputs of a RECOVERING context
wait (R121), and so does a request with an answer while the response store of its source is full (R372). -/
def State.perform (s : State) (p : Packet) : Bool × State :=
  let keyed : Bool := p.op.toNat ≤ 5 || (p.op = 0x10 && p.key ≠ 0)
  let answered : Bool := [0x02, 0x03, 0x05].contains p.op.toNat
  if keyed && (s.ctx p.owner).st = .recovering then (false, s)
  else if answered && 4096 ≤ (s.peer p.src).resps.length then (false, s)
  else
    match p.op.toNat with
    | 0x01 => s.performWrite p
    | 0x02 => s.performRead p
    | 0x03 => s.performAtomic p false
    | 0x04 => s.performAtomic p true
    | 0x05 => s.performPennant p
    | 0x10 => (true, s.performNote p)
    | 0x11 => s.performPull p
    | 0x12 => s.performData p
    | 0x21 => s.performCres p
    | _ => (true, s)

/-! ### Order and acknowledgement (R371, R372) -/

/-- Performs the packets of a source that are next in order, and acknowledges them; `f` performs one. -/
def State.performHeld (s : State) (src : Nat) (f : State → Packet → Bool × State) : Nat → State
  | 0 => s
  | fuel + 1 =>
    let q := s.peer src
    match aget q.held q.expect with
    | none => s
    | some p =>
      match f s p with
      | (false, s) => s
      | (true, s) =>
        (s.onPeer src fun q => { q with held := adel q.held q.expect, expect := seqAfter q.expect }).performHeld src f fuel

/-- An acknowledgement from one device or switch unit to another. -/
def ackPacket (src dst n : Nat) : Packet := { Packet.zero with op := 0x07, src := src, dst := dst, roff := BitVec.ofNat 64 n }

/-- Sends an acknowledgement: the device's own leaves on a port, a switch unit's does not. -/
def State.sendAck (s : State) (src dst n : Nat) : State :=
  if 4096 ≤ src then { s with sent := s.sent ++ [ackPacket src dst n] } else s.emit (ackPacket src dst n)

/-- A sequenced packet arrives (R371); `key` names the source's numbers, `me` who answers. -/
def State.receive (s : State) (key me : Nat) (p : Packet) (f : State → Packet → Bool × State) : State :=
  let q := s.peer key
  let d := (p.seq + 2 ^ 32 - q.expect) % 2 ^ 32
  let ack := fun (s : State) => s.sendAck me p.src (((s.peer key).expect + 2 ^ 32 - 1) % 2 ^ 32)
  if 2 ^ 31 ≤ d || (d < 4096 && (aget q.held p.seq).isSome) then
    let s := ack (if key < 8192 then { s with dupcnt := min 0xFFFFFFFF (s.dupcnt + 1) } else s)
    match aget q.resps p.seq with
    | some r => s.emit r
    | none => s
  else if 4096 ≤ d then s
  else
    let s := (s.onPeer key fun q => { q with held := aput q.held p.seq p }).performHeld key f 4097
    if (s.peer key).expect = q.expect then s else ack s

/-- Packets that waited may be performed now. -/
def State.serveAll (s : State) : State :=
  s.peers.foldl (fun (s : State) e =>
    if 8192 ≤ e.1 then s
    else
      let before := (s.peer e.1).expect
      let s := s.performHeld e.1 State.perform 4097
      if (s.peer e.1).expect = before then s
      else s.sendAck s.devid e.1 (((s.peer e.1).expect + 2 ^ 32 - 1) % 2 ^ 32)) s

/-- The arrival of a sequenced packet with an operation. -/
def State.arriveOp (s : State) (op : Nat) : State :=
  let p := s.req.pkt
  if p.op.toNat ≠ op || !p.good then s else (s.receive p.src s.devid p State.perform).settleLinks

/-- PACKET_WRITE. -/
def evPacketWrite (s : State) : State := s.arriveOp 0x01
/-- PACKET_READ. -/
def evPacketRead (s : State) : State := s.arriveOp 0x02
/-- PACKET_ATOMIC. -/
def evPacketAtomic (s : State) : State := s.arriveOp 0x03
/-- PACKET_RED. -/
def evPacketRed (s : State) : State := s.arriveOp 0x04
/-- PACKET_PENNANT. -/
def evPacketPennant (s : State) : State := s.arriveOp 0x05
/-- PACKET_TNOTE. -/
def evPacketTnote (s : State) : State := s.arriveOp 0x10
/-- PACKET_TPULL. -/
def evPacketTpull (s : State) : State := s.arriveOp 0x11
/-- PACKET_CRES: a collective's result fragment arrives from its switch unit. -/
def evPacketCres (s : State) : State := s.arriveOp 0x21
/-- PACKET_TDATA. -/
def evPacketTdata (s : State) : State := s.arriveOp 0x12

/-- PACKET_DISCARD: an operation outside the table, or a bad ECRC, on port `n`. -/
def evPacketDiscard (s : State) : State :=
  let p := s.req.pkt
  let known := [0x01, 0x02, 0x03, 0x04, 0x05, 0x06, 0x07, 0x08, 0x10, 0x11, 0x12, 0x20, 0x21].contains p.op.toNat
  if known && p.good then s else s.onPort s.req.n false fun q => { q with crcerr := min 0xFFFF (q.crcerr + 1) }

/-! ### Answers (R369, R372) -/

/-- A response answers the request that it names, and is logged (R376). -/
def State.takeResp (s : State) (p : Packet) : State :=
  match s.remote.find? fun r => r.2.peer = p.src && r.2.seq = bf p.roff.toNat 0 32 && r.2.isRead && r.2.stat = .waiting && !r.2.host with
  | none => s
  | some (id, r) =>
    let s := s.logPacket (16 * r.part + r.ctx) p
    { s with remote := amod s.remote id fun r => { r with stat := .answered p.payload } }.serveAll

/-- PACKET_RESP: the request that it names is answered; a RECOVERING context's response is held back until RECOVERING ends (R121). -/
def evPacketResp (s : State) : State :=
  let p := s.req.pkt
  if p.op ≠ 0x06 || !p.good then s
  else
    match s.remote.find? fun r => r.2.peer = p.src && r.2.seq = bf p.roff.toNat 0 32 && r.2.isRead && r.2.stat = .waiting && !r.2.host with
    | none => s
    | some (_, r) =>
      let x := 16 * r.part + r.ctx
      if (s.ctx x).st = .recovering then s.onCtx x fun k => { k with liveResps := k.liveResps ++ [p] }
      else s.takeResp p

/-- Whether an acknowledgement of number n covers a number. -/
def covers (n seq : Nat) : Bool := (n + 2 ^ 32 - seq) % 2 ^ 32 < 2 ^ 31

/-- PACKET_ACK: every packet up to its number is acknowledged; responses that it covers leave the store. -/
def evPacketAck (s : State) : State :=
  let p := s.req.pkt
  let n := bf p.roff.toNat 0 32
  if p.op ≠ 0x07 || !p.good then s
  else
    let key := if 4096 ≤ p.dst then 4096 * (p.dst - 4096 + 2) + p.src else p.src
    let done := (s.peer key).unacked.filter fun u => covers n u.pkt.seq
    let s := s.onPeer key fun q => { q with
      unacked := q.unacked.filter fun u => !covers n u.pkt.seq
      resps := q.resps.filter fun r => !covers n r.1 }
    let s := done.foldl (fun (s : State) u =>
      let x := 16 * u.pkt.part.toNat + u.pkt.ctx.toNat
      let s := s.onCtx x fun k => { k with outs := updWhere (fun (o : OutPkt) => o.dst = p.src && o.seq = u.pkt.seq) (fun o => { o with acked := true }) k.outs }
      match u.req with
      | some id => { s with remote := amod s.remote id fun r => if r.isRead || r.stat ≠ .waiting then r else { r with stat := .answered [] } }
      | none => s) s
    ((s.drainEgress key 4096).serveAll).settleLinks

/-- PACKET_NACK: a request is refused. -/
def evPacketNack (s : State) : State :=
  let p := s.req.pkt
  let n := bf p.roff.toNat 0 32
  if p.op ≠ 0x08 || !p.good then s
  else
    let k := if bf p.opx.toNat 0 2 = 1 then FKind.keyRevoked else .remoteRefused
    match s.remote.find? fun r => r.2.peer = p.src && r.2.seq = n && r.2.stat = .waiting && !r.2.host with
    | none => s
    | some (id, _) =>
      let s := s.onPeer p.src fun q => { q with unacked := q.unacked.filter fun u => u.pkt.seq ≠ n }
      ((s.refuseReq id k).serveAll).settleLinks

/-! ### The steps -/

/-- PACKET_WRITE. -/
def execPacketWrite (s : State) : Host.Outcome State Fault Refusal := .next (evPacketWrite s)
/-- PACKET_READ. -/
def execPacketRead (s : State) : Host.Outcome State Fault Refusal := .next (evPacketRead s)
/-- PACKET_ATOMIC. -/
def execPacketAtomic (s : State) : Host.Outcome State Fault Refusal := .next (evPacketAtomic s)
/-- PACKET_RED. -/
def execPacketRed (s : State) : Host.Outcome State Fault Refusal := .next (evPacketRed s)
/-- PACKET_PENNANT. -/
def execPacketPennant (s : State) : Host.Outcome State Fault Refusal := .next (evPacketPennant s)
/-- PACKET_TNOTE. -/
def execPacketTnote (s : State) : Host.Outcome State Fault Refusal := .next (evPacketTnote s)
/-- PACKET_TPULL. -/
def execPacketTpull (s : State) : Host.Outcome State Fault Refusal := .next (evPacketTpull s)
/-- PACKET_CRES. -/
def execPacketCres (s : State) : Host.Outcome State Fault Refusal := .next (evPacketCres s)
/-- PACKET_TDATA. -/
def execPacketTdata (s : State) : Host.Outcome State Fault Refusal := .next (evPacketTdata s)
/-- PACKET_DISCARD. -/
def execPacketDiscard (s : State) : Host.Outcome State Fault Refusal := .next (evPacketDiscard s)
/-- PACKET_RESP. -/
def execPacketResp (s : State) : Host.Outcome State Fault Refusal := .next (evPacketResp s)
/-- PACKET_ACK. -/
def execPacketAck (s : State) : Host.Outcome State Fault Refusal := .next (evPacketAck s)
/-- PACKET_NACK. -/
def execPacketNack (s : State) : Host.Outcome State Fault Refusal := .next (evPacketNack s)

end Sys2Proof.Machine
end

