-- ==== Sys2Proof/Machine/Link.lean ====
section
/-!
DEFINITION. The link at the sequencer: `TSEND`, `TRECV`, `COLL`, the start of send-queue entries, contributions at the switch units
(R381 to R388).
-/

namespace Sys2Proof.Machine

/-! ### TSEND (R381, R382) -/

/-- Whether a destination word names this device and a core of the context. -/
def State.ownDest (s : State) (x : Nat) (w : Word) : Bool :=
  bf w.toNat 0 12 = s.devid && (s.ctx x).cores.toNat.testBit (bf w.toNat 12 6)

/-- The channel entry that a destination word takes: its own, else a free one. -/
def Core.chanFor (k : Core) (w : Word) : Option (Nat × Chan) :=
  match k.chtab.find? fun e => e.2.dest = w with
  | some e => some e
  | none => ((List.range 16).find? fun i => ((aget k.chtab i).map fun e => e.pending).getD 0 = 0).map fun i => (i, ⟨w, 0, 0, 0⟩)

/-- TSEND at issue. -/
def State.issueTsend (s : State) (ch : Nat) (t a b : BitVec 6) : State :=
  let k := s.preCore
  let e := k.entry t.toNat
  if e.transient && !e.accepts .copy then s.stallOn .tile
  else s.room ((k.sendQ ch).length < 16) fun s =>
    let w := s.rs 0 a
    let key := s.rs 1 b
    if bf w.toNat 22 42 ≠ 0 || bf key.toNat 32 32 ≠ 0 || (b = 0 && !s.ownDest k.unitCtx w) then s.faultOn .linkArg
    else
      match k.chanFor w with
      | none => s.stallOn (.linkq true (k.chtab.map fun e => bf e.2.dest.toNat 0 12))
      | some (i, e) =>
        if 16 ≤ e.pending then s.stallOn (.linkq true [bf w.toNat 0 12])
        else s.takeHandle t .copy fun s =>
          let (id, s) := s.newId
          let m : LqCmd := { LqCmd.zero with
            id := id, op := .tsend, treg := t, handle := s.rt 2 t, dest := w, key := key.truncate 32, msg := e.sent % 2 ^ 24 }
          s.onSeqCore fun k =>
            { k.onSendQ ch fun q => q ++ [m] with
              chtab := aput k.chtab i { e with key := key.truncate 32, pending := e.pending + 1, sent := e.sent + 1 } }

/-- TSEND. -/
def execSeqTsend (p : Pred) (ch : BitVec 2) (t a b : BitVec 6) (s : State) : Host.Outcome State Fault Refusal :=
  s.slotRun p fun s => s.issueTsend ch.toNat t a b

/-- LINK_SEND_ENTRY_START: the next entry of queue `n` of a core sends its TNOTE. In RECOVERING, a note that was acknowledged before the
fault is not sent again; when later packets to that device follow it, the pull that it got is served (R121). -/
def evLinkSendEntryStart (s : State) : State :=
  let c := s.req.core
  let q := s.req.n
  let co := s.core c
  match co.lqNext q with
  | none => s
  | some m =>
    if m.op ≠ .tsend || s.seqHeld c then s
    else
      let x := co.unitCtx
      let dev := bf m.dest.toNat 0 12
      let h := m.handle
      let (id, s) := s.newId
      let s := { s with remote := aput s.remote id (RReq.mk id (.lq c q m.id) false (x / 16) (x % 16) false 0 8 RStat.waiting 0 0) }
      let s := s.onCore c fun k => k.onLq q m.id fun m => { m with started := true, remote := [id] }
      let s := s.sendFor x { Packet.zero with
        op := 0x10, dst := dev, key := m.key, roff := m.dest, opx := BitVec.ofNat 16 c
        payload := bytesOfNat 8 ((hRows h - 1) ||| (hCols h - 1) <<< 10 ||| hFmt h <<< 22 ||| (m.msg % 2 ^ 24) <<< 32), len := 7 } (some id)
      let k := s.ctx x
      let pulled : Bool := k.st = .recovering && !(s.reqOpen id)
        && (k.outs.drop k.outPos).any fun o => o.dst = dev && o.op = 0x12 && bf o.roff.toNat 0 24 = m.msg
      if pulled then s.servePull c q m dev (bf m.dest.toNat 12 6) (bf m.dest.toNat 18 4) else s

/-! ### TRECV (R383) -/

/-- The message number of the first logged fragment for a receive queue of a core of a RECOVERING context whose message is not being
pulled yet (R121, R376). -/
def State.loggedMessage (s : State) (x c q : Nat) : Option Nat :=
  if (s.ctx x).st = .recovering then
    ((s.ctx x).replay.find? fun e =>
      let w := natOfBytes (e.payload.take 8)
      e.kind = 3 && bf w 0 4 = q && e.core = c && !((s.core c).recvQ q).pulls.any fun p => p.msg = bf w 8 24).map fun e =>
        bf (natOfBytes (e.payload.take 8)) 8 24
  else none

/-- A tile for a logged message: nothing is asked for; a pull that was not acknowledged goes again with its number (R121). -/
def State.pullLogged (s : State) (c q x treg msg : Nat) (handle : Word) : State :=
  let (id, s) := s.newId
  let n : Note := ⟨msg, hRows handle, hCols handle, hFmt handle⟩
  let s := s.onCore c fun k => k.onRecvQ q fun r => { r with pulls := r.pulls ++ [⟨msg, id, BitVec.ofNat 6 treg, handle, 0, n.bytes⟩] }
  let k := s.ctx x
  match (k.outs.drop k.outPos).find? fun o => o.op = 0x11 && bf o.roff.toNat 12 6 = c && bf o.roff.toNat 18 4 = q && bf o.roff.toNat 32 24 = msg with
  | none => s
  | some o =>
    let (rq, s) := s.newId
    let s := { s with remote := aput s.remote rq (RReq.mk rq (.recv c q id) false (x / 16) (x % 16) false 0 0 RStat.waiting 0 0) }
    s.sendFor x { Packet.zero with op := 0x11, dst := o.dst, roff := o.roff } (some rq)

/-- TRECV at issue. -/
def State.issueTrecv (s : State) (t : BitVec 6) (q : Nat) : State :=
  let k := s.preCore
  let e := k.entry t.toNat
  let r := k.recvQ q
  let x := k.unitCtx
  let logged := s.loggedMessage x s.seqId q
  let owned : Bool := match r.owner with | .band _ => true | _ => false
  if e.transient && !e.accepts .filler then s.stallOn .tile
  else if 32 ≤ k.ranges.length then s.stallOn .equeue
  else if r.notes.isEmpty && logged.isNone then s.stallOn (.linkq false (r.chan.toList.map fun d => d.1))
  else if owned then s.faultOn .linkQueue
  else if !e.accepts .filler then s.faultOn .tileState
  else
    let h := s.rt 2 t
    let shape : Bool := match r.notes with
      | n :: _ => hRows h = n.rows && hCols h = n.cols && hFmt h = n.fmt
      | [] => true
    if logged.isNone && !shape then s.faultOn .linkShape
    else s.takeHandle t .filler fun s =>
      let c := s.seqId
      let s := match logged with
        | some msg => s.pullLogged c q x t.toNat msg h
        | none => s.pull c q x t.toNat h
      s.onSeqCore fun k =>
        let id := ((k.recvQ q).pulls.getLast?.map fun p => p.id).getD 0
        (k.addRange (hBase h) (hEnd h) (.recv id)).onRecvQ q fun r => { r with owner := .seq }

/-- TRECV. -/
def execSeqTrecv (p : Pred) (t : BitVec 6) (q : BitVec 4) (s : State) : Host.Outcome State Fault Refusal :=
  s.slotRun p fun s => s.issueTrecv t q.toNat

/-! ### COLL (R387, R388) -/

/-- COLL at issue: the group's next ordinal is this entry's. -/
def State.issueColl (s : State) (ch : Nat) (a : BitVec 6) (kind op : Nat) (res : Bool) : State :=
  let k := s.preCore
  s.room ((k.sendQ ch).length < 16) fun s =>
    let addr := (s.rs 0 a).toNat
    let d : BitVec 512 := if addr % 64 = 0 && addr ≤ 0xFFC0 then BitVec.ofNat 512 (natOfBytes (s.scalarBytes k addr 64)) else 0
    if !s.collOk (k.unitCtx / 16) addr kind op res d then s.faultOn .collDesc
    else
      let g := cl d 192 8
      let n := (aget s.collCount g).getD 0
      let (id, s) := s.newId
      let m : LqCmd := { LqCmd.zero with
        id := id, op := .coll, desc := d, descAddr := addr, ordinal := n, opt := BitVec.ofNat 15 (kind + op * 4 + b2n res * 32) }
      { s with collCount := aput s.collCount g (n + 1) }.onSeqCore fun k => k.onSendQ ch fun q => q ++ [m]

/-- COLL. -/
def execSeqColl (p : Pred) (ch : BitVec 2) (a : BitVec 6) (kind : BitVec 2) (op : BitVec 3) (res : Bool) (s : State) :
    Host.Outcome State Fault Refusal :=
  s.slotRun p fun s => s.issueColl ch.toNat a kind.toNat op.toNat res

/-! ### Contributions, and releases of collectives -/

/-- PACKET_CDATA: a contribution fragment arrives at its switch reduction unit, which orders, deduplicates and acknowledges as a device
does (R369). -/
def evPacketCdata (s : State) : State :=
  let p := s.req.pkt
  if p.op ≠ 0x20 || !p.good || p.dst < 4096 then s else s.receive (collKey p) p.dst p State.performCdata

/-- PENNANT_OPERATION_PERFORM; a collective whose release is performed leaves its queue (R391). -/
def linkPennantPerformed (s : State) : State := (evPennantOperationPerform s).settleLinks
/-- PENNANT_OPERATION_PERFORM. -/
def execPennantOperationPerform (s : State) : Host.Outcome State Fault Refusal := .next (linkPennantPerformed s)

/-! ### The steps -/

/-- LINK_SEND_ENTRY_START. -/
def execLinkSendEntryStart (s : State) : Host.Outcome State Fault Refusal := .next (evLinkSendEntryStart s)
/-- PACKET_CDATA. -/
def execPacketCdata (s : State) : Host.Outcome State Fault Refusal := .next (evPacketCdata s)

end Sys2Proof.Machine
end

