-- ==== Sys2Proof/Machine/Control.lean ====
section
/-!
DEFINITION. The control port's commands on partitions, descriptors, launches, pennants and counters (R98 to R105, R130, R273, R296 to
R298, R314, R326, R331, R406 to R409, R437). A request names its partition and context in `part` and `ctx`.
-/

namespace Sys2Proof.Machine

/-- The partition that a request names. -/
def State.rp (s : State) : Nat := s.req.part % 16
/-- The context slot that a request names. -/
def State.rx (s : State) : Nat := 16 * s.rp + s.req.ctx % 16
/-- The core that a request names. -/
def State.rcore (s : State) : Nat := s.req.core % 64
/-- The 64-bit value that a request writes. -/
def State.rv (s : State) : Word := BitVec.ofNat 64 s.req.value

/-! ### Partition registers (R98, R99, R101, R102, R314) -/

/-- Whether a core of a mask is named by the CORES of a context of a partition that is neither EMPTY nor RETIRED. -/
def State.coresNamed (s : State) (p : Nat) (m : Word) : Bool :=
  (List.range 16).any fun x =>
    let k := s.ctx (16 * p + x)
    k.st ≠ .empty && k.st ≠ .retired && (k.cores &&& m) ≠ 0

/-- CORE_MASK_WRITE: a core that leaves the partition gives its credits back. -/
def evCoreMaskWrite (s : State) : State :=
  s.ctl fun s =>
  let p := s.rp
  let m := s.rv
  let gone := (s.part p).cores &&& ~~~m
  if (List.range 16).any fun q => q ≠ p && ((s.part q).cores &&& m) ≠ 0 then s.answer .coreOwned
  else if s.partBusy p then s.answer .partitionBusy
  else if s.coresNamed p gone then s.answer .coreOwned
  else
    ((s.onCores gone fun _ k => { k with credits := 0 }).onPart p fun q => { q with cores := m }).answer .ok

/-- ROOT_MASK_WRITE. -/
def evRootMaskWrite (s : State) : State :=
  s.ctl fun s =>
  let p := s.rp
  let m : BitVec 16 := s.rv.truncate 16
  if (List.range 16).any fun q => q ≠ p && ((s.part q).roots &&& m) ≠ 0 then s.answer .rootOwned
  else if s.partBusy p then s.answer .partitionBusy
  else (s.onPart p fun q => { q with roots := m }).answer .ok

/-- Whether two polder ranges share a frame. -/
def polderMeets (a b : Word) : Bool :=
  let f := fun (w : Word) => bf w.toNat 32 27
  let n := fun (w : Word) => bf w.toNat 0 27
  baseHome a = baseHome b && f a < f b + n b && f b < f a + n a && n a ≠ 0 && n b ≠ 0

/-- POLDER_RANGE_WRITE: range `n` of the list; reserved bits are discarded (R5). -/
def evPolderRangeWrite (s : State) : State :=
  s.ctl fun s =>
  let p := s.rp
  let w := s.rv &&& 0xE7FFFFFF07FFFFFF#64
  if s.partBusy p then s.answer .partitionBusy
  else if 1 < baseHome w then s.answer .polderHome
  else if (List.range 16).any fun q => q ≠ p && (s.part q).polders.toList.any fun e => baseSet e && polderMeets e w then
    s.answer .polderOverlap
  else (s.onPart p fun q => { q with polders := q.polders.setIfInBounds s.req.n w }).answer .ok

/-- VECTOR_PENDING_CLEAR: W1C. -/
def evVectorPendingClear (s : State) : State :=
  s.ctl fun s => (s.onPart s.rp fun q => { q with vecs := q.vecs &&& ~~~s.rv }).answer .ok

/-- CP_REGISTER_WRITE: the registers without a behaviour of their own, by register-space address (R408, R409): HEALTH's UEF, the group
table, BANDQ, the cancel id word, the launch select. Reserved bits are discarded, other addresses ignore the write. -/
def evCpRegisterWrite (s : State) : State :=
  s.ctl fun s =>
  let a := s.req.addr
  let v := s.rv
  if a % 8 ≠ 0 then s.answer .cpFrame
  else
    let t : State :=
      if a = 0x8 then s.setHealth (if v.getLsbD 6 then s.health &&& ~~~(1#128 <<< 70) else s.health)
      else if 0x1000 ≤ a && a < 0x1800 then
        let w := v &&& ~~~0x7FFFFF#64
        { s with groups := if w = 0 then adel s.groups ((a - 0x1000) / 8) else aput s.groups ((a - 0x1000) / 8) w }
      else if 0x1000000 ≤ a && a < 0x2000000 && a % 0x100000 = 0x10 then
        s.onPart ((a - 0x1000000) / 0x100000) fun q => { q with bandq := v.toNat % 2 ^ 14 }
      else if 0x11000000 ≤ a && a < 0x12000000 && a % 0x10000 = 0xC00 then
        s.onCtx ((a - 0x11000000) / 0x10000) fun k => { k with cancelWord := v }
      else if 0x11000000 ≤ a && a < 0x12000000 && a % 0x10000 = 0xC10 then
        s.onCtx ((a - 0x11000000) / 0x10000) fun k => { k with launchSel := v.truncate 32 }
      else s
    t.answer .ok

/-! ### Descriptors (R103 to R105) -/

/-- Why a base write is refused: its form, then the polders (R103). -/
def baseStatus (q : Partition) (w : Word) : Option Status :=
  if !baseSet w then (if w = 0 then none else some .cpFrame)
  else if 1 < baseHome w || bf w.toNat 40 21 ≠ 0 then some .cpFrame
  else if !q.inPolder (baseHome w) (baseFrame w) then some .polderFault
  else none

/-- Whether a descriptor keeps its replay log's base when record mode is on (R104). -/
def Context.logOk (k : Context) : Bool := !k.record || k.logsz = 0 || baseSet k.log

/-- Entries of pre-empted units move with their images when CORES is rewritten: from the j-th core of the old mask to the j-th of the
new one (R108), where they enter the list as after a pre-emption (R340); the units of a start-vector launch are known by their new cores. -/
def State.moveSaved (s : State) (x : Nat) (old new : Word) : State :=
  let mine := fun (e : LEntry) => e.saved && e.ctx.toNat == x % 16
  let dest := fun (c : Nat) => if old.toNat.testBit c then ((bitsOf new.toNat 64)[logical old c]?).getD c else c
  let from_ := (bitsOf old.toNat 64).map fun c => (dest c, (((s.core c).returning ++ (s.core c).list).filter mine).map fun e =>
    { e with cores := e.cores.map dest, unit := if e.kind = .seqUnit && e.task.isNone then dest e.unit else e.unit })
  let s := s.onCores old fun _ k => { k with list := k.list.filter fun e => !mine e, returning := k.returning.filter fun e => !mine e }
  let s := from_.foldl (fun s e => s.onCore e.1 fun k => { k with returning := k.returning ++ e.2 }) s
  s.onCtx x fun q => { q with
    launches := q.launches.map fun (l : Nat × Launch) => (l.1, { l.2 with
      vector := l.2.vector.map fun v => v.map fun (e : Nat × Word) => (dest e.1, e.2)
      ended := if l.2.vector.isSome then l.2.ended.map dest else l.2.ended
      retired := if l.2.vector.isSome then l.2.retired.map dest else l.2.retired })
    images := q.images.map fun (e : Nat × SaveImage) =>
      (e.1, { e.2 with unit := e.2.unit.map fun u => if u.task.isNone then { u with index := dest u.index } else u }) }

/-- A write of a descriptor word that is checked: `ok` names the field's own refusal. -/
def State.descField (s : State) (late : Bool) (bad : Option Status) (f : Context → Context) : State :=
  let k := s.ctx s.rx
  let here : Bool := match k.st with
    | .empty | .loading => true
    | .ready | .preempted => late
    | _ => false
  if !here then s.answer .contextBusy
  else
    match bad with
    | some st => s.answer st
    | none => if !(f k).logOk then s.answer .contextBases else (s.onCtx s.rx f).answer .ok

/-- DESCRIPTOR_WRITE: the word of the descriptor at byte `addr` (R103): RO fields and reserved bits are ignored; SEQ, ENGQ and LEAF of
SSET read 1 (R109); a CORES of another size beside a save image is CONTEXT_BUSY (log entry 111). -/
def evDescriptorWrite (s : State) : State :=
  s.ctl fun s =>
  let q := s.part s.rp
  let k := s.ctx s.rx
  let w := s.rv
  let base := fun (f : Context → Context) => s.descField false (baseStatus q w) f
  if s.req.addr % 8 ≠ 0 || 128 ≤ s.req.addr then s.answer .cpFrame
  else
    match s.req.addr / 8 with
    | 0 => s.descField true none fun k => { k with record := w.getLsbD 12 }
    | 1 => base fun k => { k with ttab := w }
    | 2 => base fun k => { k with ptab := w }
    | 3 => base fun k => { k with log := w }
    | 4 => s.descField false none fun k => { k with logsz := w.truncate 32 }
    | 5 => base fun k => { k with save := w }
    | 6 => s.descField true none fun k => { k with sset := w.truncate 10 ||| 0x19 }
    | 7 => base fun k => { k with keys := w }
    | 8 => base fun k => { k with hot := w }
    | 9 => base fun k => { k with frec := w }
    | 10 =>
      let bad : Option Status :=
        if (w &&& ~~~q.cores) ≠ 0 then some .coreOwned
        else if !k.images.isEmpty && popcount w.toNat 64 ≠ popcount k.cores.toNat 64 then some .contextBusy
        else none
      let t := s.descField true bad fun k => { k with cores := w }
      if t.resp.status = .ok then t.moveSaved s.rx k.cores w else t
    | _ => s.answer .ok

/-- IMAGE_LOAD_OPEN: EMPTY to LOADING; CORES must still be cores of the partition, which an EMPTY slot's are not held to (R98, R25; log entry 111). -/
def evImageLoadOpen (s : State) : State :=
  s.ctl fun s =>
  let k := s.ctx s.rx
  if k.st ≠ .empty then s.answer .contextBusy
  else if baseSet k.ttab && baseSet k.ptab && baseSet k.frec && baseSet k.save && (k.logsz = 0 || baseSet k.log) && k.cores ≠ 0
      && (k.cores &&& ~~~(s.part s.rp).cores) = 0 then
    (s.onCtx s.rx fun k => { k with st := .loading }).answer .ok
  else s.answer .contextBases

/-! ### Start vectors, retirement (R105, R130) -/

/-- The 64-bit words that little-endian bytes stand for. -/
def wordsOf (bs : List Byte) (n : Nat) : List Word := (List.range n).map fun i => BitVec.ofNat 64 (natOfBytes ((bs.drop (8 * i)).take 8))

/-- START_VECTOR_WRITE: the 512-byte block in `bytes` takes effect as one value; a shorter write is CP_FRAME (log entry 111). -/
def evStartVectorWrite (s : State) : State :=
  s.ctl fun s =>
  let x := s.rx
  let k := s.ctx x
  let v := ((List.range 64).zip (wordsOf s.req.bytes 64)).filter fun e => e.2 ≠ 0
  if s.req.bytes.length ≠ 512 then s.answer .cpFrame
  else if k.st ≠ .ready then s.answer .contextBusy
  else if v.isEmpty then s.answer .startEmpty
  else if v.any fun e => !k.cores.toNat.testBit e.1 then s.answer .startCore
  else if v.any fun e => e.2.toNat % 32 ≠ 0 then s.answer .startAlign
  else (((s.openLaunch x (some v)).2.onCtx x fun k => { k with start := v }).log x 1 s.req.bytes).answer .ok

/-- Drops what the layout units hold of a context, with its hotness folded in (R274). -/
def State.dropCopies (s : State) (x : Nat) : State :=
  (List.range 64).foldl (fun s c =>
    let k := s.core c
    if k.tlb.isEmpty && k.tlrs.isEmpty then s
    else (k.tlb.filter fun t => t.ctx = x).foldl State.foldHot (s.setCore c { k with
      tlb := k.tlb.filter fun t => t.ctx ≠ x, tlrs := k.tlrs.filter fun t => t.ctx ≠ x })) s

/-- CONTEXT_RETIRE: its launches are cancelled, everything that it holds is discarded (R105, R132). -/
def evContextRetire (s : State) : State :=
  s.ctl fun s =>
  let x := s.rx
  match (s.ctx x).st with
  | .ready | .preempted | .failed =>
    let s := ((s.stopContext x).cancelLaunches x).dropCopies x
    (s.onCtx x fun k => { k with st := .retired, images := [], freezing := [], replay := [] }).answer .ok
  | _ => s.answer .contextBusy

/-- CONTEXT_SCRUB: the slot returns to its reset values; the check values of its region indices count on (R379). -/
def evContextScrub (s : State) : State :=
  s.ctl fun s =>
  if (s.ctx s.rx).st = .retired then (s.onCtx s.rx fun k => { Context.reset with checks := k.checks }).answer .ok else s.answer .contextBusy

/-! ### Memory, pages and translation (R273, R280, R437) -/

/-- The status of a front-end access that fails: POLDER_FAULT for the polder check, CP_FRAME otherwise (R437). -/
def frontStatus (k : FKind) : Status := if k = .polderFault then .polderFault else .cpFrame

/-- CONTROL_PORT_DATA_WRITE: `bytes` at the tensor virtual address `addr`, logged as kind 2 with the address before the bytes (log
entry 6). -/
def evControlPortDataWrite (s : State) : State :=
  s.ctl fun s =>
  let x := s.rx
  let bs := s.req.bytes
  if bs.length % 8 ≠ 0 || 4096 < bs.length || bs.isEmpty || !baseSet (s.ctx x).ttab then s.answer .cpFrame
  else
    match s.frontWrite x (BitVec.ofNat 64 s.req.addr) bs with
    | .error k => s.answer (frontStatus k)
    | .ok t => (t.log x 2 (bytesOfNat 8 s.req.addr ++ bs)).answer .ok

/-- Whether an address lies on a page of a tensor. -/
def onPage (t : BitVec 512) (tensor page : Nat) (a : Word) : Bool :=
  decide (tensorOf a = tensor) && decide (offsetOf a / tlrPage t = page)

/-- The agents of a context that wait for a page go on (R273, R293): parked bands, agents that a fetch fault stopped, parked copies, a
stopped array stream. -/
def State.resumePage (s : State) (x : Nat) (t : BitVec 512) (tensor page : Nat) : State :=
  let here := onPage t tensor page
  (List.range 64).foldl (fun (s : State) c =>
    let k := s.core c
    let s := k.bands.foldl (fun (s : State) b =>
      if b.2.slot = x && here b.2.faultVa && (b.2.st == .parked || (b.2.st == .halted && b.2.halt == .fault && b.2.unfinished.isNone && b.2.faultMask = 0)) then
        s.resumeAgent (.band c b.1) else s) s
    let s := if k.runs x && k.seq.phase == .faulted && here k.seq.pc && (k.seq.fault.map fun f =>
        ({ FRec.zero with kind := f.kind, seqf := true } : FRec).isFetch).getD false then s.resumeAgent (.seq c) else s
    let s := (List.range 4).foldl (fun (s : State) ch =>
      match (k.chan ch).head? with
      | some m => if m.ctx = x && m.st == CopySt.parked && (m.parts m.start).any (fun p => here p.2.1) then s.resumeAgent (.chan c ch) else s
      | none => s) s
    match k.arr.stream, k.arr.queue.head? with
    | some st, some q =>
      if k.runs x && st.stopped && k.arr.fault == some ArrFault.operand && cdTensor q.desc = tensor then s.resumeAgent (.array c) else s
    | _, _ => s) s

/-- The leaf entry that an address names for a control-node page command: TLR, tensor, page, home, byte, entry. -/
def State.pageAt (s : State) (x : Nat) (a : Word) : Except Status (BitVec 512 × Nat × Nat × Nat × Nat × Word) :=
  if !baseSet (s.ctx x).ttab then .error .cpFrame
  else
    match s.checkTensor none x a 1 with
    | .error k => .error (frontStatus k)
    | .ok t =>
      let page := offsetOf a / tlrPage t
      match s.leaf x t page with
      | .error k => .error (frontStatus k)
      | .ok none => .error .cpFrame
      | .ok (some (h, ea, e)) => .ok (t, tensorOf a, page, h, ea, e)

/-- CONTROL_NODE_MAP: the page of address `addr`, UNMAPPED, gets the leaf entry `value` (its `L` and `D` cleared), and the agents that
wait for the page go on. -/
def evControlNodeMap (s : State) : State :=
  s.ctl fun s =>
  let x := s.rx
  match s.pageAt x (BitVec.ofNat 64 s.req.addr) with
  | .error st => s.answer st
  | .ok (t, tensor, page, h, ea, e) =>
    let w := s.rv &&& ~~~(3#64 <<< 43)
    if leafV e || leafVst e ≠ 0 then s.answer .contextBusy
    else if !leafV w || !leafOk w (tlrPage t) then s.answer .cpFrame
    else if baseHome w ≤ 1 && !(s.part s.rp).framesIn (baseHome w) (baseFrame w) (tlrPage t / 4096) then s.answer .polderFault
    else ((s.homeWrite h ea (bytesOfNat 8 w.toNat)).resumePage x t tensor page).answer .ok

/-- CONTROL_NODE_UNMAP: the page of address `addr` goes UNMAPPED and its translation is invalidated. -/
def evControlNodeUnmap (s : State) : State :=
  s.ctl fun s =>
  let x := s.rx
  match s.pageAt x (BitVec.ofNat 64 s.req.addr) with
  | .error st => s.answer st
  | .ok (_, tensor, page, h, ea, e) =>
    if !leafV e && leafVst e ≠ 2 then s.answer .contextBusy
    else
      let w := e &&& ~~~(1#64 <<< 63 ||| 7#64 <<< 40)
      ((s.homeWrite h ea (bytesOfNat 8 w.toNat)).invalidate x (some tensor) page page none).answer .ok

/-- TRANSLATION_INVALIDATE: the context's whole translation when `m` = 0; else tensor `n`, pages `addr` to `value`. -/
def evTranslationInvalidate (s : State) : State :=
  s.ctl fun s =>
  if s.req.m = 0 then (s.invalidate s.rx none 0 (2 ^ 36) none).answer .ok
  else (s.invalidate s.rx (some (s.req.n % 65536)) s.req.addr s.req.value none).answer .ok

/-- TRANSLATION_INVALIDATE_ACK: invalidate `n` of the list is acknowledged once its tagged requests have been performed; a migration's
copy may then begin. -/
def evTranslationInvalidateAck (s : State) : State :=
  match s.invals[s.req.n]? with
  | none => s
  | some v =>
    if v.accs.any s.outstanding then s
    else
      { s with
        invals := s.invals.eraseIdx s.req.n
        migs := updWhere (fun g => v.mig = some g.id) (fun g => { g with acked := true }) s.migs }

/-! ### Pennants, counters, cancels, free frames (R298, R326, R331, R357, R409) -/

/-- PENNANT_WORD_WRITE: pennant `n` of the context gets the word `value`. A word that is freed answers its waiters. -/
def evPennantWordWrite (s : State) : State :=
  s.ctl fun s =>
  let x := s.rx
  let (h, a) := (s.ctx x).penPlace (s.req.n % 65536)
  if !baseSet (s.ctx x).ptab then s.answer .cpFrame
  else if !(s.part s.rp).inPolder h (a / 4096) then s.answer .polderFault
  else
    let w := if s.rv.getLsbD 63 && s.rv.getLsbD 62 then s.rv &&& ~~~(3#64 <<< 48) else s.rv
    let s := s.homeWrite h a (bytesOfNat 8 w.toNat)
    if baseSet w then
      (if w.getLsbD 62 then s else s.scanWaiters h a).answer .ok
    else
      ((s.pens.filter fun o => o.waiting && o.forward.isNone && o.home = h && o.addr = a).foldl
        (fun s o => s.penFail o .pennantFree) s).answer .ok

/-- DEP_COUNTER_WRITE: counter `n` gets the count and OVF of `value`, while no launch of the context is active. -/
def evDepCounterWrite (s : State) : State :=
  s.ctl fun s =>
  let x := s.rx
  if (s.ctx x).active then s.answer .contextBusy
  else
    let c : Int := (s.rv.truncate 32).toInt
    (s.onCtx x fun k => { k with deps := aput k.deps (s.req.n % 256) ⟨c, s.rv.getLsbD 32⟩ }).answer .ok

/-- CANCEL_COMMAND: a cancel of level `value` [2:0], with the id word last written. -/
def evCancelCommand (s : State) : State :=
  s.ctl fun s =>
  let x := s.rx
  if 4 < s.rv.toNat % 8 then s.answer .cpFrame
  else
    match cancelOf x (s.rv.toNat % 8) (s.ctx x).cancelWord 0 with
    | none => s.answer .cpFrame
    | some m => if m.level ≤ 1 && m.id = 0 then s.answer .cpFrame else (s.sendCancel 64 m).answer .ok

/-- FREE_FRAME_APPEND: a run joins the tail of list `n` (0 HBM, 1 package store). -/
def evFreeFrameAppend (s : State) : State :=
  s.ctl fun s =>
  let p := s.rp
  let h := s.req.n % 2
  let w := s.rv
  let f := bf w.toNat 32 27
  let n := bf w.toNat 0 27
  let l := if h = 0 then (s.part p).free0 else (s.part p).free1
  if (w &&& ~~~0x07FFFFFF07FFFFFF#64) ≠ 0 || n = 0 then s.answer .cpFrame
  else if !(s.part p).framesIn h f n then s.answer .polderFault
  else if 1024 ≤ l.length then s.answer .framesFull
  else
    (s.onPart p fun q => if h = 0 then { q with free0 := q.free0 ++ [(f, n)] } else { q with free1 := q.free1 ++ [(f, n)] }).answer .ok

/-! ### The steps -/

/-- CORE_MASK_WRITE. -/
def execCoreMaskWrite (s : State) : Host.Outcome State Fault Refusal := .next (evCoreMaskWrite s)
/-- ROOT_MASK_WRITE. -/
def execRootMaskWrite (s : State) : Host.Outcome State Fault Refusal := .next (evRootMaskWrite s)
/-- POLDER_RANGE_WRITE. -/
def execPolderRangeWrite (s : State) : Host.Outcome State Fault Refusal := .next (evPolderRangeWrite s)
/-- VECTOR_PENDING_CLEAR. -/
def execVectorPendingClear (s : State) : Host.Outcome State Fault Refusal := .next (evVectorPendingClear s)
/-- CP_REGISTER_WRITE. -/
def execCpRegisterWrite (s : State) : Host.Outcome State Fault Refusal := .next (evCpRegisterWrite s)
/-- DESCRIPTOR_WRITE. -/
def execDescriptorWrite (s : State) : Host.Outcome State Fault Refusal := .next (evDescriptorWrite s)
/-- IMAGE_LOAD_OPEN. -/
def execImageLoadOpen (s : State) : Host.Outcome State Fault Refusal := .next (evImageLoadOpen s)
/-- START_VECTOR_WRITE. -/
def execStartVectorWrite (s : State) : Host.Outcome State Fault Refusal := .next (evStartVectorWrite s)
/-- CONTEXT_RETIRE. -/
def execContextRetire (s : State) : Host.Outcome State Fault Refusal := .next (evContextRetire s)
/-- CONTEXT_SCRUB. -/
def execContextScrub (s : State) : Host.Outcome State Fault Refusal := .next (evContextScrub s)
/-- CONTROL_PORT_DATA_WRITE. -/
def execControlPortDataWrite (s : State) : Host.Outcome State Fault Refusal := .next (evControlPortDataWrite s)
/-- CONTROL_NODE_MAP. -/
def execControlNodeMap (s : State) : Host.Outcome State Fault Refusal := .next (evControlNodeMap s)
/-- CONTROL_NODE_UNMAP. -/
def execControlNodeUnmap (s : State) : Host.Outcome State Fault Refusal := .next (evControlNodeUnmap s)
/-- TRANSLATION_INVALIDATE. -/
def execTranslationInvalidate (s : State) : Host.Outcome State Fault Refusal := .next (evTranslationInvalidate s)
/-- TRANSLATION_INVALIDATE_ACK. -/
def execTranslationInvalidateAck (s : State) : Host.Outcome State Fault Refusal := .next (evTranslationInvalidateAck s)
/-- PENNANT_WORD_WRITE. -/
def execPennantWordWrite (s : State) : Host.Outcome State Fault Refusal := .next (evPennantWordWrite s)
/-- DEP_COUNTER_WRITE. -/
def execDepCounterWrite (s : State) : Host.Outcome State Fault Refusal := .next (evDepCounterWrite s)
/-- CANCEL_COMMAND. -/
def execCancelCommand (s : State) : Host.Outcome State Fault Refusal := .next (evCancelCommand s)
/-- FREE_FRAME_APPEND. -/
def execFreeFrameAppend (s : State) : Host.Outcome State Fault Refusal := .next (evFreeFrameAppend s)

end Sys2Proof.Machine
end

