-- ==== Sys2Proof/Machine/Debug.lean ====
section
/-!
DEFINITION. Security, debug rights and the watch's control-port commands (R123 to R125, R392, R397 to R400, R409, R410).
-/

namespace Sys2Proof.Machine

/-! ### Rights (R123, R124) -/

/-- The partition that debug rights on a core are those of: that of the context running there, else of the partition that owns it. -/
def State.corePart (s : State) (c : Nat) : Option Nat :=
  match (s.core c).owner with
  | some x => some (x / 16)
  | none => (List.range 16).find? fun p => (s.part p).cores.toNat.testBit c

/-- Whether the request has the rights of a debugger on a core: every partition's at level VENDOR, its own with the tenant's key at level
TENANT; none beyond the given power state. -/
def State.mayDebug (s : State) (c power : Nat) : Bool :=
  s.pst ≤ power && ((List.range 16).any (fun p => (s.part p).debug = 2)
    || match s.corePart c with
      | some p => (s.part p).debug = 1 && s.req.auth && s.rp = p
      | none => false)

/-- A watch command on the request's core: refused with DEBUG_DENIED beyond the rights. -/
def State.watchCmd (s : State) (f : State → Nat → State) : State :=
  s.ctl fun s => if s.mayDebug s.rcore 2 then f s s.rcore else s.answer .debugDenied

/-! ### Watch registers (R392, R397, R399, R400) -/

/-- The trigger state after an enable bit is written. -/
def enable (e : Bool) (t : Trig) : Trig := if !e then .off else if t = .off then .armed else t

/-- WCTL_WRITE. -/
def evWctlWrite (s : State) : State :=
  s.watchCmd fun s c =>
  let w := s.rv.toNat
  let e := bf w 14 6
  if e < 20 || 40 < e then s.answer .watchParam
  else
    (s.onWatch c fun x => { x with
      dthr := BitVec.ofNat 32 (bf w 32 32), wexp := e, mslice := BitVec.ofNat 8 (bf w 3 8), memt := bitN w 2, drift := bitN w 1
      ilk := bitN w 0, itrig := enable (bitN w 0) x.itrig }).answer .ok

/-- Writes an entry of a list of breakpoints. -/
def putBreak (l : List (Nat × Break)) (n : Nat) (w : BitVec 128) : List (Nat × Break) :=
  if w = 0 then adel l n else aput l n ⟨w, enable (w.getLsbD 0) (((aget l n).map fun b => b.trig).getD .off)⟩

/-- BREAKPOINT_WRITE: entry `n` of the sequencer (`m` = 0) or of slice `m` - 1; reserved bits are discarded. -/
def evBreakpointWrite (s : State) : State :=
  s.watchCmd fun s c =>
  let n := s.req.n % 8
  (s.onWatch c fun x =>
    if s.req.m = 0 then { x with sbp := putBreak x.sbp n ((s.rv &&& ~~~0x1C#64).setWidth 128) }
    else { x with lbp := putBreak x.lbp (8 * ((s.req.m - 1) % 8) + n) ((s.rv &&& ~~~0x4#64).setWidth 128) }).answer .ok

/-- WATCHPOINT_WRITE: entry `n`. -/
def evWatchpointWrite (s : State) : State :=
  s.watchCmd fun s c =>
  (s.onWatch c fun x => { x with wps := putBreak x.wps (s.req.n % 4) (BitVec.ofNat 128 s.req.value &&& ~~~0xFFFFFFF0#128) }).answer .ok

/-! ### Halt and resume (R398, R402) -/

/-- The band slot that a halt command names. -/
def haltSlot (w : Nat) : Nat := 16 * bf w 3 3 + bf w 6 4

/-- Halts the sequencer of a core at its next bundle. -/
def State.haltSeq (s : State) (c : Nat) : State :=
  let k := s.core c
  match k.unit with
  | none => s
  | some _ =>
    if k.seq.halted || k.seq.phase = .ended then s
    else
      ((s.onCore c fun k => { k with seq := { k.seq with halted := true } }).stopReq c ⟨.seq c, .debugHalt, 0, 0, none, none⟩).updateHeld k.unitCtx

/-- Halts a band at its next instruction. -/
def State.haltBand (s : State) (c n : Nat) : State :=
  match s.band c n with
  | none => s
  | some b =>
    match b.st with
    | .free | .done | .halted => s
    | _ => (s.laneStop c n .debugHalt 0 b.live none).updateHeld b.slot

/-- HALT_COMMAND: `value` with [0] set. -/
def evHaltCommand (s : State) : State :=
  s.watchCmd fun s c =>
  let w := s.req.value
  if bitN w 0 = bitN w 1 then s.answer .cpFrame
  else if !bitN w 0 then s
  else (if bitN w 2 then s.haltBand c (haltSlot w) else s.haltSeq c).answer .ok

/-- Whether an agent's stop is still to be reported. -/
def Core.stopPending (k : Core) (a : Agent) : Bool := k.watch.stops.any fun r => r.who = a

/-- Resumes the halted sequencer of a core: the stopped bundle issues, and its breakpoint does not fire for that issue (R398). -/
def State.resumeSeqHalt (s : State) (c : Nat) : State :=
  (s.onCore c fun k => if k.seq.halted then { k with seq := { k.seq with halted := false, bpSkip := true } } else k).updateHeld
    (s.core c).unitCtx

/-- Resumes a band that a debug halt stopped. -/
def State.resumeBandHalt (s : State) (c n : Nat) : State :=
  match s.band c n with
  | none => s
  | some b =>
    if b.st = .halted && b.halt = .debug then (s.onBand c n fun b => { b.resume s.cycle with bpSkip := true }).updateHeld b.slot else s

/-- RESUME_COMMAND: `value` with [1] set; an agent whose stop is not reported yet is still stopping. -/
def evResumeCommand (s : State) : State :=
  s.watchCmd fun s c =>
  let w := s.req.value
  if bitN w 0 = bitN w 1 then s.answer .cpFrame
  else if !bitN w 1 then s
  else
    let n := haltSlot w
    let who : Agent := if bitN w 2 then .band c n else .seq c
    if (s.core c).stopPending who then s.answer .contextBusy
    else (if bitN w 2 then s.resumeBandHalt c n else s.resumeSeqHalt c).answer .ok

/-! ### Stops are reported (R397, R398) -/

/-- A breakpoint or watchpoint entry after its stop is reported: armed again, or OFF with `E` cleared when `ONCE` is set. -/
def reportEntry (l : List (Nat × Break)) (n : Nat) : List (Nat × Break) :=
  amod l n fun b =>
    if b.trig = .off then b
    else if b.word.getLsbD 1 then { word := b.word &&& ~~~1#128, trig := .off } else { b with trig := .armed }

/-- The entries of a watch after a stop is reported. -/
def Watch.reported (w : Watch) (r : StopReq) : Watch :=
  match r.entry, r.kind, r.who with
  | some n, .breakHit, .seq _ => { w with sbp := reportEntry w.sbp n }
  | some n, .breakHit, _ => { w with lbp := reportEntry w.lbp n }
  | some n, .watchHit, _ => { w with wps := reportEntry w.wps n }
  | _, _, _ => w

/-- Whether the earlier work of a stopping agent has landed: every landing range of the sequencer, every register that an earlier
instruction of the band writes. -/
def State.stopSettled (s : State) (c : Nat) (r : StopReq) : Bool :=
  match r.who with
  | .seq _ => !((s.core c).seq.land.any fun l => s.cycle < l.last)
  | .band _ n =>
    match s.band c n with
    | some b => b.st = .halted && !(b.acc.any fun a => a.kind = .load || a.kind = .atom)
    | none => true
  | _ => true

/-- STOP_REPORT: the stop `n` in the list of core `core` is reported: a record of its kind, vector 7, no sluice. -/
def evStopReport (s : State) : State :=
  let c := s.rcore
  let k := s.core c
  match k.watch.stops[s.req.n]? with
  | none => s
  | some r =>
    if !s.stopSettled c r then s
    else
      let s := s.onWatch c fun w => ({ w with stops := w.stops.eraseIdx s.req.n }).reported r
      let report (s : State) (x : Nat) (f : FRec) : State := ((s.writeRecord x f).2).raiseVector (x / 16) 7 (some (BitVec.ofNat 4 x))
      match r.who with
      | .seq _ =>
        if k.unit.isNone then s else report s k.unitCtx (s.seqRecord c r.kind (r.pc.getD k.seq.pc) r.vaddr 0)
      | .band _ n =>
        match s.band c n with
        | some b => report (s.updateHeld b.slot) b.slot (s.bandRecord c n b r.kind r.mask (r.pc.getD b.pc) r.vaddr 0)
        | none => s
      | _ => s

/-! ### The debug window (R410) -/

/-- DEBUG_WINDOW_SELECT. -/
def evDebugWindowSelect (s : State) : State :=
  s.ctl fun s =>
  let w := s.rv &&& 0xFFFF#64
  if 3 < bf w.toNat 0 4 then s.answer .cpFrame else (s.onWatch s.rcore fun x => { x with dwin := w }).answer .ok

/-- The band slot that the window shows. -/
def dwinBand (w : Word) : Nat := 16 * bf w.toNat 9 3 + bf w.toNat 12 4

/-- Whether a space's agent is stopped; the stores need none. -/
def Core.windowOpen (k : Core) (w : Word) : Bool :=
  match bf w.toNat 0 4 with
  | 2 => k.unit.isSome && k.seq.halted
  | 3 => match aget k.bands (dwinBand w) with
    | some b => b.st = .halted
    | none => true
  | _ => true

/-- The byte at an offset of listed byte runs; 0 outside them. -/
def runByte (l : List (Nat × List Byte)) (o : Nat) : Byte :=
  match l.find? fun r => r.1 ≤ o && o < r.1 + r.2.length with
  | some r => r.2.getD (o - r.1) 0
  | none => 0

/-- The n window bytes from offset o. -/
def State.windowBytes (s : State) (c o n : Nat) : List Byte :=
  let k := s.core c
  let w := k.watch.dwin
  match bf w.toNat 0 4 with
  | 0 => s.tileBytes k (bf w.toNat 4 5 * 0x80000 + o) n
  | 1 => if o < 0x10000 then s.scalarBytes k o n else List.replicate n 0
  | 2 => if o < 0x1000 then ((s.seqBytes k.seq s.cycle (k.seq.readyAt - (s.cycle + 1))).drop o).take n else List.replicate n 0
  | _ =>
    match aget k.bands (dwinBand w) with
    | none => List.replicate n 0
    | some b =>
      if o < 0x1000 then
        let r := b.record s.cycle
        (List.range n).map fun i => runByte r (o + i)
      else if 0x10000 ≤ o && o < 0x20000 then
        (List.range (n / 8)).flatMap fun i =>
          let v := (o - 0x10000) / 8 + i
          if v / 64 < b.vregs then bytesOfNat 8 ((b.vreg (v / 64) (v % 64)).getD (s.free (laneSite false 7 (v / 64) (v % 64)))).toNat
          else bytesOfNat 8 0
      else List.replicate n 0

/-- A window access of n bytes from offset `addr`: the frame's form, the rights, the agent's stop. -/
def State.window (s : State) (power n : Nat) (f : State → Nat → State) : State :=
  s.ctl fun s =>
  let c := s.rcore
  let o := s.req.addr
  if o % 8 ≠ 0 || n % 8 ≠ 0 || n = 0 || 0x80000 ≤ o || 4096 < o % 4096 + n then s.answer .cpFrame
  else if !s.mayDebug c power then s.answer .debugDenied
  else if !(s.core c).windowOpen (s.core c).watch.dwin then s.answer .contextBusy
  else f s c

/-- DEBUG_WINDOW_READ: `n` bytes from window offset `addr`; in P3 of the two stores only (R124). -/
def evDebugWindowRead (s : State) : State :=
  s.window (if bf (s.core s.rcore).watch.dwin.toNat 0 4 ≤ 1 then 3 else 2) s.req.n fun s c => s.answer .ok (s.windowBytes c s.req.addr s.req.n)

/-- A sequencer register written through the window: the word of the SEQ component at its index. -/
def Seq.putWord (q : Seq) (i : Nat) (v : Word) : Seq :=
  let reg := fun (file n : Nat) (v : Word) =>
    ({ q with land := q.land.filter fun l => !(l.file = file && l.reg = n) }).land1 ⟨file, n, some v, 0, 0⟩
  if i < 64 then reg 0 i v
  else if i < 80 then reg 1 (i - 64) v
  else if i < 144 then reg 2 (i - 80) v
  else if i = 144 then reg 3 0 v
  else if i = 145 then reg 4 0 v
  else if i = 146 then { q with rot := v.truncate 5 }
  else if i = 147 then { q with mode := v &&& 0xF#64 }
  else if i = 148 then { q with flag := v &&& 0x3FF#64 }
  else if i = 155 then { q with pc := v &&& ~~~31#64 }
  else q

/-- A band register written through the window: the word of the band record at its index. -/
def Band.putWord (b : Band) (i : Nat) (v : Word) : Band :=
  if i < 112 then b.setB i v
  else if i < 119 then { b with p := b.p.setIfInBounds (i - 112) v }
  else if i = 119 then { b with bp := v.truncate 7 }
  else if i = 120 then { b with pc := v &&& ~~~7#64, popped := [] }
  else if i = 126 then { b with mode := v &&& 0xF#64 }
  else if i = 127 then { b with flag := v &&& 0x3FF#64 }
  else if 0x2000 ≤ i && i < 0x4000 && (i - 0x2000) / 64 < b.vregs then b.setV ((i - 0x2000) / 64) ((i - 0x2000) % 64) v
  else b

/-- DEBUG_WINDOW_WRITE: `bytes` from window offset `addr`. -/
def evDebugWindowWrite (s : State) : State :=
  s.window 2 s.req.bytes.length fun s c =>
    let o := s.req.addr
    let bs := s.req.bytes
    let w := (s.core c).watch.dwin
    let ws := (List.range (bs.length / 8)).zip (wordsOf bs (bs.length / 8))
    let t : State := match bf w.toNat 0 4 with
      | 0 => s.onCore c fun k => { k with tile := k.tile.writeBytes (bf w.toNat 4 5 * 0x80000 + o) bs }
      | 1 => if o < 0x10000 then s.onCore c fun k => { k with scalar := k.scalar.writeBytes o bs } else s
      | 2 => s.onCore c fun k => { k with seq := ws.foldl (fun q e => q.putWord (o / 8 + e.1) e.2) k.seq }
      | _ => s.onBand c (dwinBand w) fun b => ws.foldl (fun b e => b.putWord (o / 8 + e.1) e.2) b
    t.answer .ok

/-! ### Security states (R123, R125) -/

/-- The triggers of a watch go OFF (R397); a stop under way completes. -/
def Watch.disarm (w : Watch) : Watch :=
  { w with itrig := .off, sbp := w.sbp.map fun e => (e.1, { e.2 with trig := .off }), lbp := w.lbp.map fun e => (e.1, { e.2 with trig := .off })
           wps := w.wps.map fun e => (e.1, { e.2 with trig := .off }) }

/-- A cleared trace buffer (R393). -/
def Watch.clearTrace (w : Watch) : Watch := { w with recs := [], tidx := 0, twrap := false }

/-- DEBUG_LEVEL_REQUEST: the partition's level becomes `value` (0 OFF, 1 TENANT, 2 VENDOR). -/
def evDebugLevelRequest (s : State) : State :=
  s.ctl fun s =>
  let p := s.rp
  let q := s.part p
  let ok : Bool := match s.req.value with
    | 0 => true
    | 1 => if s.vendor then q.grant else q.key
    | 2 => s.vendor
    | _ => false
  if !ok then s.answer .debugDenied
  else
    let s := s.onPart p fun q => { q with debug := s.req.value }
    let s := if s.req.value = 0 then s.onCores q.cores fun _ k => { k with watch := k.watch.disarm } else s
    s.answer .ok

/-- Clears the tile stores of a partition's cores and its package-store frames (R125). -/
def State.clearTenant (s : State) (p : Nat) : State :=
  let q := s.part p
  let s := s.onCores q.cores fun _ k => { k with tile := Memory.zero }
  q.polders.toList.foldl (fun s e =>
    if baseSet e && baseHome e = 1 then
      { s with pkg := s.pkg.zeroRange (bf e.toNat 32 27 * 4096) ((bf e.toNat 32 27 + bf e.toNat 0 27) * 4096) }
    else s) s

/-- TENANT_KEY_INSTALL: the partition becomes TENANT-OWNED. -/
def evTenantKeyInstall (s : State) : State :=
  s.ctl fun s => ((s.clearTenant s.rp).onPart s.rp fun q => { q with key := true }).answer .ok

/-- TENANT_KEY_REMOVE: the partition is in PRODUCTION again; a level that this leaves without its ground goes OFF (R123). -/
def evTenantKeyRemove (s : State) : State :=
  s.ctl fun s =>
  let p := s.rp
  let off := (s.part p).debug = 1 && !(s.vendor && (s.part p).grant)
  let s := (s.clearTenant p).onPart p fun q => { q with key := false, debug := if off then 0 else q.debug }
  (if off then s.onCores (s.part p).cores fun _ k => { k with watch := k.watch.disarm } else s).answer .ok

/-- A core when VENDOR-UNLOCKED is left. -/
def Core.leaveVendor (k : Core) : Core := { k with tile := Memory.zero, watch := k.watch.clearTrace.disarm }
/-- A partition when VENDOR-UNLOCKED is left; the grant goes with the level (log entry 114). -/
def Partition.leaveVendor (q : Partition) : Partition := { q with debug := 0, grant := false }

/-- VENDOR_UNLOCK_EXIT: every tile store, the package store and every trace buffer are cleared, every level and trigger goes OFF.
Outside VENDOR-UNLOCKED it is refused (log entry 111). -/
def evVendorUnlockExit (s : State) : State :=
  s.ctl fun s =>
  if !s.vendor then s.answer .debugDenied
  else
    { s with vendor := false, pkg := Memory.zero, cores := s.cores.map Core.leaveVendor, parts := s.parts.map Partition.leaveVendor }.answer .ok

/-! ### The steps -/

/-- WCTL_WRITE. -/
def execWctlWrite (s : State) : Host.Outcome State Fault Refusal := .next (evWctlWrite s)
/-- BREAKPOINT_WRITE. -/
def execBreakpointWrite (s : State) : Host.Outcome State Fault Refusal := .next (evBreakpointWrite s)
/-- WATCHPOINT_WRITE. -/
def execWatchpointWrite (s : State) : Host.Outcome State Fault Refusal := .next (evWatchpointWrite s)
/-- HALT_COMMAND. -/
def execHaltCommand (s : State) : Host.Outcome State Fault Refusal := .next (evHaltCommand s)
/-- RESUME_COMMAND. -/
def execResumeCommand (s : State) : Host.Outcome State Fault Refusal := .next (evResumeCommand s)
/-- STOP_REPORT. -/
def execStopReport (s : State) : Host.Outcome State Fault Refusal := .next (evStopReport s)
/-- DEBUG_WINDOW_SELECT. -/
def execDebugWindowSelect (s : State) : Host.Outcome State Fault Refusal := .next (evDebugWindowSelect s)
/-- DEBUG_WINDOW_READ. -/
def execDebugWindowRead (s : State) : Host.Outcome State Fault Refusal := .next (evDebugWindowRead s)
/-- DEBUG_WINDOW_WRITE. -/
def execDebugWindowWrite (s : State) : Host.Outcome State Fault Refusal := .next (evDebugWindowWrite s)
/-- DEBUG_LEVEL_REQUEST. -/
def execDebugLevelRequest (s : State) : Host.Outcome State Fault Refusal := .next (evDebugLevelRequest s)
/-- TENANT_KEY_INSTALL. -/
def execTenantKeyInstall (s : State) : Host.Outcome State Fault Refusal := .next (evTenantKeyInstall s)
/-- TENANT_KEY_REMOVE. -/
def execTenantKeyRemove (s : State) : Host.Outcome State Fault Refusal := .next (evTenantKeyRemove s)
/-- VENDOR_UNLOCK_EXIT. -/
def execVendorUnlockExit (s : State) : Host.Outcome State Fault Refusal := .next (evVendorUnlockExit s)

end Sys2Proof.Machine
end

