-- ==== Sys2Proof/Machine/LaneSys.lean ====
section
/-!
DEFINITION. Lane tasks, traps, breakpoints and CSRs (R116, R117, R334, R401).
-/

namespace Sys2Proof.Machine

/-! ### Tasks (R334) -/

/-- The launch that a band's work belongs to: its task's, or that of the sequencer unit whose routine it runs. -/
def State.bandLaunch (s : State) (c : Nat) (b : Band) : BitVec 32 :=
  match b.of with
  | .unit slot _ _ => ((aget (s.part b.part.toNat).tasks slot).map fun t => t.launch).getD 0
  | .gang _ _ => ((s.core c).unit.map fun u => u.launch).getD 0

/-- TENQ.NB and LAUNCH.NB of a band: strong writes, which wait for the `ATOM`s that are under way (R305, R333). -/
def State.laneTask (s : State) (h : LHdr) (f : VForm) (launch : Bool) : State :=
  s.laneGo h [] [] none fun s b m _ =>
    let c := s.laneId.1
    if !b.actsOnce h then s.laneNext
    else if b.atomOpen then s.laneWait
    else
      let r := BitVec.ofNat 512 ((List.range 8).foldl (fun a i => a ||| (b.breg (bNum f.a + i)).toNat <<< (64 * i)) 0)
      let flag := fun (s : State) (v : Bool) => (s.onLane fun x => x.setPred f.dst 0 fun _ => v).laneNext
      if !recValid r launch (s.ctx b.slot).cores then s.laneFault .taskInvalid m
      else if (s.core c).credits = 0 then flag s true
      else flag (s.enqueue c b.slot r launch (s.bandLaunch c b)) false

/-- TENQ.NB. -/
def execLaneTenq (h : LHdr) (f : VForm) (s : State) : Host.Outcome State Fault Refusal := .next (s.laneTask h f false)
/-- LAUNCH.NB. -/
def execLaneLaunch (h : LHdr) (f : VForm) (s : State) : Host.Outcome State Fault Refusal := .next (s.laneTask h f true)

/-- DDEC: the decrement, a strong write, goes to the counter. -/
def execLaneDdec (h : LHdr) (f : VForm) (s : State) : Host.Outcome State Fault Refusal :=
  .next (s.laneGo h [] [] none fun s b m _ =>
    let k := b.breg (bNum f.a)
    let n := b.breg (bNum f.b)
    if !b.actsOnce h then s.laneNext
    else if b.atomOpen then s.laneWait
    else if !ddecOk k n then s.laneFault .depArg m
    else (s.sendDec s.laneId.1 b.slot k.toNat n.toInt).laneNext)

/-- DDEC.CANCEL: the cancel goes to the scheduler. -/
def execLaneDdecCancel (h : LHdr) (f : VForm) (s : State) : Host.Outcome State Fault Refusal :=
  .next (s.laneGo h [] [] none fun s b m _ =>
    if !b.actsOnce h then s.laneNext
    else
      match cancelOf b.slot (f.xt.toNat % 8) (b.breg (bNum f.a)) (s.bandLaunch s.laneId.1 b).toNat with
      | some w => (s.sendCancel s.laneId.1 w).laneNext
      | none => s.laneFault .depArg m)

/-! ### TRAP and BKPT (R116, R401) -/

/-- TRAP. -/
def execLaneTrap (h : LHdr) (f : IForm) (s : State) : Host.Outcome State Fault Refusal :=
  .next (s.laneGo h [] [] none fun s _ m _ => if m = 0 then s.laneNext else s.laneFault .trap m (f.imm.setWidth 64))

/-- BKPT: with debugging on, the band stops; it goes on at the next instruction. -/
def execLaneBkpt (h : LHdr) (f : IForm) (s : State) : Host.Outcome State Fault Refusal :=
  .next (s.laneGo h [] [] none fun s b m _ =>
    let c := s.laneId.1
    let n := s.laneId.2
    if m = 0 || (s.part b.part.toNat).debug = 0 then s.laneNext
    else
      ((s.laneNext.stopReq c ⟨.band c n, .bkptHit, (f.imm.setWidth 64) &&& 0xFFFF#64, m, none, some b.pc⟩).onBand c n fun b => b.stop .debug).updateHeld b.slot)

/-! ### CSRs (R116, R117) -/

/-- A band's CSRs: its value, or none where the number is not a band's. -/
def State.laneCsr (s : State) (b : Band) (n : Nat) : Option Word :=
  match n with
  | 0x000 => some b.mode
  | 0x001 => some b.flag
  | 0x002 => some (BitVec.ofNat 64 (s.laneId.1 ||| (s.laneId.2 / 16) <<< 8 ||| (s.laneId.2 % 16) <<< 12
      ||| b.part.toNat <<< 16 ||| (b.ctx.toNat % 16) <<< 20))
  | 0x003 => some (BitVec.ofNat 64 s.cycle)
  | _ => none

/-- A CSR number that is not a band's: ILLEGAL_OP, before the other decode faults (R91). -/
def State.laneIllegal (s : State) (h : LHdr) : State :=
  match s.laneBand with
  | some b => s.laneFault .illegalOp ((s.laneView b).part1 h)
  | none => s

/-- CSRR. -/
def execLaneCsrr (h : LHdr) (f : IForm) (s : State) : Host.Outcome State Fault Refusal :=
  let n := f.imm.toNat % 4096
  .next (if 3 < n then s.laneIllegal h else s.laneGo h [(f.dst, 1)] [] none fun s b m _ =>
    let v := (s.laneCsr b n).getD 0
    if byteV f.dst then (s.laneWrite f.dst m fun _ => [v]).laneNext
    else (if b.actsOnce h then s.onLane fun x => x.setB (bNum f.dst) v else s).laneNext)

/-- CSRW. -/
def execLaneCsrw (h : LHdr) (f : IForm) (s : State) : Host.Outcome State Fault Refusal :=
  let n := f.imm.toNat % 4096
  .next (if 1 < n then s.laneIllegal h else s.laneGo h [(f.a, 1)] [] none fun s b m _ =>
    let v : Option Word :=
      if byteV f.a then (strands m).head?.map fun st => s.vval b 0 f.a.toNat st
      else if b.actsOnce h then some (b.breg (bNum f.a)) else none
    match v with
    | none => s.laneNext
    | some v =>
      (s.onLane fun x => if n = 0 then { x with mode := v &&& 0xF#64 } else { x with flag := clearFlags x.flag v }).laneNext)

end Sys2Proof.Machine
end

