-- ==== Sys2Proof/Machine/Fetch.lean ====
section
/-!
DEFINITION. Instruction fetch and what stops an agent before its instruction issues: fetch faults and illegal bundles and
instructions (R22, R56, R76, R80, R87, R91, R293).
-/

namespace Sys2Proof.Machine

/-- How a fetch comes out (R293): the bytes as a number, a fault with the page's leaf entry, a page that moves, a POISONED page. -/
inductive Fetched where
  | word (w : Nat)
  | fault (k : FKind) (pte : Word)
  | hold
  | poison (pte : Word)
deriving DecidableEq, Repr

/-- Fetches n bytes for a context on a core. -/
def State.fetch (s : State) (c x : Nat) (a : Word) (n : Nat) : Fetched :=
  match s.checkTensor (some c) x a n with
  | .error k => .fault k 0
  | .ok r =>
    match s.translate (some c) x r a n .fetch with
    | .ok (.home h b) => .word (s.homeNat h b n)
    | .ok _ => .fault .pageAccess 0
    | .fault k pte => .fault k pte
    | .hold => .hold
    | .poison pte => .poison pte

/-- What the layout unit keeps of a fetch that has succeeded (R268, R274): the TLR and the leaf entry; it counts a request where it loads the
entry and at the first address of a line (log entry 57). -/
def State.fetchTouch (s : State) (c x : Nat) (a : Word) (n : Nat) : State :=
  match s.checkTensor (some c) x a n with
  | .error _ => s
  | .ok r =>
    let held := (s.core c).tlb.any fun t => t.ctx = x && t.tensor = tensorOf a && t.page = offsetOf a / tlrPage r
    if held && a.toNat % 128 ≠ 0 then s else s.touch c x r a .fetch

/-- The bundle address of the sequencer of a core, its fetch. -/
def State.seqFetch (s : State) (c : Nat) : Fetched := s.fetch c (s.core c).unitCtx (s.core c).seq.pc 32
/-- The fetch of a band. -/
def State.bandFetch (s : State) (c n : Nat) : Fetched :=
  match s.band c n with
  | some b => s.fetch c b.slot b.pc 8
  | none => .hold

/-- The fetch of the second member of a `DP` pair, when the band's word asks for one. -/
def State.pairFetch (s : State) (c n : Nat) (w : Nat) : Option Fetched :=
  let w := BitVec.ofNat 64 w
  if w.getLsbD 48 && (decodeLane w).isSome then (s.band c n).map fun b => s.fetch c b.slot (b.pc + 8) 8 else none

/-- INSTRUCTION_FETCH_FAULT: the agent that acts stops before its instruction issues; the record's MASK is 0 (R293). A fetch fault on
the second word of a `DP` pair is one of the instruction too (R91). -/
def evInstructionFetchFault (s : State) : State :=
  match s.cur with
  | .seq c =>
    let pc := (s.core c).seq.pc
    match s.seqFetch c with
    | .fault k pte => s.seqFault c k pc pc pc pte
    | .poison pte => (s.health1 [70]).seqFault c .ueSeq pc pc pc pte
    | _ => s
  | .band c n =>
    let pc := ((s.band c n).map fun b => b.pc).getD 0
    match s.bandFetch c n with
    | .fault k pte => s.bandFaultAt c n k 0 pc pc pte
    | .poison pte => s.bandFaultAt c n .pagePoisoned 0 pc pc pte
    | .word w =>
      match s.pairFetch c n w with
      | some (.fault k pte) => s.bandFaultAt c n k 0 pc (pc + 8) pte
      | some (.poison pte) => s.bandFaultAt c n .pagePoisoned 0 pc (pc + 8) pte
      | _ => s
    | .hold => s
  | _ => s

/-! ### Illegal bundles and instructions (R76, R80, R87) -/

/-- The target of a D slot that branches to a register, when its predicate holds. -/
def State.regTarget (s : State) (w : BitVec 48) : Option Word :=
  match decodeSlot .d w with
  | some (.seqBrc p a) => if s.predHolds p then some (s.rs 0 a) else none
  | some (.seqRet p) => if s.predHolds p then some s.retTarget else none
  | _ => none

/-- The destination registers of a DP instruction. -/
def dpWidth : Instr → Nat
  | .laneUnpk _ _ => 2
  | _ => 1

/-- Whether the word after a `DP` instruction may be its second member (R80, R265). -/
def dpOk (i : Instr) (w w2 : BitVec 64) : Bool :=
  let d := (w.extractLsb' 36 8).toNat
  let d2 := (w2.extractLsb' 36 8).toNat
  let m : BitVec 64 := ~~~(0xFF#64 <<< 36 ||| 1#64 <<< 48)
  w2 &&& m = w &&& m && !w2.getLsbD 48 && d ≠ d2 && (d + dpWidth i ≤ d2 || d2 + dpWidth i ≤ d)

/-- The instruction that a band's word stands for, with the second member of a `DP` pair; none where it is illegal. -/
def State.laneDecode (s : State) (c n : Nat) (w : BitVec 64) : Option (Instr × Option Instr) :=
  match decodeLane w with
  | none => none
  | some i =>
    if !w.getLsbD 48 then some (i, none)
    else
      match s.pairFetch c n w.toNat with
      | some (.word v) =>
        match decodeLane (BitVec.ofNat 64 v) with
        | some j => if dpOk i w (BitVec.ofNat 64 v) then some (i, some j) else none
        | none => none
      | _ => none

/-- ILLEGAL_OP: the agent that acts stops at a bundle or instruction that is not one. A misaligned register branch in the
bundle comes first (R91). -/
def evIllegalOp (s : State) : State :=
  match s.cur with
  | .seq c =>
    let pc := (s.core c).seq.pc
    match s.seqFetch c with
    | .word w =>
      if (decodeBundle (BitVec.ofNat 256 w)).isSome then s
      else
        let bad : Bool := match s.regTarget (BitVec.ofNat 48 w) with
          | some t => t.toNat % 32 ≠ 0
          | none => false
        s.seqFault c (if bad then .fetchAlign else .illegalOp) pc pc 0 0
    | _ => s
  | .band c n =>
    match s.bandFetch c n, s.band c n with
    | .word w, some b =>
      if (s.laneDecode c n (BitVec.ofNat 64 w)).isSome then s
      else
        let m := b.part1 (hdrOf (BitVec.ofNat 64 w))
        s.bandFault c n .illegalOp m
    | _, _ => s
  | _ => s

/-! ### The steps -/

/-- INSTRUCTION_FETCH_FAULT. -/
def execInstructionFetchFault (s : State) : Host.Outcome State Fault Refusal := .next (evInstructionFetchFault s)
/-- ILLEGAL_OP. -/
def execIllegalOp (s : State) : Host.Outcome State Fault Refusal := .next (evIllegalOp s)

end Sys2Proof.Machine
end

