-- ==== Sys2Proof/Machine/Image.lean ====
section
/-!
DEFINITION. Linked images: their checks and their application (R105, R126 to R129).
-/

namespace Sys2Proof.Machine

/-- An image section (R127): kind, reserved bits, target, core mask, payload. -/
structure Section where
  kind : Nat
  rsv : Nat
  target : Word
  cores : Word
  data : List Byte
deriving DecidableEq, Repr

/-- The payload bytes that a section takes with its padding. -/
def padded (n : Nat) : Nat := (n + 31) / 32 * 32

/-- Takes n sections from the bytes after the header; none where they do not end exactly at the image's end. -/
def takeSections : Nat → List Byte → Option (List Section)
  | 0, bs => if bs.isEmpty then some [] else none
  | n + 1, bs =>
    let h := natOfBytes (bs.take 32)
    let len := bf h 192 64
    let rest := bs.drop 32
    if bs.length < 32 || rest.length < padded len then none
    else
      match takeSections n (rest.drop (padded len)) with
      | some l => some (⟨bf h 0 16, bf h 16 48, BitVec.ofNat 64 (bf h 64 64), BitVec.ofNat 64 (bf h 128 64), rest.take len⟩ :: l)
      | none => none

/-- Whether a section has the form of its kind (R127): check 4. -/
def Section.formOk (x : Section) : Bool :=
  let n := x.data.length
  let t := x.target.toNat
  x.rsv = 0 && (x.cores = 0 || x.kind = 4 || x.kind = 5) && match x.kind with
  | 1 => (x.target &&& ~~~0x600000FFFFFFFFFF#64) = 0 && baseHome x.target ≤ 1
  | 2 => n % 64 = 0 && 1 ≤ t && t + n / 64 ≤ 65536
  | 3 => true
  | 4 => n = 8192 && t = 0
  | 5 => n ≤ 65536 && t = 0
  | 6 => n % 8 = 0 && t + n / 8 ≤ 65536
  | _ => false

/-- Where a section of kind 1, 2 or 6 writes: home and byte. -/
def Section.place (x : Section) (k : Context) : Nat × Nat :=
  match x.kind with
  | 1 => (baseHome x.target, baseFrame x.target * 4096)
  | 2 => k.tlrPlace x.target.toNat
  | _ => k.penPlace x.target.toNat

/-- Whether every byte of a run lies inside a partition's polders. -/
def Partition.bytesIn (q : Partition) (h a n : Nat) : Bool :=
  n = 0 || q.framesIn h (a / 4096) ((a + n - 1) / 4096 - a / 4096 + 1)

/-- Checks 4 to 6, 8 and 9 of a section (R128). -/
def State.sectionStatus (s : State) (x : Nat) (y : Section) : Option Status :=
  let k := s.ctx x
  let q := s.partOf x
  if !y.formOk then some .imgSection
  else if (y.cores &&& ~~~k.cores) ≠ 0 then some .imgCores
  else if (y.kind = 1 || y.kind = 2 || y.kind = 6) && !q.bytesIn (y.place k).1 (y.place k).2 y.data.length then some .imgPolder
  else if y.kind = 2 && !(List.range (y.data.length / 64)).all (fun i =>
      tlrValid q (BitVec.ofNat 512 (natOfBytes ((y.data.drop (64 * i)).take 64)))) then some .imgTlr
  else if y.kind = 4 && !(List.range 256).all (fun i =>
      bindOk (BitVec.ofNat 256 (natOfBytes ((y.data.drop (32 * i)).take 32)))) then some .imgBind
  else none

/-- Writes bytes into a component of the save image of each core of a mask. -/
def State.imageWrite (s : State) (x : Nat) (cores : Word) (off : Nat) (bs : List Byte) : State :=
  (bitsOf cores.toNat 64).foldl (fun s c =>
    let (h, b) := (s.ctx x).imageBase c
    s.homeWrite h (b + off) bs) s

/-- Applies a section (R127, R129); a BYTES byte that cannot be written fails check 7. -/
def State.applySection (s : State) (x : Nat) (y : Section) : Except Status State :=
  match s.sectionStatus x y with
  | some st => .error st
  | none =>
    match y.kind with
    | 3 =>
      if y.data.isEmpty then .ok s
      else
        match s.frontWrite x y.target y.data with
        | .ok t => .ok t
        | .error _ => .error .imgTranslate
    | 4 => .ok ((s.imageWrite x y.cores 0x710000 y.data).imageWrite x y.cores 0x11000 y.data)
    | 5 => .ok ((s.imageWrite x y.cores 0x700000 y.data).imageWrite x y.cores 0x1000 y.data)
    | _ =>
      let (h, a) := y.place (s.ctx x)
      .ok (s.homeWrite h a y.data)

/-- Applies sections in order up to the first failure. -/
def State.applySections (s : State) (x : Nat) : List Section → State × Status
  | [] => (s, .ok)
  | y :: t =>
    match s.applySection x y with
    | .ok s => s.applySections x t
    | .error st => (s, st)

/-- The header's checks 1 to 3 (R126, R128), with the sections. A section count of 0 fails as a section would; a transfer shorter than the header
is IMG_MAGIC (log entry 111). -/
def imageSections (bs : List Byte) : Except Status (List Section) :=
  let h := natOfBytes (bs.take 64)
  if bs.length < 64 || bf h 0 32 ≠ 0x4B4C5849 || bf h 32 16 ≠ 1 || bf h 160 352 ≠ 0 then .error .imgMagic
  else
    match takeSections (bf h 48 16) (bs.drop 64) with
    | none => .error .imgLength
    | some l =>
      if bs.length ≠ bf h 64 64 then .error .imgLength
      else if crc32c (bs.drop 64) ≠ bf h 128 32 then .error .imgCrc
      else if l.isEmpty then .error .imgSection
      else .ok l

/-- The INIT components of every core of the context start as NONE entries and zeros (R129). -/
def State.clearInit (s : State) (x : Nat) : State :=
  (bitsOf (s.ctx x).cores.toNat 64).foldl (fun s c =>
    let (h, b) := (s.ctx x).imageBase c
    let m := (s.home h).zeroRange (b + 0x700000) (b + 0x710000)
    s.setHome h (m.zeroRange (b + 0x710000) (b + 0x712000))) s

/-- IMAGE_TRANSFER: the image in `bytes` is checked and applied; the context goes READY with launch ids from 1 and counters at 0 (R105,
R130, R326), or FAILED. -/
def evImageTransfer (s : State) : State :=
  s.ctl fun s =>
  let x := s.rx
  if (s.ctx x).st ≠ .loading then s.answer .contextBusy
  else
    match imageSections s.req.bytes with
    | .error st => (s.failContext x).answer st
    | .ok l =>
      match (s.clearInit x).applySections x l with
      | (s, .ok) => (s.onCtx x fun k => { k with st := .ready, nextLid := 1, lastLid := 0, lstate := 0, deps := [] }).answer .ok
      | (s, st) => (s.failContext x).answer st

/-! ### The steps -/

/-- IMAGE_TRANSFER. -/
def execImageTransfer (s : State) : Host.Outcome State Fault Refusal := .next (evImageTransfer s)

end Sys2Proof.Machine
end

