-- ==== Sys2Proof/Machine/Power.lean ====
section
/-!
DEFINITION. Reset and boot, attestation, power states, the clock controller, failures and uncorrectable errors (R122, R124, R205, R273,
R411 to R417).
-/

namespace Sys2Proof.Machine

/-! ### Power states (R124, R414, R416) -/

/-- The FMAX field of a PWR write; values outside 24 to 36 leave the limit as it was. -/
def State.putFmax (s : State) : State :=
  let f := bf s.req.value 16 8
  { s with fmax := if 24 ≤ f && f ≤ 36 then f else s.fmax }

/-- The agents that debug halts hold, as core and key (0 the sequencer, 1 + n a band). -/
def State.haltedAgents (s : State) : List (Nat × Nat) :=
  (List.range 64).flatMap fun c =>
    let k := s.core c
    (if k.seq.halted then [(c, 0)] else [])
    ++ (k.bands.filter fun b => b.2.st == .halted && b.2.halt == .debug).map fun b => (c, 1 + b.1)

/-- Leaving P3: halted agents return to their pre-halt state (R124). -/
def State.leaveP3 (s : State) : State :=
  let h := s.held
  h.foldl (fun (s : State) e => if e.2 = 0 then s.resumeSeqHalt e.1 else s.resumeBandHalt e.1 (e.2 - 1)) { s with held := [] }

/-- PWR_SET_ACTIVE: a PWR write with `PST` 0 to 2; 5 to 7 are refused, and only reset leaves P4. -/
def evPwrSetActive (s : State) : State :=
  s.ctl fun s =>
  let p := bf s.req.value 0 3
  if 5 ≤ p || s.pst = 4 then s.answer .powerState
  else if 3 ≤ p then s
  else
    let s := { s.putFmax with pst := p }
    s.leaveP3.answer .ok

/-- A core on entry to P3: triggers and reports under way are dropped; the trace stays under TENANT and VENDOR. -/
def Core.enterP3 (k : Core) (keep : Bool) : Core :=
  let w := { k.watch.disarm with stops := [] }
  { k with watch := if keep then w else w.clearTrace }

/-- PWR_ENTER_P3: a PWR write with `PST` 3. Every port goes DOWN. -/
def evPwrEnterP3 (s : State) : State :=
  s.ctl fun s =>
  if bf s.req.value 0 3 ≠ 3 then s
  else if s.pst = 4 || (List.range 16).any s.partBusy then s.answer .powerState
  else
    let h := s.haltedAgents
    let vendor := (List.range 16).any fun p => (s.part p).debug = 2
    let s := (List.range 64).foldl (fun (s : State) c =>
      let keep := vendor || match s.corePart c with
        | some p => (s.part p).debug ≠ 0
        | none => false
      s.onCore c fun k => k.enterP3 keep) s
    let s := (List.range 16).foldl (fun (s : State) i => if (s.port i).st = .down then s else s.losePort i .down) s
    { s.putFmax with pst := 3, held := h }.answer .ok

/-- A core in P4: its tile store is erased, halts and triggers are dropped, its trace is cleared. -/
def Core.enterP4 (k : Core) : Core :=
  { k.enterP3 false with tile := Memory.zero }
/-- A partition in P4: its key is erased. -/
def Partition.enterP4 (q : Partition) : Partition := { q with key := false }
/-- A context in P4: its save area is erased. -/
def Context.enterP4 (k : Context) : Context := { k with images := [] }

/-- The module enters P4 (R124). -/
def State.enterP4 (s : State) : State :=
  { s with
    pst := 4, held := [], hbm := Memory.zero, pkg := Memory.zero
    cores := s.cores.map Core.enterP4, parts := s.parts.map Partition.enterP4, ctxs := s.ctxs.map Context.enterP4 }

/-- PWR_ENTER_P4: a PWR write with `PST` 4. -/
def evPwrEnterP4 (s : State) : State :=
  s.ctl fun s => if bf s.req.value 0 3 ≠ 4 then s else s.putFmax.enterP4.answer .ok

/-! ### The clock controller (R415) -/

/-- The clock after a millisecond, in 100 MHz units. -/
def nextClock (pst fmax temp fcur : Nat) : Nat :=
  let lim := if pst = 1 then fmax else 36
  let th := if temp ≤ 30 then 36 else max 24 (36 - (temp - 30))
  let tgt := min lim th
  if tgt < fcur then fcur - 1
  else if fcur < tgt && (temp ≤ 29 || fcur < 36 - (temp - 29)) then fcur + 1
  else fcur

/-- CLOCK_CONTROLLER_TICK: a millisecond has passed and the coolant is at `value` °C; at 45 °C the module trips. -/
def evClockControllerTick (s : State) : State :=
  let t := s.req.value
  let s := { s with temp := t, fcur := if 3 ≤ s.pst then s.fcur else nextClock s.pst s.fmax t s.fcur }
  if 45 ≤ t && s.pst ≠ 4 then s.enterP4.health1 [71, 64] else s

/-! ### Attestation (R412, R413) -/

/-- ATTESTATION_REQUEST: nonce, firmware version, measurement and HEALTH, signed with the next index; the index rises before the
signature leaves. -/
def evAttestationRequest (s : State) : State :=
  s.ctl fun s =>
  let i := 1024 * s.fuses + s.counter
  if s.req.bytes.length ≠ 32 then s.answer .cpFrame
  else if 2 ^ 20 ≤ i then s.answer .attestExhausted
  else
    let body := s.req.bytes ++ bytesOfNat 8 s.fwVersion ++ bytesOfNat 32 (Config.measurement s.fwVersion) ++ bytesOfNat 16 s.health.toNat
    let s := if s.counter + 1 = 1024 then { s with fuses := s.fuses + 1, counter := 0 } else { s with counter := s.counter + 1 }
    s.answer .ok (body ++ (Config.xmssSign i body).take 2820)

/-! ### Module reset (R411) -/

/-- What the firmware of a copy amounts to: whether its signature verifies and its version. -/
def firmware (minVersion : Nat) (copies : List (Bool × Nat)) : Status × Nat :=
  match copies.find? fun c => c.1 && minVersion ≤ c.2 with
  | some c => (.ok, c.2)
  | none => if copies.any fun c => c.1 then (.fwRollback, 0) else (.fwSignature, 0)

/-- MODULE_RESET: `value` [0] and [1] say which flash copies verify, `n` and `m` are their versions; `bytes` are pairs of core and failing
array row from the self-test (a row at or above 256 adds 256 with the core byte's bit 7), `addr` is the mask of failed HBM channels. -/
def evModuleReset (s : State) : State :=
  let (st, ver) := firmware s.minVersion [(bitN s.req.value 0, s.req.n), (bitN s.req.value 1, s.req.m)]
  let rows := (List.range (s.req.bytes.length / 2)).map fun i =>
    let c := (s.req.bytes.getD (2 * i) 0).toNat
    (c % 64, (s.req.bytes.getD (2 * i + 1) 0).toNat + 256 * (c / 128))
  let fresh : State := { State.reset with
    fresh := s.fresh, nextId := s.nextId, agenda := s.agenda, req := s.req, temp := s.temp, fuses := s.fuses, counter := s.counter
    minVersion := s.minVersion, fwStatus := st, fwVersion := ver }
  let t := rows.foldl (fun (t : State) r =>
    if 264 ≤ r.2 then t
    else t.onCore r.1 fun k => { k with arr := { k.arr with
      disabled := if k.arr.disabled.contains r.2 then k.arr.disabled else k.arr.disabled ++ [r.2] } }) fresh
  let degr := (List.range 64).any fun c => (t.core c).arr.degraded
  let hch := s.req.addr % 2 ^ 16
  t.setHealth (BitVec.ofNat 128 (hch <<< 96 ||| (if degr then 3 <<< 64 else 0) ||| (if hch ≠ 0 then 1 <<< 64 else 0)))

/-! ### Failures and uncorrectable errors (R122, R273) -/

/-- CORE_FAILURE: core `core` fails; REPLACE is set. -/
def evCoreFailure (s : State) : State :=
  (s.onCore s.rcore fun k => { k with failed := true }).health1 [s.rcore, 64]

/-- HBM_CHANNEL_FAILURE: channel `n` fails. -/
def evHbmChannelFailure (s : State) : State := s.health1 [96 + s.req.n % 16, 64]

/-- UE_STRAND: the strands `value` of band `n` on core `core` consume an uncorrectable error. A parked band with no unfinished strand
left goes on at the next instruction. -/
def evUeStrand (s : State) : State :=
  let c := s.rcore
  let n := s.req.n
  match s.band c n with
  | none => s
  | some b =>
    (s.strandsDie c n (s.rv &&& ~~~b.dead) 0 0).onBand c n fun b =>
      if b.unfinished = some 0 && b.st == .parked then { b with unfinished := none, pc := b.pc + 8, st := .ready, readySince := s.cycle } else b

/-- UE_SEQ: an uncorrectable error in the sequencer's registers, scalar store or latch bank of core `core`. -/
def evUeSeq (s : State) : State :=
  let c := s.rcore
  let k := s.core c
  if k.unit.isNone then s
  else
    let s := s.health1 [70]
    if k.seq.phase = .run then s.seqFault c .ueSeq k.seq.pc k.seq.pc 0 0
    else s.takeFault k.unitCtx (s.seqRecord c .ueSeq k.seq.pc 0 0) (.seq c) 1 k.seqCls

/-- A local page of a context goes POISONED (R273): its entry, its translation, HEALTH. -/
def State.poisonPage (s : State) (x tensor page h ea : Nat) (e : Word) : State :=
  let w := (e.toNat &&& (2 ^ 63 - 1 - 7 <<< 40)) ||| 2 <<< 40
  ((s.homeWrite h ea (bytesOfNat 8 w)).invalidate x (some tensor) page page none).health1 [70]

/-- UE_PAGE_FRAME: an uncorrectable error is found in a frame of the page at address `addr` of a context: RESIDENT or LOCKED goes
POISONED. -/
def evUePageFrame (s : State) : State :=
  let x := s.rx
  match s.pageAt x (BitVec.ofNat 64 s.req.addr) with
  | .ok (_, tensor, page, h, ea, e) => if leafV e && baseHome e ≤ 1 then s.poisonPage x tensor page h ea e else s
  | .error _ => s

/-! ### The steps -/

/-- PWR_SET_ACTIVE. -/
def execPwrSetActive (s : State) : Host.Outcome State Fault Refusal := .next (evPwrSetActive s)
/-- PWR_ENTER_P3. -/
def execPwrEnterP3 (s : State) : Host.Outcome State Fault Refusal := .next (evPwrEnterP3 s)
/-- PWR_ENTER_P4. -/
def execPwrEnterP4 (s : State) : Host.Outcome State Fault Refusal := .next (evPwrEnterP4 s)
/-- CLOCK_CONTROLLER_TICK. -/
def execClockControllerTick (s : State) : Host.Outcome State Fault Refusal := .next (evClockControllerTick s)
/-- ATTESTATION_REQUEST. -/
def execAttestationRequest (s : State) : Host.Outcome State Fault Refusal := .next (evAttestationRequest s)
/-- MODULE_RESET. -/
def execModuleReset (s : State) : Host.Outcome State Fault Refusal := .next (evModuleReset s)
/-- CORE_FAILURE. -/
def execCoreFailure (s : State) : Host.Outcome State Fault Refusal := .next (evCoreFailure s)
/-- HBM_CHANNEL_FAILURE. -/
def execHbmChannelFailure (s : State) : Host.Outcome State Fault Refusal := .next (evHbmChannelFailure s)
/-- UE_STRAND. -/
def execUeStrand (s : State) : Host.Outcome State Fault Refusal := .next (evUeStrand s)
/-- UE_SEQ. -/
def execUeSeq (s : State) : Host.Outcome State Fault Refusal := .next (evUeSeq s)
/-- UE_PAGE_FRAME. -/
def execUePageFrame (s : State) : Host.Outcome State Fault Refusal := .next (evUePageFrame s)

end Sys2Proof.Machine
end

