-- ==== Sys2Proof/Machine/Routines.lean ====
section
/-!
DEFINITION. Routines: gangs form, snap copies retire, invocations end, bands are freed (R169, R170, R172, R174, R217).
-/

namespace Sys2Proof.Machine

/-! ### Gangs (R169) -/

/-- Whether the top-level invocation of a nested one is FAULTED: then no band of the nested one starts (R173). -/
def Core.parentFaulted (k : Core) (i : Inv) : Bool :=
  match i.parent with
  | some p => k.invs.any fun v => v.id = p && v.st = .faulted
  | none => false

/-- The invocation that the dispatcher serves next: a waiting nested one, else the head of the dispatch queue. -/
def Core.nextInv (k : Core) : Option Inv :=
  match k.invs.find? fun i => i.st = .queued && i.parent.isSome && !k.parentFaulted i with
  | some i => some i
  | none => k.invs.find? fun i => i.st = .queued && i.parent.isNone

/-- The registers that a gang's bands start with. -/
def Inv.gangRegs (i : Inv) (rank bands : Nat) : List (Nat × Word) :=
  (List.range 8).map (fun n => (n, if n < bindTiles i.entry then i.arg n else 0))
  ++ [(8, BitVec.ofNat 64 i.id), (9, BitVec.ofNat 64 (rank + 256 * bands))]
  ++ (List.range 6).map fun n => (10 + n, i.sargs.getD n 0)

/-- The gang that can form on a core now: the unit, the served invocation and the slots that its bands take; none while its bands lack slots or
registers or its snap copy has not retired. -/
def State.gangReady (s : State) (c : Nat) : Option (SeqUnit × Inv × List Nat) :=
  let k := s.core c
  match k.unit, k.nextInv with
  | some u, some i =>
    let slots := k.pickSlots (bindVregs i.entry) (bindF i.entry 104 3)
    if s.seqHeld c || i.snapPending || slots.length < bindF i.entry 104 3 then none else some (u, i, slots)
  | _, _ => none

/-- The OUT tiles of an invocation that is dispatched are WRITING, also after a restart has put them in ALLOC (R162). -/
def Core.writesOut (k : Core) (i : Inv) : Core :=
  if i.parent.isSome then k
  else (List.range (bindTiles i.entry)).foldl (fun (k : Core) n =>
    match bindDir i.entry n, i.tregs[n]? with
    | 2, some t => k.toState t.toNat .writing
    | _, _ => k) k

/-- GANG_FORM: the served invocation of core `core` is placed when its bands have slots and registers and its snap copy has retired. -/
def evGangForm (s : State) : State :=
  let c := s.req.core
  match s.gangReady c with
  | some (u, i, slots) =>
      let need := bindF i.entry 104 3
      let mode := BitVec.ofNat 64 (if bindF i.entry 96 1 = 1 then bindF i.entry 92 4 else 0)
      let band := fun (rank : Nat) => Band.start u.part u.ctx (.gang i.id rank) (bindVregs i.entry) (i.gangRegs rank need) mode
        (BitVec.ofNat 64 (bindF i.entry 192 64)) i.cls s.cycle allStrands
      s.onCore c fun k =>
        let k := { k with bands := (slots.zip (List.range need)).foldl (fun bs (e : Nat × Nat) => aput bs e.1 (band e.2)) k.bands }
        (k.writesOut i).onInv i.id fun i => { i with st := .running, formed := true, bands := slots }
  | none => s

/-! ### Snap copies (R174) -/

/-- The tiles in use that the snap area of an invocation overlaps: what both hold is undefined (R10). -/
def State.snapClash (s : State) (c : Nat) (i : Inv) : List Word :=
  let k := s.core c
  let lo := 64 * bindF i.entry 174 18
  (((List.range 64).filter fun n => (k.entry n).st ≠ .free).map fun n => s.handleOf c n).filter fun h =>
    hOk h && hBase h < i.snapEnd && lo < hEnd h

/-- SNAP_COPY_RETIRE: the snap copy of invocation `n` retires. -/
def evSnapCopyRetire (s : State) : State :=
  let c := s.req.core
  match (s.core c).inv s.req.n with
  | none => s
  | some i =>
    if !i.snapPending then s
    else
      let clash := s.snapClash c i
      s.onCore c fun k =>
        let k := i.snapParts.foldl (fun (k : Core) p => { k with tile := k.tile.blit (hBase (i.arg p.1)) p.2.2 k.tile p.2.1 }) k
        let k := clash.foldl (fun (k : Core) h =>
          { k with tile := (k.tile.undefRange (hBase h) (hEnd h)).undefRange (64 * bindF i.entry 174 18) i.snapEnd }) k
        (k.dropRange (.snap i.id)).onInv i.id fun i => { i with snapPending := false }

/-! ### Ends (R170, R217) -/

/-- Whether an invocation has ended: its bands are DONE or gone, their tile-store accesses and copies into the tile store have
retired, its nested invocation has ended. -/
def Core.invOver (k : Core) (i : Inv) : Bool :=
  i.st = .running
  && k.bands.all (fun b => b.2.inv ≠ some i.id || (b.2.st = .done && !(b.2.acc.any fun a => a.tile)))
  && k.chans.toList.all (fun q => q.all fun m => !(m.inv = some i.id && m.op = .cin))
  && k.invs.all fun v => v.parent ≠ some i.id

/-- What an ended invocation leaves: OUT and INOUT tiles READY, IN tiles released; a nested one's ranges go. -/
def Core.endInv (k : Core) (i : Inv) : Core :=
  let k := k.dropRange (.nest i.id)
  let k := if i.parent.isSome then k else (List.range (bindTiles i.entry)).foldl (fun (k : Core) n =>
    match i.tregs[n]? with
    | some t => if bindDir i.entry n = 1 then k.dropCompute t.toNat else k.toState t.toNat .ready
    | none => k) k
  { k with invs := k.invs.filter fun v => v.id ≠ i.id }

/-- INVOCATION_END of invocation `n` of core `core`. -/
def evInvocationEnd (s : State) : State :=
  let c := s.req.core
  match (s.core c).inv s.req.n with
  | none => s
  | some i => if (s.core c).invOver i then (s.onCore c fun k => k.endInv i).coreFreed c else s

/-- Whether a band belongs to a unit of a task of a partition. -/
def Band.ofUnit (b : Band) (p slot index : Nat) : Bool :=
  b.part.toNat = p && match b.of with
    | .unit t i _ => t = slot && i = index
    | .gang _ _ => false

/-- Whether a band of a lane unit is on a core or in a save image. -/
def State.unitAlive (s : State) (p slot index : Nat) : Bool :=
  (List.range 64).any (fun c => (s.core c).bands.any fun b => b.2.ofUnit p slot index)
  || (List.range 16).any fun x => (s.ctx (16 * p + x)).images.any fun im => im.2.bands.any fun b => b.2.ofUnit p slot index

/-- BAND_FREE: band `n` of core `core` goes FREE; with the last band of a lane unit the unit ends (R329). -/
def evBandFree (s : State) : State :=
  let c := s.req.core
  let n := s.req.n
  match s.band c n with
  | none => s
  | some b =>
    if b.st ≠ .done || !b.acc.isEmpty || !b.staging.isEmpty then s
    else
      let p := b.part.toNat
      let s := s.onCore c fun k => Core.tidyRx { k with bands := adel k.bands n }
      let s := match b.of with
        | .gang _ _ => s
        | .unit t i _ =>
          let s := if b.dead = 0 then s else s.onTask p t fun (t : Task) => { t with deadUnits := t.deadUnits ++ [i] }
          if s.unitAlive p t i then s else s.unitEnded p t i c
      s.coreFreed c

/-! ### The steps -/

/-- GANG_FORM. -/
def execGangForm (s : State) : Host.Outcome State Fault Refusal := .next (evGangForm s)
/-- SNAP_COPY_RETIRE. -/
def execSnapCopyRetire (s : State) : Host.Outcome State Fault Refusal := .next (evSnapCopyRetire s)
/-- INVOCATION_END. -/
def execInvocationEnd (s : State) : Host.Outcome State Fault Refusal := .next (evInvocationEnd s)
/-- BAND_FREE. -/
def execBandFree (s : State) : Host.Outcome State Fault Refusal := .next (evBandFree s)

end Sys2Proof.Machine
end

