-- ==== Sys2Proof/Machine/Sched.lean ====
section
/-!
DEFINITION. The scheduler block and the cores' local lists: credits, enqueued tasks, decrements, cancels, completion sequences, placement of
start-vector launches, starts of list entries, retirement, and the end of a pre-emption save (R107, R111, R132, R134, R324 to R331, R340).
-/

namespace Sys2Proof.Machine

/-! ### The scheduler block (R324 to R331) -/

/-- CREDIT_GRANT: while the store of the partition has a free slot, the next core in round-robin order with fewer than 4 credits gets
one. -/
def evCreditGrant (s : State) : State :=
  let p := s.rp
  let q := s.part p
  let mem := bitsOf q.cores.toNat 64
  let held := (mem.map fun c => (s.core c).credits).sum
  let order := mem.filter (fun c => q.creditNext ≤ c) ++ mem.filter fun c => c < q.creditNext
  if 8192 ≤ q.tasks.length + held then s
  else
    match order.find? fun c => (s.core c).credits < 4 with
    | none => s
    | some c => (s.onCore c fun k => { k with credits := k.credits + 1 }).onPart p fun q => { q with creditNext := c + 1 }

/-- TASK_PROCESS: the scheduler processes the oldest enqueued task of the partition. -/
def evTaskProcess (s : State) : State :=
  match (s.part s.rp).enqs with
  | [] => s
  | slot :: _ =>
    if ((aget (s.part s.rp).tasks slot).map fun t => s.schedWaits t.lastCore t.order).getD false then s else s.processTask s.rp slot

/-- DEP_COUNTER_DECREMENT: decrement `n` reaches its counter. -/
def evDepCounterDecrement (s : State) : State :=
  match s.decs[s.req.n]? with
  | none => s
  | some d => if s.schedWaits d.core d.num then s else { s with decs := s.decs.eraseIdx s.req.n }.addDep d.ctx d.counter (-d.amount)

/-- CANCEL_ARRIVE: cancel `n` reaches the scheduler. -/
def evCancelArrive (s : State) : State :=
  match s.cancels[s.req.n]? with
  | none => s
  | some m => if s.schedWaits m.core m.num then s else { s with cancels := s.cancels.eraseIdx s.req.n }.cancel m

/-- Whether a task's units have drained: no core and no image holds a unit of it, and no copy of its lane units is open (R329 step 1). -/
def State.taskDrained (s : State) (p slot x : Nat) : Bool :=
  let mine := fun (u : Option SeqUnit) => match u with
    | some u => u.part.toNat = p && u.task = some slot
    | none => false
  (List.range 64).all (fun c => !mine (s.core c).unit
    && (s.core c).chans.toList.all fun l => l.all fun m => !(m.ofLanes && m.ctx = x && m.task = some slot))
  && (s.ctx x).images.all fun im => !mine im.2.unit && im.2.chans.toList.all fun l => l.all fun m => !(m.ofLanes && m.task = some slot)

/-- Lowers the counter of a task's `DEC0` or `DEC1` field at bit `lo` when it is valid. -/
def State.lower (s : State) (x : Nat) (r : BitVec 512) (lo : Nat) : State :=
  if tf r (lo + 15) 1 = 1 then s.addDep x (tf r lo 8) (-1) else s

/-- TASK_COMPLETION_SEQUENCE: the task in slot `n` whose units have ended and drained lowers its counters and levels and raises
COMPLETE. -/
def evTaskCompletionSequence (s : State) : State :=
  let p := s.rp
  let slot := s.req.n
  match aget (s.part p).tasks slot with
  | none => s
  | some t =>
    let x := t.slotOf p
    let r := t.record
    if !t.finished || t.completed || !s.taskDrained p slot x then s
    else
      let s := (s.lower x r 208).lower x r 192
      let s := s.onTask p slot fun t => { t with completed := true }
      let s := s.levelMessages p t
      let id := t.launch.toNat
      let s := (s.markEnded x id).checkLaunch x id
      s.raiseSluice p ⟨.complete, t.lastCore, recQueue r, recKind r, recPrio r, some t.ctx, b2n t.degraded, some slot, none, 0, .env, 0, false⟩

/-! ### Start-vector launches (R132, R133) -/

/-- LAUNCH_PLACE_START_VECTOR: launch `n` of the context, once each named core runs no sequencer unit and no unit of another context. -/
def evLaunchPlaceStartVector (s : State) : State :=
  let x := s.rx
  match aget (s.ctx x).launches s.req.n with
  | none => s
  | some l =>
    match l.vector with
    | none => s
    | some v =>
      let clear := fun (e : Nat × Word) =>
        let k := s.core e.1
        k.unit.isNone && !k.failed && k.bands.all fun b => b.2.slot = x
      if l.st ≠ .pending || !v.all clear then s
      else v.foldl (fun (s : State) e => s.startSeq e.1 x none l.id e.1 0 e.2 0 0) (s.setLaunch x s.req.n .running)

/-! ### Local lists (R340) -/

/-- Whether a start-vector launch that waits for placement names a core: it goes ahead of the core's list (R132). -/
def State.vectorAhead (s : State) (p c : Nat) : Bool :=
  (List.range 16).any fun i => (s.ctx (16 * p + i)).launches.any fun l =>
    l.2.st = .pending && (match l.2.vector with | some v => v.any fun e => e.1 = c | none => false)

/-- Takes an entry out of the lists of the cores that it names. -/
def State.unlist (s : State) (e : LEntry) : State :=
  e.cores.foldl (fun (s : State) c => s.onCore c fun k => { k with list := k.list.erase e }) s

/-- The slots that a lane unit takes, lowest named core first; none while there is no room. -/
def State.lanePlace (s : State) (cs : List Nat) (vr need : Nat) : Option (List (Nat × Nat)) :=
  let l := cs.foldl (fun (acc : List (Nat × Nat)) c =>
    acc ++ ((s.core c).pickSlots vr (need - acc.length)).map fun n => (c, n)) []
  if l.length = need then some l else none

/-- A sequencer unit of a task starts on a core (R323). -/
def State.startEntrySeq (s : State) (c x : Nat) (t : Task) (unit : Nat) : State :=
  let r := t.record
  let arg := tf r 64 64 + 64 * tf r 448 16 * (unit - t.first)
  let mode := if tf r 332 1 = 1 then tf r 328 4 else 0
  s.startSeq c x (some t.slot) t.launch unit (recPrio r) (BitVec.ofNat 64 (tf r 0 64)) (BitVec.ofNat 64 arg) (BitVec.ofNat 64 mode)

/-- An entry's start when there is room. -/
def State.startEntry (s : State) (c x : Nat) (e : LEntry) : Option State :=
  let k := s.core c
  if e.saved then
    match aget (s.ctx x).images (logical (s.ctx x).cores c) with
    | none => some (s.unlist e)
    | some im =>
      match e.kind with
      | .seqUnit =>
        let gang := im.gang.filterMap fun g => (aget im.bands g.1).map fun b => (g.2, b)
        if k.unit.isSome || k.slotsFor gang ≠ some (gang.map fun b => b.1) then none else some ((s.unlist e).resumeSeq c x)
      | .laneUnit =>
        let task := e.task.getD 0
        if (s.gangReady c).isSome then none
        else (k.slotsFor (im.lanes task e.unit)).map fun l => (s.unlist e).resumeLanes c x task e.unit l
  else
    match e.task.bind fun t => aget (s.partOf x).tasks t with
    | none => some (s.unlist e)
    | some t =>
      match e.kind with
      | .seqUnit => if k.unit.isSome then none else some ((s.unlist e).startEntrySeq c x t e.unit)
      | .laneUnit =>
        if e.cores.any fun d => (s.core d).list.head? ≠ some e || (s.gangReady d).isSome then none
        else
          (s.lanePlace (e.cores.mergeSort fun a b => a ≤ b) (16 * (tf t.record 333 3 + 1)) (recBands t.record)).map fun l =>
            (s.unlist e).startLanes x t.slot e.unit t.launch t.record l

/-- The first entry of a core's list starts when it can; none otherwise. -/
def State.startHead (s : State) (c p : Nat) : Option State :=
  match (s.core c).list.head? with
  | none => none
  | some e =>
    let x := 16 * p + e.ctx.toNat
    (s.startEntry c x e).map fun s =>
      let s := if e.saved then (s.tidyImages x).deliverFlips c x else s
      let s := if (s.ctx x).st = .preempted then s.onCtx x fun k => { k with st := .running } else s
      ((s.updateHeld x).settleLinks).coreFreed c

/-- LOCAL_LIST_START: core `core` starts the first entry of its list. Where none starts in what a pre-emption has freed and the list has room for it,
the pre-empted unit re-enters the list's head (R340, R427). -/
def evLocalListStart (s : State) : State :=
  let c := s.rcore
  match s.corePart c with
  | none => s
  | some p =>
    if (s.core c).failed || !(s.freezes c).isEmpty || s.vectorAhead p c then s
    else
      match s.startHead c p with
      | some s => s
      | none =>
        s.onCore c fun k => match k.returning.reverse with
          | e :: rest => if k.list.length < 8 then { k with list := e :: k.list, returning := rest.reverse } else k
          | [] => k

/-! ### Retirement (R134) -/

/-- Whether everything that a core's sequencer unit issued has completed. -/
def Core.drained (k : Core) : Bool :=
  k.invs.isEmpty && k.bands.all (fun b => b.2.inv.isNone)
  && k.chans.toList.all (fun l => l.all fun m => m.ofLanes)
  && k.arr.queue.isEmpty && k.arr.stream.isNone && k.arr.pipe.isEmpty && k.arr.entering.isEmpty && k.arr.epi.isEmpty
  && k.lq.toList.all (fun l => l.isEmpty)
  && k.rq.all fun e => e.2.pulls.isEmpty || k.laneQueue e.2

/-- Whether a unit counts as ended for its task or launch. -/
def State.unitMarked (s : State) (c : Nat) (u : SeqUnit) : Bool :=
  let x := ctxSlot u.part u.ctx.toNat
  match u.task with
  | some slot => ((aget (s.part u.part.toNat).tasks slot).map fun t => t.ended.contains u.index).getD true
  | none => ((aget (s.ctx x).launches u.launch.toNat).map fun l => l.ended.contains c).getD true

/-- A core without a unit and without bands keeps no leaf barriers of its last owner. -/
def Core.tidyLeaves (k : Core) : Core := { k with leaves := if k.owner = none then [] else k.leaves }

/-- UNIT_RETIRE: the unit of core `core` that has ended and drained retires; one of whose gangs a strand died has completed with DEGRADED-RESULT
(R122, R225). -/
def evUnitRetire (s : State) : State :=
  let c := s.rcore
  let k := s.core c
  match k.unit with
  | none => s
  | some u =>
    if k.seq.phase ≠ .ended || !s.unitMarked c u || !k.drained then s
    else
      let x := k.unitCtx
      let k := { k with seq := k.seq.settle s.cycle }
      let s := (s.setCore c k.clearUnit.tidyLeaves).coreFreed c
      let id := u.launch.toNat
      let s := if u.degraded then s.raiseVector (x / 16) 4 (some (BitVec.ofNat 4 x)) else s
      match u.task with
      | some slot => if u.degraded then s.onTask (x / 16) slot fun t => { t with degraded := true } else s
      | none => (s.onCtx x fun q => { q with launches := amod q.launches id fun l =>
          { l with retired := if l.retired.contains c then l.retired else l.retired ++ [c] } }).checkLaunch x id

/-! ### The end of a pre-emption save (R107, R309) -/

/-- Whether a row of results belongs to a joint operation: it is saved with the rendezvous (R108). -/
def RowRes.joint (r : RowRes) : Bool := match r.dst with | .queues _ _ => true | _ => false

/-- Whether no command that lane units have started is under way: the save waits for these (R107). -/
def Core.lanesAtRest (k : Core) (us : List (Nat × Nat)) : Bool :=
  k.chans.toList.all fun l => l.all fun m => !m.ofUnits us || m.st = .queued

/-- Whether a core's sequencer unit has come to rest: commands that have started, also transfers that arrive, have completed, and a
stream stands at ROWPROG. -/
def Core.atRest (k : Core) : Bool :=
  let a := k.arr
  let stopped := fun (n : Nat) => match a.stream with | some st => st.stopped && st.num = n | none => false
  k.chans.toList.all (fun l => l.all fun m => m.ofLanes || m.st = .queued)
  && k.ranges.all (fun r => match r.owner with | .arrive _ _ => false | _ => true)
  && (match a.stream with | some st => st.stopped | none => true)
  && a.pipe.all RowRes.joint && (a.entering.isEmpty || k.resultsHeld)
  && a.queue.all (fun q => !q.started || q.entered || stopped q.num)
  && a.epi.all (fun e => !e.started || a.queue.any fun q => q.op = .mul && !q.acc && q.pair = e.pair && stopped q.num)
  && k.lq.toList.all fun l => l.all fun m => !m.started || m.done || m.op = .tsend

/-- Whether a pennant operation of a band that leaves must first be performed: all but waiting acquires (R309). -/
def State.penPends (c : Nat) (out : List Nat) (o : PenOp) : Bool :=
  match o.who with
  | .band d n => d = c && out.contains n && !(o.acquire && o.ge)
  | _ => false
/-- Whether what a band's FENCE waits for is not performed yet. -/
def Core.fencePends (k : Core) (b : Band) : Bool :=
  match b.wait with
  | .fence accs copies => (b.acc.any fun a => accs.contains a.id) || k.chans.toList.any fun q => q.any fun m => copies.contains m.id
  | _ => false

/-- CORE_SAVE_COMPLETE: the save of core `core` for the context ends once its bands and engines have come to rest. -/
def evCoreSaveComplete (s : State) : State :=
  let x := s.rx
  let c := s.rcore
  let k := s.core c
  match (s.ctx x).freezing.find? fun f => f.1 = c with
  | none => s
  | some f =>
    let t := f.2.1
    let out := k.leaving x t
    let busy := out.any fun b => !b.2.acc.isEmpty || b.2.parkRec.isSome || k.fencePends b.2
    if busy || (k.seqLeaves x t && !k.atRest) || !k.lanesAtRest (laneUnitsOf out) || s.pens.any (State.penPends c (out.map fun b => b.1)) then s
    else
      let flips := s.leafFlips c x
      let s := s.saveCore c x t
      if (s.core c).runs x || (s.core c).hasBands x then s else s.holdFlips c x flips

/-! ### The steps -/

/-- CREDIT_GRANT. -/
def execCreditGrant (s : State) : Host.Outcome State Fault Refusal := .next (evCreditGrant s)
/-- TASK_PROCESS. -/
def execTaskProcess (s : State) : Host.Outcome State Fault Refusal := .next (evTaskProcess s)
/-- DEP_COUNTER_DECREMENT. -/
def execDepCounterDecrement (s : State) : Host.Outcome State Fault Refusal := .next (evDepCounterDecrement s)
/-- CANCEL_ARRIVE. -/
def execCancelArrive (s : State) : Host.Outcome State Fault Refusal := .next (evCancelArrive s)
/-- TASK_COMPLETION_SEQUENCE. -/
def execTaskCompletionSequence (s : State) : Host.Outcome State Fault Refusal := .next (evTaskCompletionSequence s)
/-- LAUNCH_PLACE_START_VECTOR. -/
def execLaunchPlaceStartVector (s : State) : Host.Outcome State Fault Refusal := .next (evLaunchPlaceStartVector s)
/-- LOCAL_LIST_START. -/
def execLocalListStart (s : State) : Host.Outcome State Fault Refusal := .next (evLocalListStart s)
/-- UNIT_RETIRE. -/
def execUnitRetire (s : State) : Host.Outcome State Fault Refusal := .next (evUnitRetire s)
/-- CORE_SAVE_COMPLETE. -/
def execCoreSaveComplete (s : State) : Host.Outcome State Fault Refusal := .next (evCoreSaveComplete s)

end Sys2Proof.Machine
end

