-- ==== Sys2Proof/Machine/Pages.lean ====
section
/-!
DEFINITION. Page migrations, host-access answers, the end of a code patch, and the delivery of logged inputs in RECOVERING (R105, R121,
R273, R404, R436).
-/

namespace Sys2Proof.Machine

/-! ### Migrations (R273, R280) -/

/-- Agents that waited for a page, a request or an answer are served. -/
def State.served (s : State) : State := s.serveAll.settleLinks

/-- The requests that read a moving page from a peer or from the control node. -/
def State.pageReqs (s : State) (id : Nat) : List Nat := (s.remote.filter fun r => r.2.who = .page id).map fun r => r.1

/-- Where the bytes of a page that lies elsewhere are. -/
def State.pageLoc (s : State) (x : Nat) (e : Word) (P o : Nat) : Loc :=
  if baseHome e = 2 then .peer (bf e.toNat 49 12) (s.pageKey x e) (bf e.toNat 0 28 * P + o) else .host (baseFrame e * 4096 + o)

/-- Takes a migration from the list, with its requests. -/
def State.endMigration (s : State) (id : Nat) : State :=
  { s with migs := s.migs.filter fun g => g.id ≠ id, remote := s.remote.filter fun r => r.2.who ≠ .page id }

/-- The leaf entry after a migration: the target home and frame; `W`, `X`, `RD`, `L` and `D` as the entry holds them, `RAP` 0. -/
def State.movedEntry (s : State) (g : Migration) : Nat :=
  1 <<< 63 ||| g.home <<< 61 ||| (s.homeNat g.ehome g.eaddr 8 &&& 31 <<< 43) ||| g.frame

/-- MIGRATE_COPY_COMPLETE: the copy of migration `n` ends. A page that lies elsewhere is first read by 128-byte requests; the first event
opens them, and the copy ends once they are answered. -/
def evMigrateCopyComplete (s : State) : State :=
  match s.migs.find? fun g => g.id = s.req.n with
  | none => s
  | some g =>
    match s.tlr none g.ctx g.tensor with
    | .error _ => s
    | .ok r =>
      let P := tlrPage r
      let a := g.frame * 4096
      let finish := fun (s : State) =>
        ((s.homeWrite g.ehome g.eaddr (bytesOfNat 8 (s.movedEntry g))).endMigration g.id).served
      if !g.acked then s
      else if baseHome g.old ≤ 1 then
        finish (s.setHome g.home ((s.home (baseHome g.old)).blit (baseFrame g.old * 4096) P (s.home g.home) a))
      else
        let ids := s.pageReqs g.id
        if ids.isEmpty then
          (List.range (P / 128)).foldl (fun (s : State) i =>
            (s.request (.page g.id) g.ctx (s.pageLoc g.ctx g.old P (128 * i)) true 128 []).2) s
        else if s.someOpen ids || (s.someRefused ids).isSome then s
        else
          let bs := ids.flatMap fun i => match s.reqStat i with | .answered b => b.take 128 | _ => []
          finish (s.homeWrite g.home a bs)

/-- MIGRATE_COPY_FAIL: the page of migration `n` goes POISONED with a UE_PAGE record. -/
def evMigrateCopyFail (s : State) : State :=
  match s.migs.find? fun g => g.id = s.req.n with
  | none => s
  | some g =>
    if !g.acked then s
    else
      let e := BitVec.ofNat 64 (s.homeNat g.ehome g.eaddr 8)
      let page := match s.tlr none g.ctx g.tensor with | .ok r => tlrPage r | .error _ => 4096
      let s := (s.endMigration g.id).poisonPage g.ctx g.tensor g.page g.ehome g.eaddr e
      (s.takeFault g.ctx { FRec.zero with kind := .uePage, vaddr := tensorAddr g.tensor (g.page * page), pte := e } .env 0 0).served

/-! ### Host accesses (R436) -/

/-- An answered request; one that only the front end had is forgotten. -/
def State.answerReq (s : State) (id : Nat) (st : RStat) : State :=
  match aget s.remote id with
  | none => s
  | some r => if r.who = .none then s.dropReq id else { s with remote := aput s.remote id { r with stat := st } }

/-- HACK_WRITE: the words `bytes` answer the host-access request that word 0 names. -/
def evHackWrite (s : State) : State :=
  s.ctl fun s =>
  let bs := s.req.bytes
  let w := natOfBytes (bs.take 8)
  let tag := bf w 0 32
  match aget s.remote tag with
  | none => s.answer .cpFrame
  | some r =>
    let size := if r.isRead && bf w 32 1 = 0 then 8 + (r.n + 7) / 8 * 8 else 8
    if !r.host || r.stat ≠ .waiting || bf w 33 31 ≠ 0 || bs.length ≠ size then s.answer .cpFrame
    else
      let st : RStat := if bf w 32 1 = 1 then .refused .remoteRefused
        else .answered (if r.isRead then (bs.drop 8).take r.n else [])
      (s.answerReq tag st).served.answer .ok

/-- HOST_ACCESS_TIMEOUT: request `n` has had no answer for 100 ms. -/
def evHostAccessTimeout (s : State) : State :=
  match aget s.remote s.req.n with
  | none => s
  | some r => if r.host && r.stat = .waiting then (s.answerReq s.req.n (.refused .linkFailed)).served else s

/-! ### IPATCH (R404) -/

/-- A sequencer that fetches again after its patch. -/
def Seq.patched (q : Seq) : Seq := { q with patching := false }

/-- IPATCH_COMPLETE: every core has acknowledged the invalidate of core `core`'s patch. -/
def evIpatchComplete (s : State) : State := s.onCore s.rcore fun k => { k with seq := k.seq.patched }

/-! ### Replay (R105, R121) -/

/-- RECOVERING ends once the log is consumed: vector 3, replayed launches go on, live inputs that were held back are served. -/
def State.endReplay (s : State) (x : Nat) : State :=
  let k := s.ctx x
  if k.st ≠ .recovering || !k.replay.isEmpty then s
  else
    let s := (s.onCtx x fun k => { k with st := .running, replayLive := false, outPos := k.outs.length }).raiseVector (x / 16) 3
      (some (BitVec.ofNat 4 x))
    let s := (s.ctx x).launches.foldl (fun (s : State) l => s.checkLaunch x l.1) s
    let s := (s.ctx x).launches.foldl (fun (s : State) l =>
      if l.2.st = .replaying then s.setLaunch x l.1 .running else s) s
    let live := (s.ctx x).liveResps
    let s := live.foldl State.takeResp (s.onCtx x fun k => { k with liveResps := [] })
    (s.settleContext x).served

/-- Takes the first entry from what is left to replay. -/
def State.dropReplay (s : State) (x : Nat) : State := (s.onCtx x fun k => { k with replay := k.replay.tail }).endReplay x

/-- Performs a logged packet again: the context counts as RUNNING meanwhile, nothing is logged, and answers to its source are not sent. -/
def State.replayPacket (s : State) (x : Nat) (p : Packet) : Option State :=
  let k := s.ctx x
  match (s.onCtx x fun k => { k with st := .running, logging := false }).perform p with
  | (false, _) => none
  | (true, t) =>
    let new := (t.sent.drop s.sent.length).filter fun q => q.op ≠ 0x06 && q.op ≠ 0x07 && q.op ≠ 0x08
    let t := new.foldl State.toPort { t with sent := s.sent ++ new, ports := s.ports, unsent := s.unsent }
    let t := t.onPeer p.src fun q => { q with resps := (s.peer p.src).resps }
    some (t.onCtx x fun c => if c.st = .running then { c with st := .recovering, logging := k.logging } else c)

/-- The request of a context that a logged response answers. -/
def State.replayTarget (s : State) (x : Nat) (p : Packet) : Option (Nat × RReq) :=
  s.remote.find? fun r => r.2.peer = p.src && r.2.seq = bf p.roff.toNat 0 32 && r.2.isRead && r.2.stat = .waiting && !r.2.host
    && 16 * r.2.part + r.2.ctx = x

/-- REPLAY_INPUT_DELIVER: the next logged input of a RECOVERING context is delivered, once the replayed program has come to where it
takes it; a logged decision waits for its sluice unless decisions run live. -/
def evReplayInputDeliver (s : State) : State :=
  let x := s.rx
  let k := s.ctx x
  if k.st ≠ .recovering then s
  else
    match k.replay with
    | [] => s.endReplay x
    | e :: _ =>
      match e.kind with
      | 2 =>
        match s.frontWrite x (BitVec.ofNat 64 (natOfBytes (e.payload.take 8))) (e.payload.drop 8) with
        | .ok t => t.dropReplay x
        | .error _ => s.dropReplay x
      | 3 =>
        let w := natOfBytes (e.payload.take 8)
        let q := bf w 0 4
        if ((s.core e.core).recvQ q).pulls.any fun p => p.msg = bf w 8 24 then
          (s.takeFragment e.core q (bf w 8 24) (bf w 32 32) (e.payload.drop 8)).dropReplay x
        else s
      | 4 =>
        let p := Packet.ofBytes e.payload
        if p.op = 0x06 then
          match s.replayTarget x p with
          | none => s
          | some (id, _) => ((s.answerReq id (.answered p.payload)).dropReplay x).served
        else
          match s.replayPacket x p with
          | none => s
          | some t => t.dropReplay x
      | 5 => if k.replayLive then s.dropReplay x else s
      | _ => s.dropReplay x

/-! ### The steps -/

/-- MIGRATE_COPY_COMPLETE. -/
def execMigrateCopyComplete (s : State) : Host.Outcome State Fault Refusal := .next (evMigrateCopyComplete s)
/-- MIGRATE_COPY_FAIL. -/
def execMigrateCopyFail (s : State) : Host.Outcome State Fault Refusal := .next (evMigrateCopyFail s)
/-- HACK_WRITE. -/
def execHackWrite (s : State) : Host.Outcome State Fault Refusal := .next (evHackWrite s)
/-- HOST_ACCESS_TIMEOUT. -/
def execHostAccessTimeout (s : State) : Host.Outcome State Fault Refusal := .next (evHostAccessTimeout s)
/-- IPATCH_COMPLETE. -/
def execIpatchComplete (s : State) : Host.Outcome State Fault Refusal := .next (evIpatchComplete s)
/-- REPLAY_INPUT_DELIVER. -/
def execReplayInputDeliver (s : State) : Host.Outcome State Fault Refusal := .next (evReplayInputDeliver s)

end Sys2Proof.Machine
end

