-- ==== Sys2Proof/Machine/Scalar.lean ====
section
/-!
DEFINITION. The sequencer's A and B slots (R67, R141 to R149).
-/

namespace Sys2Proof.Machine

/-! ### Shared forms -/

/-- An ALU operation on two words with bound L. -/
def State.alu (s : State) (p : Pred) (d : BitVec 6) (L : Nat) (f : State → Word) : Host.Outcome State Fault Refusal :=
  s.slotRun p fun s => s.ws d L (f s)
/-- The register form: `s[A]` and `s[B]`. -/
def State.alu2 (s : State) (p : Pred) (d a b : BitVec 6) (L : Nat) (f : Word → Word → Word) : Host.Outcome State Fault Refusal :=
  s.alu p d L fun s => f (s.rs 0 a) (s.rs 1 b)
/-- The immediate form (R63). -/
def State.aluImm (s : State) (p : Pred) (d a : BitVec 6) (imm : Word) (L : Nat) (f : Word → Word → Word) :
    Host.Outcome State Fault Refusal :=
  s.alu p d L fun s => f (s.rs 0 a) imm

/-- `MULH` (R144). -/
def mulh64 (u : Bool) (a b : Word) : Word :=
  if u then BitVec.ofNat 64 (a.toNat * b.toNat / 2 ^ 64) else BitVec.ofInt 64 (a.toInt * b.toInt / 2 ^ 64)
/-- `MIN` (R144). -/
def min64 (u : Bool) (a b : Word) : Word := if (if u then a.toNat ≤ b.toNat else a.toInt ≤ b.toInt) then a else b
/-- `MAX` (R144). -/
def max64 (u : Bool) (a b : Word) : Word := if (if u then a.toNat ≤ b.toNat else a.toInt ≤ b.toInt) then b else a
/-- The conditions of `CMP` (R145). -/
def cmp64 (cc : BitVec 3) (a b : Word) : Bool :=
  match cc.toNat with
  | 0 => a = b
  | 1 => a ≠ b
  | 2 => a.toInt < b.toInt
  | 3 => b.toInt ≤ a.toInt
  | 4 => a.toNat < b.toNat
  | 5 => b.toNat ≤ a.toNat
  | 6 => a &&& b ≠ 0
  | _ => a &&& b = 0

/-- An FP32 operation on bits [31:0] (R147), zero-extended, with its flags. -/
def State.fop (s : State) (p : Pred) (d : BitVec 6) (f : State → Res) : Host.Outcome State Fault Refusal :=
  s.slotRun p fun s => (s.ws d 4 (BitVec.ofNat 64 (f s).bits)).seqFlags (f s).flags
/-- Bits [31:0] of an `s` name. -/
def State.rs32 (s : State) (pos : Nat) (n : BitVec 6) : Nat := (s.rs pos n).toNat % 2 ^ 32

/-! ### The instructions -/

/-- NOP in a slot (R60, R61). -/
def execSeqNop (s : State) : Host.Outcome State Fault Refusal := .next s
/-- ADD. -/
def execSeqAdd (p : Pred) (d a b : BitVec 6) (s : State) := s.alu2 p d a b 1 fun x y => x + y
/-- ADD, immediate. -/
def execSeqAddImm (p : Pred) (d a : BitVec 6) (imm : BitVec 23) (s : State) := s.aluImm p d a (imm.signExtend 64) 1 fun x y => x + y
/-- SUB. -/
def execSeqSub (p : Pred) (d a b : BitVec 6) (s : State) := s.alu2 p d a b 1 fun x y => x - y
/-- SUB, immediate. -/
def execSeqSubImm (p : Pred) (d a : BitVec 6) (imm : BitVec 23) (s : State) := s.aluImm p d a (imm.signExtend 64) 1 fun x y => x - y
/-- MUL. -/
def execSeqMul (p : Pred) (d a b : BitVec 6) (s : State) := s.alu2 p d a b 3 fun x y => x * y
/-- MUL, immediate. -/
def execSeqMulImm (p : Pred) (d a : BitVec 6) (imm : BitVec 23) (s : State) := s.aluImm p d a (imm.signExtend 64) 3 fun x y => x * y
/-- MULH. -/
def execSeqMulh (p : Pred) (d a b : BitVec 6) (u : Bool) (s : State) := s.alu2 p d a b 3 (mulh64 u)
/-- AND. -/
def execSeqAnd (p : Pred) (d a b : BitVec 6) (s : State) := s.alu2 p d a b 1 fun x y => x &&& y
/-- AND, immediate. -/
def execSeqAndImm (p : Pred) (d a : BitVec 6) (imm : BitVec 23) (s : State) := s.aluImm p d a (imm.setWidth 64) 1 fun x y => x &&& y
/-- OR. -/
def execSeqOr (p : Pred) (d a b : BitVec 6) (s : State) := s.alu2 p d a b 1 fun x y => x ||| y
/-- OR, immediate. -/
def execSeqOrImm (p : Pred) (d a : BitVec 6) (imm : BitVec 23) (s : State) := s.aluImm p d a (imm.setWidth 64) 1 fun x y => x ||| y
/-- XOR. -/
def execSeqXor (p : Pred) (d a b : BitVec 6) (s : State) := s.alu2 p d a b 1 fun x y => x ^^^ y
/-- XOR, immediate. -/
def execSeqXorImm (p : Pred) (d a : BitVec 6) (imm : BitVec 23) (s : State) := s.aluImm p d a (imm.setWidth 64) 1 fun x y => x ^^^ y
/-- ANDN. -/
def execSeqAndn (p : Pred) (d a b : BitVec 6) (s : State) := s.alu2 p d a b 1 fun x y => x &&& ~~~y
/-- SHL. -/
def execSeqShl (p : Pred) (d a b : BitVec 6) (s : State) := s.alu2 p d a b 1 fun x y => x <<< (y.toNat % 64)
/-- SHL, immediate. -/
def execSeqShlImm (p : Pred) (d a : BitVec 6) (sh : BitVec 6) (s : State) := s.aluImm p d a (sh.setWidth 64) 1 fun x y => x <<< (y.toNat % 64)
/-- SHR. -/
def execSeqShr (p : Pred) (d a b : BitVec 6) (s : State) := s.alu2 p d a b 1 fun x y => x >>> (y.toNat % 64)
/-- SHR, immediate. -/
def execSeqShrImm (p : Pred) (d a : BitVec 6) (sh : BitVec 6) (s : State) := s.aluImm p d a (sh.setWidth 64) 1 fun x y => x >>> (y.toNat % 64)
/-- SAR. -/
def execSeqSar (p : Pred) (d a b : BitVec 6) (s : State) := s.alu2 p d a b 1 fun x y => x.sshiftRight (y.toNat % 64)
/-- SAR, immediate. -/
def execSeqSarImm (p : Pred) (d a : BitVec 6) (sh : BitVec 6) (s : State) := s.aluImm p d a (sh.setWidth 64) 1 fun x y => x.sshiftRight (y.toNat % 64)
/-- MIN. -/
def execSeqMin (p : Pred) (d a b : BitVec 6) (u : Bool) (s : State) := s.alu2 p d a b 1 (min64 u)
/-- MIN, immediate, signed. -/
def execSeqMinImm (p : Pred) (d a : BitVec 6) (imm : BitVec 23) (s : State) := s.aluImm p d a (imm.signExtend 64) 1 (min64 false)
/-- MAX. -/
def execSeqMax (p : Pred) (d a b : BitVec 6) (u : Bool) (s : State) := s.alu2 p d a b 1 (max64 u)
/-- MAX, immediate, signed. -/
def execSeqMaxImm (p : Pred) (d a : BitVec 6) (imm : BitVec 23) (s : State) := s.aluImm p d a (imm.signExtend 64) 1 (max64 false)
/-- CMP (R145). -/
def execSeqCmp (p : Pred) (d : BitVec 4) (a b : BitVec 6) (cc : BitVec 3) (s : State) : Host.Outcome State Fault Refusal :=
  s.slotRun p fun s => s.wc d 1 (cmp64 cc (s.rs 0 a) (s.rs 1 b))
/-- CMP, immediate. -/
def execSeqCmpImm (p : Pred) (d : BitVec 4) (a : BitVec 6) (cc : BitVec 3) (imm : BitVec 19) (s : State) :
    Host.Outcome State Fault Refusal :=
  s.slotRun p fun s => s.wc d 1 (cmp64 cc (s.rs 0 a) (imm.signExtend 64))
/-- SEL (R146). -/
def execSeqSel (p : Pred) (d : BitVec 6) (c : BitVec 4) (a b : BitVec 6) (s : State) : Host.Outcome State Fault Refusal :=
  s.slotRun p fun s => s.ws d 1 (if s.rc 2 c then s.rs 0 a else s.rs 1 b)
/-- MOV. -/
def execSeqMov (p : Pred) (d a : BitVec 6) (s : State) := s.alu p d 1 fun s => s.rs 0 a
/-- MOVI. -/
def execSeqMovi (p : Pred) (d : BitVec 6) (imm : BitVec 23) (s : State) := s.alu p d 1 fun _ => imm.signExtend 64
/-- MOVH: the other 48 bits keep what the destination reads in the issue cycle. -/
def execSeqMovh (p : Pred) (d : BitVec 6) (q : BitVec 2) (imm : BitVec 16) (s : State) :=
  s.alu p d 1 fun s => (s.rs 0 d &&& ~~~(0xFFFF#64 <<< (16 * q.toNat))) ||| (imm.setWidth 64 <<< (16 * q.toNat))
/-- FADD (R147). -/
def execSeqFadd (p : Pred) (d a b : BitVec 6) (rm : BitVec 2) (md : Bool) (s : State) :=
  s.fop p d fun s => ieee32.add (s.seqRm rm md) s.seqFtz (s.rs32 0 a) (s.rs32 1 b)
/-- FSUB. -/
def execSeqFsub (p : Pred) (d a b : BitVec 6) (rm : BitVec 2) (md : Bool) (s : State) :=
  s.fop p d fun s => ieee32.sub (s.seqRm rm md) s.seqFtz (s.rs32 0 a) (s.rs32 1 b)
/-- FMUL. -/
def execSeqFmul (p : Pred) (d a b : BitVec 6) (rm : BitVec 2) (md : Bool) (s : State) :=
  s.fop p d fun s => ieee32.mul (s.seqRm rm md) s.seqFtz (s.rs32 0 a) (s.rs32 1 b)
/-- FFMA. -/
def execSeqFfma (p : Pred) (d a b c : BitVec 6) (rm : BitVec 2) (md : Bool) (s : State) :=
  s.fop p d fun s => ieee32.fma (s.seqRm rm md) s.seqFtz (s.rs32 0 a) (s.rs32 1 b) (s.rs32 2 c)
/-- FCMP (R148). -/
def execSeqFcmp (p : Pred) (d : BitVec 4) (a b : BitVec 6) (cc : BitVec 3) (s : State) : Host.Outcome State Fault Refusal :=
  s.slotRun p fun s =>
    let r := fcmpE ieee32 s.seqFtz cc.toNat (s.rs32 0 a) (s.rs32 1 b)
    (s.wc d 2 r.1).seqFlags r.2
/-- CVT (R149, R50): I32 results are sign-extended, the others zero-extended. -/
def execSeqCvt (p : Pred) (d a : BitVec 6) (rm : BitVec 2) (md : Bool) (dst src : BitVec 4) (s : State) :
    Host.Outcome State Fault Refusal :=
  match Fmt.ofCode dst.toNat, Fmt.ofCode src.toNat with
  | some df, some sf =>
    s.slotRun p fun s =>
      let r := convert df sf (s.seqRm rm md) false s.seqFtz ((s.rs 0 a).toNat % 2 ^ sf.width)
      (s.ws d 4 (if df = .i32 then BitVec.ofInt 64 (sx 32 r.bits) else BitVec.ofNat 64 r.bits)).seqFlags r.flags
  | _, _ => .next s
/-- CHK (R142): a mismatch keeps the whole bundle from issuing. -/
def execSeqChk (p : Pred) (a b : BitVec 6) (s : State) : Host.Outcome State Fault Refusal :=
  s.slotRun p fun s => if s.rs 0 a ≠ s.rs 1 b then s.trapOn .chkMismatch else s

end Sys2Proof.Machine
end

