-- ==== Sys2Proof/Machine/SlotM.lean ====
section
/-!
DEFINITION. The sequencer's M slot: scalar-store and tile-store access, tile handles, MOVC (R68, R150 to R154).
-/

namespace Sys2Proof.Machine

/-! ### LDS and STS (R150, R151) -/

/-- The exact address `s[A] + sext(OFF)`. -/
def State.mAddr (s : State) (a : BitVec 6) (off : BitVec 19) : Int := (s.rs 0 a).toNat + off.toInt

/-- The checks of an access of n bytes; an in-flight copy into the bytes stalls the bundle. -/
def State.mAccess (s : State) (sp : Bool) (addr : Int) (n : Nat) (f : State → Nat → State) : State :=
  if addr < 0 || (if sp then 0x1000000 else 0x10000) < addr + n then s.faultOn .seqAddr
  else
    let a := addr.toNat
    if a % n ≠ 0 then s.faultOn .seqAlign
    else if sp && s.preCore.held a (a + n) then s.stallOn .range
    else f s a

/-- LDS: lands in 4 cycles from the scalar store, in 8 from the tile store. -/
def execSeqLds (p : Pred) (d a : BitVec 6) (sp : Bool) (sz : BitVec 2) (sxt : Bool) (off : BitVec 19) (s : State) :
    Host.Outcome State Fault Refusal :=
  s.slotRun p fun s =>
    let n := 2 ^ sz.toNat
    s.mAccess sp (s.mAddr a off) n fun s ad =>
      let v := natOfBytes (if sp then s.tileBytes s.preCore ad n else s.scalarBytes s.preCore ad n)
      s.ws d (if sp then 8 else 4) (if sxt then BitVec.ofInt 64 (sx (8 * n) v) else BitVec.ofNat 64 v)

/-- STS. -/
def execSeqSts (p : Pred) (d a : BitVec 6) (sp : Bool) (sz : BitVec 2) (off : BitVec 19) (s : State) :
    Host.Outcome State Fault Refusal :=
  s.slotRun p fun s =>
    let n := 2 ^ sz.toNat
    let bs := bytesOfNat n (s.rs 1 d).toNat
    s.mAccess sp (s.mAddr a off) n fun s ad =>
      s.onSeqCore fun k => if sp then { k with tile := k.tile.writeBytes ad bs } else { k with scalar := k.scalar.writeBytes ad bs }

/-! ### Tile handles (R153) -/

/-- The value that TALLOC and TSET write: bit [4] set. -/
def handleSet (h : Word) : Word := (h &&& ~~~0x1F#64) ||| 0x10#64

/-- A state check of R153: a transient state stalls, a stable one that is not accepted is a fault, both before the handle
is checked (log entry 115). -/
def State.handleState (s : State) (n : BitVec 6) (ok : TState → Bool) (f : State → State) : State :=
  let e := s.preCore.entry n.toNat
  if ok e.st then f s else if e.transient then s.stallOn .tile else s.faultOn .tileState

/-- TALLOC. -/
def execSeqTalloc (p : Pred) (d a : BitVec 6) (s : State) : Host.Outcome State Fault Refusal :=
  s.slotRun p fun s => s.handleState d (fun st => st = .free) fun s =>
    let h := s.rs 0 a
    if hOk (h &&& ~~~0x10#64) then (s.wt d 2 (handleSet h)).onSeqCore fun k => k.toState d.toNat .alloc else s.faultOn .tileHandle
/-- TSET. -/
def execSeqTset (p : Pred) (d a : BitVec 6) (s : State) : Host.Outcome State Fault Refusal :=
  s.slotRun p fun s => s.handleState d (fun st => st = .alloc || st = .ready) fun s =>
    let h := s.rs 0 a
    if hOk (h &&& ~~~0x10#64) then s.wt d 2 (handleSet h) else s.faultOn .tileHandle
/-- TFREE. -/
def execSeqTfree (p : Pred) (a : BitVec 6) (s : State) : Host.Outcome State Fault Refusal :=
  s.slotRun p fun s => s.handleState a (fun st => st = .alloc || st = .ready) fun s =>
    (s.wt a 2 (s.rt 0 a &&& ~~~0x10#64)).onSeqCore fun k => k.toState a.toNat .free
/-- TGET. -/
def execSeqTget (p : Pred) (d a : BitVec 6) (s : State) : Host.Outcome State Fault Refusal :=
  s.slotRun p fun s => s.ws d 2 (s.rt 0 a)

/-! ### MOVC (R154) -/

/-- The condition registers by name, bit i holding `c`i. -/
def State.readCC (s : State) : Word :=
  BitVec.ofNat 64 (maskOf ((List.range 16).filter fun i => s.rc (8 + i) (BitVec.ofNat 4 i)))

/-- MOVC; its other operation codes are refused at decode. -/
def execSeqMovc (p : Pred) (op : BitVec 4) (d a : BitVec 6) (s : State) : Host.Outcome State Fault Refusal :=
  s.slotRun p fun s =>
    match op.toNat with
    | 0x0 => s.ws d 2 (b2w (s.rc 0 (a.truncate 4)))
    | 0x1 => s.wc (d.truncate 4) 2 (s.rs 0 a ≠ 0)
    | 0x2 => s.ws d 2 s.readCC
    | 0x3 =>
      let v := s.rs 0 a
      (upFrom 1 15).foldl (fun s i => s.wc (BitVec.ofNat 4 i) 2 (v.getLsbD i)) s
    | 0x4 => s.onSeq fun q => (q.settle s.cycle).write 3 0 s.cycle 2 (some (s.rs 0 a))
    | 0x5 => s.onSeq fun q => (q.settle s.cycle).write 4 0 s.cycle 2 (some (s.rs 0 a))
    | 0x6 => s.onSeq fun q => { q with rot := (s.rs 0 a).truncate 5 }
    | 0x8 => s.ws d 2 (s.seqRead 0 3 0)
    | 0x9 => s.ws d 2 (s.seqRead 0 4 0)
    | 0xA => s.ws d 2 (s.preCore.seq.rot.setWidth 64)
    | _ => s

end Sys2Proof.Machine
end

