-- ==== Sys2Proof/Machine/Dispatch.lean ====
section
/-!
DEFINITION. The one dispatch: each instruction of the opcode table to its meaning.
-/

namespace Sys2Proof.Machine

def exec (i : Instr) (s : State) : Host.Outcome State Fault Refusal :=
  match i with
  | .seqNop => Sys2Proof.Machine.execSeqNop s
  | .seqAdd p d a b => Sys2Proof.Machine.execSeqAdd p d a b s
  | .seqAddImm p d a imm => Sys2Proof.Machine.execSeqAddImm p d a imm s
  | .seqSub p d a b => Sys2Proof.Machine.execSeqSub p d a b s
  | .seqSubImm p d a imm => Sys2Proof.Machine.execSeqSubImm p d a imm s
  | .seqMul p d a b => Sys2Proof.Machine.execSeqMul p d a b s
  | .seqMulImm p d a imm => Sys2Proof.Machine.execSeqMulImm p d a imm s
  | .seqMulh p d a b u => Sys2Proof.Machine.execSeqMulh p d a b u s
  | .seqAnd p d a b => Sys2Proof.Machine.execSeqAnd p d a b s
  | .seqAndImm p d a imm => Sys2Proof.Machine.execSeqAndImm p d a imm s
  | .seqOr p d a b => Sys2Proof.Machine.execSeqOr p d a b s
  | .seqOrImm p d a imm => Sys2Proof.Machine.execSeqOrImm p d a imm s
  | .seqXor p d a b => Sys2Proof.Machine.execSeqXor p d a b s
  | .seqXorImm p d a imm => Sys2Proof.Machine.execSeqXorImm p d a imm s
  | .seqAndn p d a b => Sys2Proof.Machine.execSeqAndn p d a b s
  | .seqShl p d a b => Sys2Proof.Machine.execSeqShl p d a b s
  | .seqShlImm p d a sh => Sys2Proof.Machine.execSeqShlImm p d a sh s
  | .seqShr p d a b => Sys2Proof.Machine.execSeqShr p d a b s
  | .seqShrImm p d a sh => Sys2Proof.Machine.execSeqShrImm p d a sh s
  | .seqSar p d a b => Sys2Proof.Machine.execSeqSar p d a b s
  | .seqSarImm p d a sh => Sys2Proof.Machine.execSeqSarImm p d a sh s
  | .seqMin p d a b u => Sys2Proof.Machine.execSeqMin p d a b u s
  | .seqMinImm p d a imm => Sys2Proof.Machine.execSeqMinImm p d a imm s
  | .seqMax p d a b u => Sys2Proof.Machine.execSeqMax p d a b u s
  | .seqMaxImm p d a imm => Sys2Proof.Machine.execSeqMaxImm p d a imm s
  | .seqCmp p d a b cc => Sys2Proof.Machine.execSeqCmp p d a b cc s
  | .seqCmpImm p d a cc imm => Sys2Proof.Machine.execSeqCmpImm p d a cc imm s
  | .seqSel p d c a b => Sys2Proof.Machine.execSeqSel p d c a b s
  | .seqMov p d a => Sys2Proof.Machine.execSeqMov p d a s
  | .seqMovi p d imm => Sys2Proof.Machine.execSeqMovi p d imm s
  | .seqMovh p d q imm => Sys2Proof.Machine.execSeqMovh p d q imm s
  | .seqFadd p d a b rm md => Sys2Proof.Machine.execSeqFadd p d a b rm md s
  | .seqFsub p d a b rm md => Sys2Proof.Machine.execSeqFsub p d a b rm md s
  | .seqFmul p d a b rm md => Sys2Proof.Machine.execSeqFmul p d a b rm md s
  | .seqFfma p d a b c rm md => Sys2Proof.Machine.execSeqFfma p d a b c rm md s
  | .seqFcmp p d a b cc => Sys2Proof.Machine.execSeqFcmp p d a b cc s
  | .seqCvt p d a rm md dst src => Sys2Proof.Machine.execSeqCvt p d a rm md dst src s
  | .seqChk p a b => Sys2Proof.Machine.execSeqChk p a b s
  | .seqLds p d a sp sz sx off => Sys2Proof.Machine.execSeqLds p d a sp sz sx off s
  | .seqSts p d a sp sz off => Sys2Proof.Machine.execSeqSts p d a sp sz off s
  | .seqTset p d a => Sys2Proof.Machine.execSeqTset p d a s
  | .seqTget p d a => Sys2Proof.Machine.execSeqTget p d a s
  | .seqTalloc p d a => Sys2Proof.Machine.execSeqTalloc p d a s
  | .seqTfree p a => Sys2Proof.Machine.execSeqTfree p a s
  | .seqMovc p op d a => Sys2Proof.Machine.execSeqMovc p op d a s
  | .seqCpyin p ch t a tr sp cv => Sys2Proof.Machine.execSeqCpyin p ch t a tr sp cv s
  | .seqCpyout p ch t a tr => Sys2Proof.Machine.execSeqCpyout p ch t a tr s
  | .seqCpyxc p ch t b tr => Sys2Proof.Machine.execSeqCpyxc p ch t b tr s
  | .seqDrain p ch => Sys2Proof.Machine.execSeqDrain p ch s
  | .seqMxldw p t a b ns => Sys2Proof.Machine.execSeqMxldw p t a b ns s
  | .seqMxswap p => Sys2Proof.Machine.execSeqMxswap p s
  | .seqMxmul p t a b ten acc z => Sys2Proof.Machine.execSeqMxmul p t a b ten acc z s
  | .seqEpi p t a => Sys2Proof.Machine.execSeqEpi p t a s
  | .seqQfence p mask => Sys2Proof.Machine.execSeqQfence p mask s
  | .seqTsend p ch t a b => Sys2Proof.Machine.execSeqTsend p ch t a b s
  | .seqTrecv p t q => Sys2Proof.Machine.execSeqTrecv p t q s
  | .seqColl p ch a kind op res => Sys2Proof.Machine.execSeqColl p ch a kind op res s
  | .seqBr p off => Sys2Proof.Machine.execSeqBr p off s
  | .seqBrc p a => Sys2Proof.Machine.execSeqBrc p a s
  | .seqKloop p off => Sys2Proof.Machine.execSeqKloop p off s
  | .seqCall p off => Sys2Proof.Machine.execSeqCall p off s
  | .seqRet p => Sys2Proof.Machine.execSeqRet p s
  | .seqTop p topn h0 h1 h2 h3 => Sys2Proof.Machine.execSeqTop p topn h0 h1 h2 h3 s
  | .seqBind p a b => Sys2Proof.Machine.execSeqBind p a b s
  | .seqRebind p a b => Sys2Proof.Machine.execSeqRebind p a b s
  | .seqTrestart p a abandon => Sys2Proof.Machine.execSeqTrestart p a abandon s
  | .seqTwaitState p n mask => Sys2Proof.Machine.execSeqTwaitState p n mask s
  | .seqTwaitAll p => Sys2Proof.Machine.execSeqTwaitAll p s
  | .seqTwaitCh p ch => Sys2Proof.Machine.execSeqTwaitCh p ch s
  | .seqLaunch p a nb n => Sys2Proof.Machine.execSeqLaunch p a nb n s
  | .seqTenq p a nb n => Sys2Proof.Machine.execSeqTenq p a nb n s
  | .seqDdec p a b scope => Sys2Proof.Machine.execSeqDdec p a b scope s
  | .seqDdecCancel p a level => Sys2Proof.Machine.execSeqDdecCancel p a level s
  | .seqMark p imm => Sys2Proof.Machine.execSeqMark p imm s
  | .seqIpatch p a b lane => Sys2Proof.Machine.execSeqIpatch p a b lane s
  | .seqSysCsrr p d a n => Sys2Proof.Machine.execSeqSysCsrr p d a n s
  | .seqSysCsrw p a b n => Sys2Proof.Machine.execSeqSysCsrw p a b n s
  | .seqSysCsrs p d a b n => Sys2Proof.Machine.execSeqSysCsrs p d a b n s
  | .seqSysCsrc p d a b n => Sys2Proof.Machine.execSeqSysCsrc p d a b n s
  | .seqSysInt p a => Sys2Proof.Machine.execSeqSysInt p a s
  | .seqSysRkreg p d a b => Sys2Proof.Machine.execSeqSysRkreg p d a b s
  | .seqSysRkrev p a => Sys2Proof.Machine.execSeqSysRkrev p a s
  | .seqEret p => Sys2Proof.Machine.execSeqEret p s
  | .seqTrap p imm => Sys2Proof.Machine.execSeqTrap p imm s
  | .laneNop h f => Sys2Proof.Machine.execLaneNop h f s
  | .laneBra h off => Sys2Proof.Machine.execLaneBra h off s
  | .laneBrx h f => Sys2Proof.Machine.execLaneBrx h f s
  | .laneCall h off => Sys2Proof.Machine.execLaneCall h off s
  | .laneRet h f => Sys2Proof.Machine.execLaneRet h f s
  | .laneJoin h off => Sys2Proof.Machine.execLaneJoin h off s
  | .laneExit h f => Sys2Proof.Machine.execLaneExit h f s
  | .laneYield h f => Sys2Proof.Machine.execLaneYield h f s
  | .laneWait h f => Sys2Proof.Machine.execLaneWait h f s
  | .laneIadd h f => Sys2Proof.Machine.execLaneIadd h f s
  | .laneIsub h f => Sys2Proof.Machine.execLaneIsub h f s
  | .laneImul h f => Sys2Proof.Machine.execLaneImul h f s
  | .laneImad h f => Sys2Proof.Machine.execLaneImad h f s
  | .laneImulh h f => Sys2Proof.Machine.execLaneImulh h f s
  | .laneIdiv h f => Sys2Proof.Machine.execLaneIdiv h f s
  | .laneIrem h f => Sys2Proof.Machine.execLaneIrem h f s
  | .laneImin h f => Sys2Proof.Machine.execLaneImin h f s
  | .laneImax h f => Sys2Proof.Machine.execLaneImax h f s
  | .laneIshift h f => Sys2Proof.Machine.execLaneIshift h f s
  | .laneIlogic h f => Sys2Proof.Machine.execLaneIlogic h f s
  | .laneIbit h f => Sys2Proof.Machine.execLaneIbit h f s
  | .laneBfx h f => Sys2Proof.Machine.execLaneBfx h f s
  | .laneBfi h f => Sys2Proof.Machine.execLaneBfi h f s
  | .laneIcmp h f => Sys2Proof.Machine.execLaneIcmp h f s
  | .laneSel h f => Sys2Proof.Machine.execLaneSel h f s
  | .laneIabs h f => Sys2Proof.Machine.execLaneIabs h f s
  | .laneIneg h f => Sys2Proof.Machine.execLaneIneg h f s
  | .laneIaddImm h f => Sys2Proof.Machine.execLaneIaddImm h f s
  | .laneIsubImm h f => Sys2Proof.Machine.execLaneIsubImm h f s
  | .laneImulImm h f => Sys2Proof.Machine.execLaneImulImm h f s
  | .laneIminImm h f => Sys2Proof.Machine.execLaneIminImm h f s
  | .laneImaxImm h f => Sys2Proof.Machine.execLaneImaxImm h f s
  | .laneFadd h f => Sys2Proof.Machine.execLaneFadd h f s
  | .laneFsub h f => Sys2Proof.Machine.execLaneFsub h f s
  | .laneFmul h f => Sys2Proof.Machine.execLaneFmul h f s
  | .laneFfma h f => Sys2Proof.Machine.execLaneFfma h f s
  | .laneFmin h f => Sys2Proof.Machine.execLaneFmin h f s
  | .laneFmax h f => Sys2Proof.Machine.execLaneFmax h f s
  | .laneFcmp h f => Sys2Proof.Machine.execLaneFcmp h f s
  | .laneFsf h f => Sys2Proof.Machine.execLaneFsf h f s
  | .laneFaddImm h f => Sys2Proof.Machine.execLaneFaddImm h f s
  | .laneFmulImm h f => Sys2Proof.Machine.execLaneFmulImm h f s
  | .laneSladd h f => Sys2Proof.Machine.execLaneSladd h f s
  | .laneSlsub h f => Sys2Proof.Machine.execLaneSlsub h f s
  | .laneSlmul h f => Sys2Proof.Machine.execLaneSlmul h f s
  | .laneSldiv h f => Sys2Proof.Machine.execLaneSldiv h f s
  | .laneSlcmp h f => Sys2Proof.Machine.execLaneSlcmp h f s
  | .laneCvt h f => Sys2Proof.Machine.execLaneCvt h f s
  | .laneCvtw h f => Sys2Proof.Machine.execLaneCvtw h f s
  | .laneCvtn h f => Sys2Proof.Machine.execLaneCvtn h f s
  | .lanePack h f => Sys2Proof.Machine.execLanePack h f s
  | .laneUnpk h f => Sys2Proof.Machine.execLaneUnpk h f s
  | .laneMov h f => Sys2Proof.Machine.execLaneMov h f s
  | .laneMovi h f => Sys2Proof.Machine.execLaneMovi h f s
  | .laneB2v h f => Sys2Proof.Machine.execLaneB2v h f s
  | .laneV2b h f => Sys2Proof.Machine.execLaneV2b h f s
  | .laneShfl h f => Sys2Proof.Machine.execLaneShfl h f s
  | .laneVote h f => Sys2Proof.Machine.execLaneVote h f s
  | .laneBred h f => Sys2Proof.Machine.execLaneBred h f s
  | .laneLd h f => Sys2Proof.Machine.execLaneLd h f s
  | .laneSt h f => Sys2Proof.Machine.execLaneSt h f s
  | .laneLdt h f => Sys2Proof.Machine.execLaneLdt h f s
  | .laneStt h f => Sys2Proof.Machine.execLaneStt h f s
  | .laneLdb h f => Sys2Proof.Machine.execLaneLdb h f s
  | .laneStb h f => Sys2Proof.Machine.execLaneStb h f s
  | .laneAtom h f => Sys2Proof.Machine.execLaneAtom h f s
  | .laneRed h f => Sys2Proof.Machine.execLaneRed h f s
  | .laneCpy h f => Sys2Proof.Machine.execLaneCpy h f s
  | .laneDrain h f => Sys2Proof.Machine.execLaneDrain h f s
  | .lanePref h f => Sys2Proof.Machine.execLanePref h f s
  | .lanePacq h f => Sys2Proof.Machine.execLanePacq h f s
  | .lanePrel h f => Sys2Proof.Machine.execLanePrel h f s
  | .laneFence h f => Sys2Proof.Machine.execLaneFence h f s
  | .laneBar h f => Sys2Proof.Machine.execLaneBar h f s
  | .laneQfence h f => Sys2Proof.Machine.execLaneQfence h f s
  | .laneQbind h f => Sys2Proof.Machine.execLaneQbind h f s
  | .laneMmj h f => Sys2Proof.Machine.execLaneMmj h f s
  | .laneTopn h f => Sys2Proof.Machine.execLaneTopn h f s
  | .laneTenq h f => Sys2Proof.Machine.execLaneTenq h f s
  | .laneDdec h f => Sys2Proof.Machine.execLaneDdec h f s
  | .laneDdecCancel h f => Sys2Proof.Machine.execLaneDdecCancel h f s
  | .laneLaunch h f => Sys2Proof.Machine.execLaneLaunch h f s
  | .laneTrap h f => Sys2Proof.Machine.execLaneTrap h f s
  | .laneBkpt h f => Sys2Proof.Machine.execLaneBkpt h f s
  | .laneChkt h f => Sys2Proof.Machine.execLaneChkt h f s
  | .laneCsrr h f => Sys2Proof.Machine.execLaneCsrr h f s
  | .laneCsrw h f => Sys2Proof.Machine.execLaneCsrw h f s
  | .laneFlgr h f => Sys2Proof.Machine.execLaneFlgr h f s
  | .polNop => Sys2Proof.Machine.execPolNop s
  | .polLdi d imm => Sys2Proof.Machine.execPolLdi d imm s
  | .polMov d a => Sys2Proof.Machine.execPolMov d a s
  | .polAdd d a b => Sys2Proof.Machine.execPolAdd d a b s
  | .polAddImm d a imm => Sys2Proof.Machine.execPolAddImm d a imm s
  | .polSub d a b => Sys2Proof.Machine.execPolSub d a b s
  | .polSubImm d a imm => Sys2Proof.Machine.execPolSubImm d a imm s
  | .polAnd d a b => Sys2Proof.Machine.execPolAnd d a b s
  | .polAndImm d a imm => Sys2Proof.Machine.execPolAndImm d a imm s
  | .polOr d a b => Sys2Proof.Machine.execPolOr d a b s
  | .polOrImm d a imm => Sys2Proof.Machine.execPolOrImm d a imm s
  | .polXor d a b => Sys2Proof.Machine.execPolXor d a b s
  | .polXorImm d a imm => Sys2Proof.Machine.execPolXorImm d a imm s
  | .polShl d a b => Sys2Proof.Machine.execPolShl d a b s
  | .polShlImm d a sh => Sys2Proof.Machine.execPolShlImm d a sh s
  | .polShr d a b => Sys2Proof.Machine.execPolShr d a b s
  | .polShrImm d a sh => Sys2Proof.Machine.execPolShrImm d a sh s
  | .polMin d a b => Sys2Proof.Machine.execPolMin d a b s
  | .polMinImm d a imm => Sys2Proof.Machine.execPolMinImm d a imm s
  | .polMax d a b => Sys2Proof.Machine.execPolMax d a b s
  | .polMaxImm d a imm => Sys2Proof.Machine.execPolMaxImm d a imm s
  | .polCmp d a b cc => Sys2Proof.Machine.execPolCmp d a b cc s
  | .polSel d a b c => Sys2Proof.Machine.execPolSel d a b c s
  | .polBf a off => Sys2Proof.Machine.execPolBf a off s
  | .polJf off => Sys2Proof.Machine.execPolJf off s
  | .polLoop n => Sys2Proof.Machine.execPolLoop n s
  | .polEndl => Sys2Proof.Machine.execPolEndl s
  | .polLdv d a t f => Sys2Proof.Machine.execPolLdv d a t f s
  | .polScanMin d a t f => Sys2Proof.Machine.execPolScanMin d a t f s
  | .polScanMax d a t f => Sys2Proof.Machine.execPolScanMax d a t f s
  | .polCnt d a => Sys2Proof.Machine.execPolCnt d a s
  | .polDec a b k imm => Sys2Proof.Machine.execPolDec a b k imm s
  | .polEnd => Sys2Proof.Machine.execPolEnd s
  | .moduleReset => Sys2Proof.Machine.execModuleReset s
  | .clockControllerTick => Sys2Proof.Machine.execClockControllerTick s
  | .cpRegisterWrite => Sys2Proof.Machine.execCpRegisterWrite s
  | .coreMaskWrite => Sys2Proof.Machine.execCoreMaskWrite s
  | .rootMaskWrite => Sys2Proof.Machine.execRootMaskWrite s
  | .polderRangeWrite => Sys2Proof.Machine.execPolderRangeWrite s
  | .vectorPendingClear => Sys2Proof.Machine.execVectorPendingClear s
  | .descriptorWrite => Sys2Proof.Machine.execDescriptorWrite s
  | .imageLoadOpen => Sys2Proof.Machine.execImageLoadOpen s
  | .imageTransfer => Sys2Proof.Machine.execImageTransfer s
  | .startVectorWrite => Sys2Proof.Machine.execStartVectorWrite s
  | .contextRetire => Sys2Proof.Machine.execContextRetire s
  | .contextScrub => Sys2Proof.Machine.execContextScrub s
  | .controlPortDataWrite => Sys2Proof.Machine.execControlPortDataWrite s
  | .controlNodeMap => Sys2Proof.Machine.execControlNodeMap s
  | .controlNodeUnmap => Sys2Proof.Machine.execControlNodeUnmap s
  | .translationInvalidate => Sys2Proof.Machine.execTranslationInvalidate s
  | .translationInvalidateAck => Sys2Proof.Machine.execTranslationInvalidateAck s
  | .pennantWordWrite => Sys2Proof.Machine.execPennantWordWrite s
  | .depCounterWrite => Sys2Proof.Machine.execDepCounterWrite s
  | .cancelCommand => Sys2Proof.Machine.execCancelCommand s
  | .policyShadowWrite => Sys2Proof.Machine.execPolicyShadowWrite s
  | .policyCheck => Sys2Proof.Machine.execPolicyCheck s
  | .policyCheckDone => Sys2Proof.Machine.execPolicyCheckDone s
  | .policySwap => Sys2Proof.Machine.execPolicySwap s
  | .policyDisable => Sys2Proof.Machine.execPolicyDisable s
  | .policyRetire => Sys2Proof.Machine.execPolicyRetire s
  | .policyScrub => Sys2Proof.Machine.execPolicyScrub s
  | .freeFrameAppend => Sys2Proof.Machine.execFreeFrameAppend s
  | .lpresetWrite => Sys2Proof.Machine.execLpresetWrite s
  | .hackWrite => Sys2Proof.Machine.execHackWrite s
  | .lportEnable => Sys2Proof.Machine.execLportEnable s
  | .lportDisable => Sys2Proof.Machine.execLportDisable s
  | .lportReadClear => Sys2Proof.Machine.execLportReadClear s
  | .lfabWrite => Sys2Proof.Machine.execLfabWrite s
  | .lfabReadClear => Sys2Proof.Machine.execLfabReadClear s
  | .wctlWrite => Sys2Proof.Machine.execWctlWrite s
  | .breakpointWrite => Sys2Proof.Machine.execBreakpointWrite s
  | .watchpointWrite => Sys2Proof.Machine.execWatchpointWrite s
  | .haltCommand => Sys2Proof.Machine.execHaltCommand s
  | .resumeCommand => Sys2Proof.Machine.execResumeCommand s
  | .debugWindowSelect => Sys2Proof.Machine.execDebugWindowSelect s
  | .debugWindowRead => Sys2Proof.Machine.execDebugWindowRead s
  | .debugWindowWrite => Sys2Proof.Machine.execDebugWindowWrite s
  | .pwrSetActive => Sys2Proof.Machine.execPwrSetActive s
  | .pwrEnterP3 => Sys2Proof.Machine.execPwrEnterP3 s
  | .pwrEnterP4 => Sys2Proof.Machine.execPwrEnterP4 s
  | .attestationRequest => Sys2Proof.Machine.execAttestationRequest s
  | .tenantKeyInstall => Sys2Proof.Machine.execTenantKeyInstall s
  | .tenantKeyRemove => Sys2Proof.Machine.execTenantKeyRemove s
  | .debugLevelRequest => Sys2Proof.Machine.execDebugLevelRequest s
  | .vendorUnlockExit => Sys2Proof.Machine.execVendorUnlockExit s
  | .ueStrand => Sys2Proof.Machine.execUeStrand s
  | .ueSeq => Sys2Proof.Machine.execUeSeq s
  | .ueArray => Sys2Proof.Machine.execUeArray s
  | .uePageFrame => Sys2Proof.Machine.execUePageFrame s
  | .localListStart => Sys2Proof.Machine.execLocalListStart s
  | .launchPlaceStartVector => Sys2Proof.Machine.execLaunchPlaceStartVector s
  | .unitRetire => Sys2Proof.Machine.execUnitRetire s
  | .coreSaveComplete => Sys2Proof.Machine.execCoreSaveComplete s
  | .replayInputDeliver => Sys2Proof.Machine.execReplayInputDeliver s
  | .creditGrant => Sys2Proof.Machine.execCreditGrant s
  | .taskProcess => Sys2Proof.Machine.execTaskProcess s
  | .depCounterDecrement => Sys2Proof.Machine.execDepCounterDecrement s
  | .cancelArrive => Sys2Proof.Machine.execCancelArrive s
  | .taskCompletionSequence => Sys2Proof.Machine.execTaskCompletionSequence s
  | .policyInvocationStart => Sys2Proof.Machine.execPolicyInvocationStart s
  | .policyOverrun => Sys2Proof.Machine.execPolicyOverrun s
  | .sluiceReplayDecision => Sys2Proof.Machine.execSluiceReplayDecision s
  | .decisionKeep => Sys2Proof.Machine.execDecisionKeep s
  | .decisionPlace => Sys2Proof.Machine.execDecisionPlace s
  | .decisionSteal => Sys2Proof.Machine.execDecisionSteal s
  | .decisionPreempt => Sys2Proof.Machine.execDecisionPreempt s
  | .decisionKillstrand => Sys2Proof.Machine.execDecisionKillstrand s
  | .decisionRestart => Sys2Proof.Machine.execDecisionRestart s
  | .decisionPark => Sys2Proof.Machine.execDecisionPark s
  | .decisionMap => Sys2Proof.Machine.execDecisionMap s
  | .decisionMigrate => Sys2Proof.Machine.execDecisionMigrate s
  | .decisionReplay => Sys2Proof.Machine.execDecisionReplay s
  | .decisionEscalate => Sys2Proof.Machine.execDecisionEscalate s
  | .decisionRemap => Sys2Proof.Machine.execDecisionRemap s
  | .copyCommandStart => Sys2Proof.Machine.execCopyCommandStart s
  | .copyCommandComplete => Sys2Proof.Machine.execCopyCommandComplete s
  | .copyFail => Sys2Proof.Machine.execCopyFail s
  | .cpyxcTransferBegin => Sys2Proof.Machine.execCpyxcTransferBegin s
  | .drainMarkerComplete => Sys2Proof.Machine.execDrainMarkerComplete s
  | .gangForm => Sys2Proof.Machine.execGangForm s
  | .snapCopyRetire => Sys2Proof.Machine.execSnapCopyRetire s
  | .invocationEnd => Sys2Proof.Machine.execInvocationEnd s
  | .bandFree => Sys2Proof.Machine.execBandFree s
  | .laneAccessComplete => Sys2Proof.Machine.execLaneAccessComplete s
  | .refusalReport => Sys2Proof.Machine.execRefusalReport s
  | .queueEndpointAccept => Sys2Proof.Machine.execQueueEndpointAccept s
  | .hostAccessTimeout => Sys2Proof.Machine.execHostAccessTimeout s
  | .migrateCopyComplete => Sys2Proof.Machine.execMigrateCopyComplete s
  | .migrateCopyFail => Sys2Proof.Machine.execMigrateCopyFail s
  | .mxldwStart => Sys2Proof.Machine.execMxldwStart s
  | .weightLoadComplete => Sys2Proof.Machine.execWeightLoadComplete s
  | .mxswapPerform => Sys2Proof.Machine.execMxswapPerform s
  | .streamEnter => Sys2Proof.Machine.execStreamEnter s
  | .streamLastRow => Sys2Proof.Machine.execStreamLastRow s
  | .streamRowResult => Sys2Proof.Machine.execStreamRowResult s
  | .accBankWrite => Sys2Proof.Machine.execAccBankWrite s
  | .streamOperandFault => Sys2Proof.Machine.execStreamOperandFault s
  | .jointOpEnter => Sys2Proof.Machine.execJointOpEnter s
  | .epiStart => Sys2Proof.Machine.execEpiStart s
  | .epiRowWrite => Sys2Proof.Machine.execEpiRowWrite s
  | .epiRetire => Sys2Proof.Machine.execEpiRetire s
  | .barrierArrival => Sys2Proof.Machine.execBarrierArrival s
  | .barrierFlip => Sys2Proof.Machine.execBarrierFlip s
  | .pennantOperationPerform => Sys2Proof.Machine.execPennantOperationPerform s
  | .linkTrainingEnd => Sys2Proof.Machine.execLinkTrainingEnd s
  | .linkTrainingTimeout => Sys2Proof.Machine.execLinkTrainingTimeout s
  | .linkFlitError => Sys2Proof.Machine.execLinkFlitError s
  | .linkReplayComplete => Sys2Proof.Machine.execLinkReplayComplete s
  | .linkReplayTimeout => Sys2Proof.Machine.execLinkReplayTimeout s
  | .linkLaneLockLoss => Sys2Proof.Machine.execLinkLaneLockLoss s
  | .linkRetrainEnd => Sys2Proof.Machine.execLinkRetrainEnd s
  | .linkRecoveringTimeout => Sys2Proof.Machine.execLinkRecoveringTimeout s
  | .e2eTimerExpiry => Sys2Proof.Machine.execE2eTimerExpiry s
  | .e2eLimitExpiry => Sys2Proof.Machine.execE2eLimitExpiry s
  | .packetWrite => Sys2Proof.Machine.execPacketWrite s
  | .packetRead => Sys2Proof.Machine.execPacketRead s
  | .packetAtomic => Sys2Proof.Machine.execPacketAtomic s
  | .packetRed => Sys2Proof.Machine.execPacketRed s
  | .packetPennant => Sys2Proof.Machine.execPacketPennant s
  | .packetResp => Sys2Proof.Machine.execPacketResp s
  | .packetAck => Sys2Proof.Machine.execPacketAck s
  | .packetNack => Sys2Proof.Machine.execPacketNack s
  | .packetTnote => Sys2Proof.Machine.execPacketTnote s
  | .packetTpull => Sys2Proof.Machine.execPacketTpull s
  | .packetTdata => Sys2Proof.Machine.execPacketTdata s
  | .packetCdata => Sys2Proof.Machine.execPacketCdata s
  | .packetCres => Sys2Proof.Machine.execPacketCres s
  | .linkSendEntryStart => Sys2Proof.Machine.execLinkSendEntryStart s
  | .collEntryStart => Sys2Proof.Machine.execCollEntryStart s
  | .collEntryComplete => Sys2Proof.Machine.execCollEntryComplete s
  | .ipatchComplete => Sys2Proof.Machine.execIpatchComplete s
  | .hangWatchdogFire => Sys2Proof.Machine.execHangWatchdogFire s
  | .stopReport => Sys2Proof.Machine.execStopReport s
  | .illegalOp => Sys2Proof.Machine.execIllegalOp s
  | .instructionFetchFault => Sys2Proof.Machine.execInstructionFetchFault s
  | .packetDiscard => Sys2Proof.Machine.execPacketDiscard s
  | .coreFailure => Sys2Proof.Machine.execCoreFailure s
  | .hbmChannelFailure => Sys2Proof.Machine.execHbmChannelFailure s

end Sys2Proof.Machine
end

