-- ==== Sys2Proof/Machine/Registers.lean ====
section
/-!
DEFINITION. The control port's reads (R4, R102, R103, R131, R326, R330, R336, R364, R365, R386, R392, R393, R399, R400, R406 to R410, R414,
R417): every register word of the register space as the control node reads it, and a context's memory (R131). Write-only registers and the
addresses of no register read zero. The rights are those of R123 and R124; what those tables leave open is in log entry 110.
-/

namespace Sys2Proof.Machine

/-! ### The words of the registers -/

/-- PWR (R414). -/
def State.pwrWord (s : State) : Nat := s.pst ||| s.fmax <<< 16 ||| s.fcur <<< 24 ||| (s.temp % 256) <<< 32
/-- LFAB (R365). -/
def State.lfabWord (s : State) : Nat := s.e2et ||| s.devid <<< 16 ||| s.dupcnt <<< 32

/-- A word of the device region. -/
def State.deviceWord (s : State) (o : Nat) : Nat :=
  if o = 0 then s.health.toNat % 2 ^ 64
  else if o = 8 then s.health.toNat / 2 ^ 64
  else if o = 0x10 then s.pwrWord
  else if o = 0x18 then s.lfabWord
  else if 0x100 ≤ o && o < 0x180 then (s.port ((o - 0x100) / 8)).word
  else if 0x1000 ≤ o && o < 0x1800 then ((aget s.groups ((o - 0x1000) / 8)).getD 0).toNat
  else 0

/-- The code of a policy slot's state (R336). -/
def PState.code : PState → Nat
  | .absent => 0 | .loaded => 1 | .checked => 2 | .active => 3 | .disabled => 4 | .retired => 5
/-- The code of a shadow's state (R336). -/
def PShadow.code : PShadow → Nat
  | .empty => 0 | .loaded => 1 | .checking => 2 | .checked => 3 | .rejected => 4
/-- PSTAT (R336). -/
def PSlot.word (q : PSlot) : Nat :=
  q.st.code ||| q.shadow.code <<< 5 ||| (q.alen % 1024) <<< 10 ||| (q.slen % 1024) <<< 20 ||| (q.cidx % 1024) <<< 30 ||| (q.cfail % 16) <<< 40
    ||| (q.ovrn % 16) <<< 44
/-- The head of a free-frame list, in the append layout (R409). -/
def frameHead (l : List (Nat × Nat)) : Nat := (l.head?.map fun e => e.1 <<< 32 ||| e.2).getD 0

/-- A word of a partition's region. -/
def Partition.word (q : Partition) (o : Nat) : Nat :=
  if o = 0 then q.cores.toNat
  else if o = 8 then q.roots.toNat
  else if o = 0x10 then q.bandq
  else if o = 0x18 then q.vecs.toNat
  else if 0x100 ≤ o && o < 0x180 then ((q.polders[(o - 0x100) / 8]?).getD 0).toNat
  else if o = 0x1000 then q.slot.word
  else if 0x1100 ≤ o && o < 0x1180 then ((q.slot.ring[(o - 0x1100) / 8]?).getD 0).toNat
  else if o = 0x2008 then frameHead q.free0
  else if o = 0x2010 then q.free0.length
  else if o = 0x2108 then frameHead q.free1
  else if o = 0x2110 then q.free1.length
  else 0

/-- The code of a context state (R105). -/
def CState.code : CState → Nat
  | .empty => 0 | .loading => 1 | .ready => 2 | .running => 3 | .preempted => 4 | .recovering => 5 | .failed => 6 | .retired => 7

/-- Word i of the descriptor of the context in a slot (R103). -/
def State.descWord (s : State) (x i : Nat) : Nat :=
  let k := s.ctx x
  match i with
  | 0 => k.st.code ||| (x / 16) <<< 4 ||| (x % 16) <<< 8 ||| b2n k.record <<< 12 ||| b2n k.rsafe <<< 13
  | 1 => k.ttab.toNat
  | 2 => k.ptab.toNat
  | 3 => k.log.toNat
  | 4 => k.logsz.toNat
  | 5 => k.save.toNat
  | 6 => k.sset.toNat
  | 7 => k.keys.toNat
  | 8 => k.hot.toNat
  | 9 => k.frec.toNat
  | 10 => k.cores.toNat
  | _ => 0

/-- Two neighbouring 32-bit level counters (R330): the ids n and n + 1; id 0 names nothing and reads 0. -/
def State.levelPair (s : State) (x level n : Nat) : Nat :=
  let one (i : Nat) : Nat := if i = 0 then 0 else s.levelCount x level i % 2 ^ 32
  one n ||| one (n + 1) <<< 32

/-- Whether a launch of a context is active. -/
def Context.launchActive (k : Context) (id : Nat) : Bool := ((aget k.launches id).map fun l => l.st.active).getD false

/-- A word of a context slot's region. -/
def State.ctxWord (s : State) (x o : Nat) : Nat :=
  let k := s.ctx x
  if o < 0x80 then s.descWord x (o / 8)
  else if o = 0x100 then k.lstate ||| k.lastLid <<< 32
  else if 0x200 ≤ o && o < 0x400 then ((aget k.start ((o - 0x200) / 8)).getD 0).toNat
  else if 0x400 ≤ o && o < 0xC00 then
    let d := (aget k.deps ((o - 0x400) / 8)).getD ⟨0, false⟩
    (BitVec.ofInt 32 d.count).toNat ||| b2n d.ovf <<< 32
  else if o = 0xC10 then k.launchSel.toNat
  else if o = 0xC18 then if k.launchActive k.launchSel.toNat then s.launchCount x k.launchSel.toNat else 0
  else if 0x1000 ≤ o && o < 0x2000 then s.levelPair x 2 ((o - 0x1000) / 4)
  else if 0x2000 ≤ o && o < 0x2400 then s.levelPair x 3 ((o - 0x2000) / 4)
  else if 0x2400 ≤ o && o < 0x2500 then s.levelPair x 4 ((o - 0x2400) / 4)
  else 0

/-- The code of a trigger state (R397). -/
def Trig.code : Trig → Nat
  | .off => 0 | .armed => 1 | .triggered => 2 | .draining => 3
/-- WCTL (R392). -/
def Watch.wctl (w : Watch) : Nat :=
  b2n w.ilk ||| b2n w.drift <<< 1 ||| b2n w.memt <<< 2 ||| w.mslice.toNat <<< 3 ||| w.itrig.code <<< 11 ||| w.wexp <<< 14
    ||| b2n w.twrap <<< 20 ||| w.tidx <<< 21 ||| w.dthr.toNat <<< 32
/-- A breakpoint or watchpoint register. -/
def breakNat (l : List (Nat × Break)) (n : Nat) : Nat := ((aget l n).map fun b => b.word.toNat).getD 0
/-- A word of a core's watch registers (R392, R399, R400, R410). -/
def Watch.word (w : Watch) (o : Nat) : Nat :=
  if o = 0 then w.wctl
  else if o = 0x10 then w.dwin.toNat
  else if 0x100 ≤ o && o < 0x140 then breakNat w.sbp ((o - 0x100) / 8) % 2 ^ 64
  else if 0x200 ≤ o && o < 0x400 then breakNat w.lbp ((o - 0x200) / 8) % 2 ^ 64
  else if 0x400 ≤ o && o < 0x440 then breakNat w.wps ((o - 0x400) / 16) / 2 ^ (8 * (o % 16)) % 2 ^ 64
  else 0

/-! ### Rights (R123, R124, R393) -/

/-- Whether the request may read the descriptor of a context of a partition: a TENANT-OWNED partition's only with its own key, unless
the device is VENDOR-UNLOCKED. -/
def State.mayDescribe (s : State) (p : Nat) : Bool := s.vendor || !(s.part p).key || (s.req.auth && s.rp = p)
/-- Whether the request has debug level VENDOR. -/
def State.vendorLevel (s : State) : Bool := (List.range 16).any fun p => (s.part p).debug = 2
/-- Whether the request has the rights of its own partition's level TENANT. -/
def State.tenantLevel (s : State) : Bool := (s.part s.rp).debug = 1 && s.req.auth

/-- A word of a core's trace buffer: the records of other partitions read zero for a tenant (R393, R394). -/
def State.traceWord (s : State) (c o : Nat) : Except Status Nat :=
  if !(s.pst ≤ 2 && (s.vendorLevel || s.tenantLevel)) then .error .debugDenied
  else
    let r := ((aget (s.core c).watch.recs (o / 64)).getD 0).toNat
    .ok (if s.vendorLevel || bf r 24 4 = s.rp then bf r (8 * (o % 64)) 64 else 0)

/-- A word of a core's region; the debug window is R410's. -/
def State.coreWord (s : State) (c o : Nat) : Except Status Nat :=
  if 0x20000 ≤ o && o < 0x40000 then s.traceWord c (o - 0x20000)
  else if 0x80000 ≤ o then
    let t := ({ s with req := { s.req with core := c, addr := o - 0x80000, n := 8 } }) |> evDebugWindowRead
    if t.resp.status = .ok then .ok (natOfBytes t.resp.data) else .error t.resp.status
  else if s.mayDebug c 2 then .ok ((s.core c).watch.word o)
  else .error .debugDenied

/-! ### The read -/

/-- The word at a register-space address (R408, R409). -/
def State.regWord (s : State) (a : Nat) : Except Status Nat :=
  if s.pst = 4 then .error .debugDenied
  else if a < 0x10000 then .ok (s.deviceWord a)
  else if 0x1000000 ≤ a && a < 0x2000000 then .ok ((s.part ((a - 0x1000000) / 0x100000)).word (a % 0x100000))
  else if 0x11000000 ≤ a && a < 0x12000000 then
    let x := (a - 0x11000000) / 0x10000
    if s.mayDescribe (x / 16) then .ok (s.ctxWord x (a % 0x10000)) else .error .debugDenied
  else if 0x21000000 ≤ a && a < 0x25000000 then s.coreWord ((a - 0x21000000) / 0x100000) (a % 0x100000)
  else .ok 0

/-- The words from an address, or the status of the first that is refused. -/
def State.regWords (s : State) (a : Nat) : Nat → Except Status (List Nat)
  | 0 => .ok []
  | n + 1 =>
    match s.regWord a with
    | .error st => .error st
    | .ok w =>
      match State.regWords s (a + 8) n with
      | .error st => .error st
      | .ok ws => .ok (w :: ws)

/-- What a read clears (R4): CRCERR and REPLAYS of the LPORTs read, DUPCNT of LFAB. -/
def State.readClears (s : State) (a n : Nat) : State :=
  let lies (o : Nat) : Bool := a ≤ o && o < a + n
  let s := if lies 0x18 then { s with dupcnt := 0 } else s
  (List.range 16).foldl (fun (s : State) p =>
    if lies (0x100 + 8 * p) then s.onPort p false fun q => { q with crcerr := 0, replays := 0 } else s) s

/-- A register read of `n` bytes from address `addr` (R406): whole words that do not cross a 4 KiB boundary. -/
def State.readRegisters (s : State) : State :=
  let a := s.req.addr
  let n := s.req.n
  if a % 8 ≠ 0 || n % 8 ≠ 0 || n = 0 || 4096 < a % 4096 + n then s.answer .cpFrame
  else
    match s.regWords a (n / 8) with
    | .error st => s.answer st
    | .ok ws => (s.readClears a n).answer .ok (ws.flatMap fun w => bytesOfNat 8 w)

/-- The bytes of a context's memory that lie in its fault-record ring (R103). -/
def Context.inRing (k : Context) (h a n : Nat) : Bool :=
  baseSet k.frec && baseHome k.frec = h && baseFrame k.frec * 4096 ≤ a && a + n ≤ baseFrame k.frec * 4096 + 4096

/-- A read of `n` bytes of a context's memory at the tensor virtual address `addr` (R131): with the rights of R123 on its memory, or on its
fault records alone. -/
def State.readMemory (s : State) : State :=
  let x := s.rx
  let a := BitVec.ofNat 64 s.req.addr
  let n := s.req.n
  if n % 8 ≠ 0 || n = 0 || 4096 < n || !baseSet (s.ctx x).ttab then s.answer .cpFrame
  else if 2 < s.pst then s.answer .debugDenied
  else
    match s.checkTensor none x a n with
    | .error k => s.answer (frontStatus k)
    | .ok r =>
      let ps := s.frontParts x r .front a (n + 1) n
      let all := s.vendorLevel || s.tenantLevel
      let one (p : Nat × Nat × Word × TOut) : Except Status (List Byte) :=
        match p.2.2.2 with
        | .ok (.home h ha) =>
          if all || (s.mayDescribe s.rp && (s.ctx x).inRing h ha p.2.1) then .ok (s.homeBytes h ha p.2.1) else .error .debugDenied
        | .fault k _ => .error (frontStatus k)
        | _ => .error .cpFrame
      match ps.findSome? fun p => match one p with | .error st => some st | .ok _ => none with
      | some st => s.answer st
      | none => s.answer .ok (ps.flatMap fun p => match one p with | .ok bs => bs | .error _ => [])

/-- A control-port read (R406 `CMD` 1): of registers (`m` = 0), of a context's memory otherwise. -/
def State.cpRead (s : State) : State := s.ctl fun s => if s.req.m = 0 then s.readRegisters else s.readMemory

end Sys2Proof.Machine
end

