-- ==== Sys2Proof/Machine/Frames.lean ====
section
/-!
DEFINITION. The control port's frames: the header, its checks, the register writes that a payload makes, the response (R406 to R410). Each
write acts by the event of the register that it reaches.
-/

namespace Sys2Proof.Machine

/-- Outcomes of steps. -/
abbrev Out := Host.Outcome State Fault Refusal

/-- What follows a step that answers a next state. -/
def Out.andThen (o : Out) (f : State → Out) : Out :=
  match o with
  | .next s => f s
  | .fault r => .fault r
  | .refused r => .refused r

/-! ### Status codes (R407) -/

/-- The code of a status. -/
def Status.code : Status → Nat
  | .ok => 0x00
  | .cpFrame => 0x01 | .coreOwned => 0x02 | .partitionBusy => 0x03 | .contextBusy => 0x04 | .debugDenied => 0x05 | .contextBases => 0x06
  | .polderHome => 0x08 | .polderOverlap => 0x09 | .polderFault => 0x0A | .rootOwned => 0x0B
  | .imgMagic => 0x10 | .imgLength => 0x11 | .imgCrc => 0x12 | .imgSection => 0x13 | .imgCores => 0x14 | .imgPolder => 0x15
  | .imgTranslate => 0x16 | .imgTlr => 0x17 | .imgBind => 0x18
  | .startEmpty => 0x20 | .startCore => 0x21 | .startAlign => 0x22
  | .policyCmd => 0x28 | .policyBusy => 0x29 | .policyUnchecked => 0x2A
  | .linkParam => 0x30 | .watchParam => 0x31 | .framesFull => 0x32
  | .fwSignature => 0x38 | .fwRollback => 0x39 | .attestExhausted => 0x3A | .powerState => 0x3B

/-! ### The event of a register write (R408, R409) -/

/-- A register write as an event: the event, its operands, the payload bytes that it takes. -/
structure RegWrite where
  ev : Instr
  req : Request
  took : Nat
deriving DecidableEq, Repr

/-- A write that takes a whole word of eight bytes. -/
def wordWrite (ev : Instr) (req : Request) : RegWrite := ⟨ev, req, 8⟩

/-- A write of the device region. -/
def deviceWrite (r : Request) (o v : Nat) (bs : List Byte) : RegWrite :=
  if o = 0x10 then wordWrite (if v % 8 = 3 then .pwrEnterP3 else if v % 8 = 4 then .pwrEnterP4 else .pwrSetActive) { r with value := v }
  else if o = 0x18 then wordWrite .lfabWrite { r with value := v }
  else if o = 0x20 then wordWrite .lpresetWrite { r with value := v }
  else if o = 0x28 then ⟨.hackWrite, { r with bytes := bs }, bs.length⟩
  else if 0x100 ≤ o && o < 0x180 then wordWrite (if bitN v 8 then .lportEnable else .lportDisable) { r with n := (o - 0x100) / 8 }
  else wordWrite .cpRegisterWrite { r with addr := o, value := v }

/-- The event of a PCMD write (R337); a command that is none is refused by the first of them. -/
def pcmdEvent (v : Nat) : Instr :=
  match v % 16 with
  | 2 => .policySwap | 3 => .policyDisable | 4 => .policyRetire | 5 => .policyScrub | _ => .policyCheck

/-- A write of a partition's region; a word of the shadow window holds two policy instructions, which are written one after the other. -/
def partWrite (r : Request) (p o v : Nat) : RegWrite :=
  let r := { r with part := p, value := v }
  if o = 0 then wordWrite .coreMaskWrite r
  else if o = 8 then wordWrite .rootMaskWrite r
  else if o = 0x18 then wordWrite .vectorPendingClear r
  else if 0x100 ≤ o && o < 0x180 then wordWrite .polderRangeWrite { r with n := (o - 0x100) / 8 }
  else if o = 0x1008 then wordWrite (pcmdEvent v) r
  else if 0x1800 ≤ o && o < 0x2000 then ⟨.policyShadowWrite, { r with addr := (o - 0x1800) / 4, value := v % 2 ^ 32 }, 4⟩
  else if o = 0x2000 || o = 0x2100 then wordWrite .freeFrameAppend { r with n := (o - 0x2000) / 0x100 }
  else wordWrite .cpRegisterWrite { r with addr := 0x1000000 + 0x100000 * p + o }

/-- A write of a context slot's region; the start vector takes the payload that lies in its block. -/
def ctxWrite (r : Request) (x o v : Nat) (bs : List Byte) : RegWrite :=
  let r := { r with part := x / 16, ctx := x % 16, value := v }
  if o < 0x80 then wordWrite .descriptorWrite { r with addr := o }
  else if 0x200 ≤ o && o < 0x400 then ⟨.startVectorWrite, { r with bytes := bs.take (0x400 - o) }, min bs.length (0x400 - o)⟩
  else if 0x400 ≤ o && o < 0xC00 then wordWrite .depCounterWrite { r with n := (o - 0x400) / 8 }
  else if o = 0xC08 then wordWrite .cancelCommand r
  else wordWrite .cpRegisterWrite { r with addr := 0x11000000 + 0x10000 * x + o }

/-- A write of a core's region. Half of a watchpoint leaves its other half; the debug window takes the rest of the payload. -/
def State.coreWrite (s : State) (r : Request) (c o v : Nat) (bs : List Byte) : RegWrite :=
  let r := { r with core := c, value := v }
  if o = 0 then wordWrite .wctlWrite r
  else if o = 8 then wordWrite (if bitN v 0 then .haltCommand else .resumeCommand) r
  else if o = 0x10 then wordWrite .debugWindowSelect r
  else if 0x100 ≤ o && o < 0x140 then wordWrite .breakpointWrite { r with n := (o - 0x100) / 8, m := 0 }
  else if 0x200 ≤ o && o < 0x400 then wordWrite .breakpointWrite { r with n := (o - 0x200) / 8 % 8, m := (o - 0x200) / 64 + 1 }
  else if 0x400 ≤ o && o < 0x440 then
    let n := (o - 0x400) / 16
    let old := breakNat (s.core c).watch.wps n
    if o % 16 = 0 && 16 ≤ bs.length then ⟨.watchpointWrite, { r with n := n, value := natOfBytes (bs.take 16) }, 16⟩
    else wordWrite .watchpointWrite { r with
      n := n, value := if o % 16 = 0 then old / 2 ^ 64 * 2 ^ 64 + v else v * 2 ^ 64 + old % 2 ^ 64 }
  else if 0x80000 ≤ o then ⟨.debugWindowWrite, { r with addr := o - 0x80000, bytes := bs }, bs.length⟩
  else wordWrite .cpRegisterWrite { r with addr := 0x21000000 + 0x100000 * c + o }

/-- The write that the bytes of a payload make at a register-space address. -/
def State.regWrite (s : State) (r : Request) (a : Nat) (bs : List Byte) : RegWrite :=
  let v := natOfBytes (bs.take 8)
  if a < 0x10000 then deviceWrite r a v bs
  else if 0x1000000 ≤ a && a < 0x2000000 then partWrite r ((a - 0x1000000) / 0x100000) (a % 0x100000) v
  else if 0x11000000 ≤ a && a < 0x12000000 then ctxWrite r ((a - 0x11000000) / 0x10000) (a % 0x10000) v bs
  else if 0x21000000 ≤ a && a < 0x25000000 then s.coreWrite r ((a - 0x21000000) / 0x100000) (a % 0x100000) v bs
  else wordWrite .cpRegisterWrite { r with addr := a, value := v }

/-- The writes of a payload, in address order, up to the first that is refused. -/
def State.regWrites (s : State) (r : Request) (a : Nat) (bs : List Byte) : Nat → Out
  | 0 => .next s
  | fuel + 1 =>
    if bs.isEmpty then .next s
    else
      let w := s.regWrite r a bs
      Out.andThen (exec w.ev { s with cur := .env, req := w.req }) fun t =>
        if t.resp.status ≠ .ok then .next t else State.regWrites t r (a + w.took) (bs.drop w.took) fuel

/-! ### Frames (R406) -/

/-- The response to a frame: its ADDR, PART and TAG, the status and the data. -/
def responseFrame (h : Nat) (r : Resp) : List Byte :=
  bytesOfNat 32 (bf h 0 32 ||| 3 <<< 64 ||| bf h 68 4 <<< 68 ||| r.status.code <<< 72 ||| (r.data.length / 8) <<< 80 ||| bf h 96 32 <<< 96)
    ++ r.data

/-- Whether the code of a frame is that of its partition's tenant key. -/
def State.macOk (s : State) (h : Nat) (payload : List Byte) : Bool :=
  (s.part (bf h 68 4)).key && bf h 128 128 = (Config.kmac (bf h 68 4) (bytesOfNat 32 (h % 2 ^ 128) ++ payload)).toNat

/-- Whether a request frame has the form of one: a header, a command that the control node sends, zeros where they must be, an aligned address,
and of a write the payload that its length names, within a 4 KiB block. -/
def frameOk (h : Nat) (payload : List Byte) : Bool :=
  let n := 8 * bf h 80 16
  bf h 32 32 = 0 && bf h 72 8 = 0 && bf h 96 32 % 8 = 0 && n ≤ 4096 && bf h 96 32 % 4096 + n ≤ 4096 && (bf h 67 1 = 1 || bf h 128 128 = 0)
    && ((bf h 64 3 = 1 && payload.isEmpty) || (bf h 64 3 = 2 && payload.length = n && n ≠ 0))

/-- What a request frame does, up to its answer in `resp`. -/
def State.serveFrame (s : State) (h : Nat) (payload : List Byte) : Out :=
  let au : Bool := bf h 67 1 = 1
  let r := { Request.zero with part := bf h 68 4, auth := au, addr := bf h 96 32, n := 8 * bf h 80 16 }
  if s.fwStatus ≠ .ok then .next (s.answer s.fwStatus)
  else if !frameOk h payload then .next (s.answer .cpFrame)
  else if au && !s.macOk h payload then .next (s.answer .debugDenied)
  else if bf h 64 3 = 1 then .next { s with cur := .env, req := r }.cpRead
  else s.regWrites r r.addr payload (payload.length + 1)

/-- A frame arrives at the control port (R406): it is answered by exactly one frame with its TAG. Before the boot has ended no frame is accepted
(R411). -/
def State.frameIn (s : State) (bs : List Byte) : Out :=
  let h := natOfBytes (bs.take 32)
  if !s.booted || bs.length < 32 then .next s
  else Out.andThen (s.serveFrame h (bs.drop 32)) fun t => .next { t with answers := t.answers ++ [responseFrame h t.resp] }

end Sys2Proof.Machine
end

