-- ==== Sys2Proof/Machine/Issue.lean ====
section
/-!
DEFINITION. When a band's next instruction may issue: the pipe it takes and for how long, the registers that it waits for, the slice scheduler's
choice (R48, R49, R217, R219 to R221, R244).
-/

namespace Sys2Proof.Machine

/-! ### Pipes (R86, R219, R244) -/

/-- The pipes of a slice, where X stands for X or Y. -/
inductive LanePipe where
  | xy | m | s | u
deriving DecidableEq, Repr

/-- What an instruction of a band takes and names: pipe and occupancy; the registers that it reads or writes, as numbers (`v` n as n, `b` n as
128 + n, strand predicate n as 256 + n, band predicate n as 264 + n, the flag word as 272); those that it writes with a latency, and the latency. -/
structure LaneUse where
  pipe : LanePipe
  occ : Nat
  regs : List Nat
  dst : List Nat
  lat : Nat
deriving DecidableEq, Repr

/-- The numbers of a register group: byte and count. -/
def regNums (x : BitVec 8) (n : Nat) : List Nat := if byteQ x then [] else (List.range n).map fun i => x.toNat + i
/-- The number of a predicate byte, and none for `p7` and `bp7`. -/
def predNums (x : Nat) : List Nat := if x = 7 || x % 16 = 15 then [] else [256 + x % 16]
/-- The flag word. -/
def flagNum : Nat := 272

/-- An instruction that writes registers at issue or through an access: its pipe, occupancy and registers. -/
def useOf (p : LanePipe) (occ : Nat) (regs : List Nat) : LaneUse := ⟨p, occ, regs, [], 0⟩
/-- An arithmetic or data-movement instruction: with `U` = 1 on pipe U. -/
def useAlu (h : LHdr) (dst src : List Nat) (p : LanePipe) (occ lat ulat : Nat) : LaneUse :=
  if h.u then ⟨.u, 1, dst ++ src, flagNum :: dst, ulat⟩ else ⟨p, occ, dst ++ src, flagNum :: dst, lat⟩
/-- Two sources, one destination, on X or Y. -/
def use2 (h : LHdr) (f : VForm) (lat ulat : Nat) : LaneUse :=
  useAlu h (regNums f.dst 1) (regNums f.a 1 ++ regNums f.b 1) .xy 4 lat ulat
/-- Three sources. -/
def use3 (h : LHdr) (f : VForm) (lat ulat : Nat) : LaneUse :=
  useAlu h (regNums f.dst 1) (regNums f.a 1 ++ regNums f.b 1 ++ regNums f.c 1) .xy 4 lat ulat
/-- One source. -/
def use1 (h : LHdr) (f : VForm) (lat ulat : Nat) : LaneUse := useAlu h (regNums f.dst 1) (regNums f.a 1) .xy 4 lat ulat
/-- An I form. -/
def useI (h : LHdr) (f : IForm) (lat ulat : Nat) : LaneUse := useAlu h (regNums f.dst 1) (regNums f.a 1) .xy 4 lat ulat
/-- A comparison. -/
def useCmp (h : LHdr) (f : VForm) (lat ulat : Nat) : LaneUse :=
  useAlu h (predNums f.dst.toNat) (regNums f.a 1 ++ regNums f.b 1) .xy 4 lat ulat
/-- The occupancy of a division (R244). -/
def divOcc (w : Nat) : Nat := if w ≤ 8 then 16 else if w = 16 then 32 else 64

/-- The occupancy of the S pipe: 4 cycles, and for each beat of 16 strands the largest count of its participating strands (R49). -/
def sOcc (m : Word) (n : Nat → Nat) : Nat :=
  (List.range 4).foldl (fun t b => t + (((strands m).filter fun st => st / 16 = b).map n).foldl max 0) 4

/-- The recurrence length of an SLI operation on two elements (R48). -/
def sliCycles (ib : Nat) (mul : Bool) (a b : Nat) : Nat :=
  match sliVal ib a, sliVal ib b with
  | .sli _ ka _, .sli _ kb _ =>
    let lam := fun (k : Int) => if 0 ≤ k then (sliLevel ib k : Int) else -(sliLevel ib k : Int)
    let la := lam ka
    let lb := lam kb
    3 + min 9 (if mul then max la.natAbs lb.natAbs - 1 else (la - lb).natAbs)
  | _, _ => 3

/-- The value that an operand byte will give a strand; a `q` operand's is that of its queue's head. -/
def State.peekOp (s : State) (b : Band) (pos : Nat) (x : BitVec 8) (st : Nat) : Word :=
  if byteQ x then ((s.qPop (qNum x)).1).getD st 0 else s.lval b [] pos x 0 st

/-- An SLI operation of two sources on pipe S. -/
def State.useSli (s : State) (b : Band) (h : LHdr) (f : VForm) (mul : Bool) : LaneUse :=
  let w := tyW f.ty
  let n := fun (st : Nat) => (List.range (64 / w)).foldl (fun t i =>
    max t (sliCycles (sliBits (tyF f.ty)) mul (elem w (s.peekOp b 0 f.a st) i) (elem w (s.peekOp b 1 f.b st) i))) 0
  let t := sOcc (b.part1 h) n
  useAlu h (regNums f.dst 1) (regNums f.a 1 ++ regNums f.b 1) .s t t t

/-- An instruction on pipe S with the same count for every strand. -/
def useS (b : Band) (h : LHdr) (dst src : List Nat) (n : Nat) : LaneUse :=
  let t := sOcc (b.part1 h) fun _ => n
  useAlu h dst src .s t t t

/-- A memory instruction on pipe M. -/
def useMem (f : MForm) (n : Nat) : LaneUse := useOf .m 4 (regNums f.a 1 ++ regNums f.dst n)
/-- `b` registers named by a byte, none for 0x00. -/
def bNums (x : BitVec 8) (n : Nat) : List Nat := if isB x then regNums x n else []

/-- What a band's instruction takes and names (R86, R219, R244), but for its predicate. -/
def State.laneUse (s : State) (b : Band) (i : Instr) : LaneUse :=
  match i with
  | .laneIadd h f | .laneIsub h f | .laneImin h f | .laneImax h f | .laneIshift h f | .laneIlogic h f | .laneBfx h f => use2 h f 6 2
  | .laneImul h f | .laneImulh h f => use2 h f 8 4
  | .laneImad h f => use3 h f 8 4
  | .laneBfi h f => use3 h f 6 2
  | .laneIdiv h f | .laneIrem h f =>
    let t := divOcc (tyW f.ty)
    useAlu h (regNums f.dst 1) (regNums f.a 1 ++ regNums f.b 1) .xy t (t + 2) 20
  | .laneIbit h f | .laneIabs h f | .laneIneg h f | .laneMov h f => use1 h f 6 2
  | .laneIcmp h f => useCmp h f 6 2
  | .laneSel h f => useAlu h (regNums f.dst 1) (regNums f.a 1 ++ regNums f.b 1 ++ predNums f.c.toNat) .xy 4 6 2
  | .laneIaddImm h f | .laneIsubImm h f | .laneIminImm h f | .laneImaxImm h f => useI h f 6 2
  | .laneImulImm h f => useI h f 8 4
  | .laneMovi h f => useAlu h (regNums f.dst 1) [] .xy 4 6 2
  | .laneFadd h f | .laneFsub h f | .laneFmul h f => use2 h f 8 6
  | .laneFfma h f => use3 h f 8 6
  | .laneFmin h f | .laneFmax h f => use2 h f 6 6
  | .laneFcmp h f => useCmp h f 6 6
  | .laneFaddImm h f | .laneFmulImm h f => useI h f 8 6
  | .laneFsf h f => useS b h (regNums f.dst 1) (regNums f.a 1) 4
  | .laneSladd h f | .laneSlsub h f => s.useSli b h f false
  | .laneSlmul h f | .laneSldiv h f => s.useSli b h f true
  | .laneSlcmp h f => useS b h (predNums f.dst.toNat) (regNums f.a 1 ++ regNums f.b 1) 3
  | .laneCvt h f => useS b h (regNums f.dst 1) (regNums f.a 1) 3
  | .laneCvtw h f => useS b h (regNums f.dst (tyW f.ty / tyW f.xt)) (regNums f.a 1) 3
  | .laneCvtn h f => useS b h (regNums f.dst 1) (regNums f.a (tyW f.xt / tyW f.ty)) 3
  | .lanePack h f =>
    let r := tyW f.xt / tyW f.ty
    useAlu h (regNums f.dst 1) (regNums f.a r) .xy (2 * r) (2 * r + 2) 2
  | .laneUnpk h f =>
    let r := tyW f.ty / tyW f.xt
    useAlu h (regNums f.dst r) (regNums f.a 1) .xy (2 * r) (2 * r + 2) 2
  | .laneB2v h f => use2 h f 6 2
  | .laneV2b h f => useAlu h (regNums f.dst 1) (regNums f.a 1 ++ (if f.fn = 1 then [] else regNums f.b 1)) .xy 4 6 2
  | .laneShfl h f => use2 h f 6 2
  | .laneVote h f => useAlu h (if f.fn = 3 then regNums f.dst 1 else predNums f.dst.toNat) (predNums f.a.toNat) .xy 4 6 2
  | .laneBred h f => useAlu h (regNums f.dst 1) (regNums f.a 1) .xy 10 12 2
  | .laneLd _ f | .laneSt _ f | .laneLdt _ f | .laneStt _ f | .laneLdb _ f | .laneStb _ f | .laneRed _ f => useMem f 1
  | .laneAtom _ f => useMem f (if atomCas f then 2 else 1)
  | .lanePref _ f => useMem f 0
  | .laneCpy _ f => useOf .m 4 (regNums f.a 1 ++ bNums f.b 1 ++ bNums f.c 4)
  | .laneDrain _ _ => useOf .m 4 []
  | .lanePacq _ f | .lanePrel _ f => useOf .m 1 (bNums f.a 1 ++ (if f.dst = 0 then [] else regNums f.dst 1))
  | .laneFence _ _ | .laneBar _ _ | .laneQfence _ _ => useOf .m 1 []
  | .laneQbind _ f => useOf .m 1 (bNums f.a 1)
  | .laneMmj _ f => useOf .m 1 (regNums f.a 1)
  | .laneTopn _ f =>
    useOf .m 1 (bNums f.a (bindTiles (s.bindEntry (s.core s.laneId.1) (f.fn ++ f.xt).toNat)) ++ bNums f.c 6)
  | .laneTenq _ f | .laneLaunch _ f => useOf .m 1 (regNums f.a 8 ++ predNums f.dst.toNat)
  | .laneDdec _ f => useOf .m 1 (regNums f.a 1 ++ regNums f.b 1)
  | .laneDdecCancel _ f => useOf .m 1 (regNums f.a 1)
  | .laneBrx _ f | .laneRet _ f => useOf .u 1 (regNums f.a 1)
  | .laneCall _ _ => useOf .u 1 [128 + 111]
  | .laneChkt _ f => useOf .u 1 (regNums f.a 1 ++ regNums f.b 1)
  | .laneCsrr _ f => useOf .u 1 (regNums f.dst 1 ++ (if f.imm.toNat % 4096 = 1 then [flagNum] else []))
  | .laneCsrw _ f => useOf .u 1 (regNums f.a 1 ++ (if f.imm.toNat % 4096 = 1 then [flagNum] else []))
  | .laneFlgr _ f => useOf .u 1 (flagNum :: regNums f.dst 1)
  | _ => useOf .u 1 []

/-! ### Readiness (R220, R244) -/

/-- Whether no register of a list has a write on its way (R244). -/
def Band.landed (b : Band) (cycle : Nat) (regs : List Nat) : Bool := b.inFlight.all fun e => e.2 ≤ cycle || !regs.contains e.1
/-- Notes the writes of an instruction that issues. -/
def Band.notes (b : Band) (cycle : Nat) (u : LaneUse) : Band :=
  { b with inFlight := (b.inFlight.filter fun e => cycle < e.2) ++ u.dst.map fun r => (r, cycle + u.lat) }

/-- What a band would issue next: the instructions with what they take; none where it stops at a fetch or decode fault or waits for its
fetch. -/
def State.nextUse (s : State) (c n : Nat) (b : Band) : Option (LaneUse × List Nat × Bool) :=
  match s.bandFetch c n with
  | .word w =>
    match s.laneDecode c n (BitVec.ofNat 64 w) with
    | some (i, j) =>
      let s := { s with cur := .band c n, preBand := none }
      let u := s.laneUse b i
      let more := match j with
        | some j => (s.laneUse b j).regs
        | none => []
      some (u, u.regs ++ more ++ predNums (hdrOf (BitVec.ofNat 64 w)).pred.toNat, j.isSome)
    | none => none
  | _ => none

/-! ### The slice scheduler (R221) -/

/-- The pipes, as places in a slice, on which an instruction may issue. -/
def LanePipe.places : LanePipe → List Nat
  | .xy => [0, 1] | .m => [2] | .s => [3] | .u => [4]

/-- Whether a pipe of a slice is free. -/
def Core.pipeFree (k : Core) (cycle slice pipe : Nat) : Bool := ((aget k.pipes (5 * slice + pipe)).map fun e => decide (e.2 ≤ cycle)).getD true
/-- How many pipes of a slice began an instruction in a cycle. -/
def Core.issuedIn (k : Core) (cycle slice : Nat) : Nat :=
  ((List.range 5).filter fun p => (aget k.pipes (5 * slice + p)).any fun e => e.1 = cycle).length
/-- The free pipe that an instruction takes in a cycle: X before Y. -/
def Core.pipeFor (k : Core) (cycle slice : Nat) (p : LanePipe) : Option Nat := p.places.find? fun i => k.pipeFree cycle slice i
/-- Occupies a pipe from a cycle on. -/
def Core.occupy (k : Core) (cycle slice pipe occ : Nat) : Core := { k with pipes := aput k.pipes (5 * slice + pipe) (cycle, cycle + occ) }

/-- The class under which a band is scheduled: 16 after 4,096 cycles READY without issuing. -/
def Band.schedClass (b : Band) (cycle : Nat) : Nat := if max b.readySince (b.lastIssue + 1) + 4096 ≤ cycle then 16 else min b.cls 15
/-- Whether a band goes before another: higher class, older ready-since, lower slot. -/
def schedBefore (cycle : Nat) (x y : Nat × Band) : Bool :=
  let a := x.2.schedClass cycle
  let b := y.2.schedClass cycle
  if a ≠ b then decide (b < a) else if x.2.readySince ≠ y.2.readySince then decide (x.2.readySince < y.2.readySince) else decide (x.1 < y.1)

/-- Whether a READY band's next instruction can go now: its registers have landed and its pipe is free, both X and Y and both issue slots for a
`DP` pair. One that stops before its instruction takes no pipe. -/
def State.pipesGo (s : State) (c n : Nat) (b : Band) : Bool :=
  let k := s.core c
  match s.nextUse c n b with
  | none => true
  | some (u, regs, dp) =>
    b.landed s.cycle regs
    && (if dp then k.pipeFree s.cycle (n / 16) 0 && k.pipeFree s.cycle (n / 16) 1 && k.issuedIn s.cycle (n / 16) = 0
        else if k.issuedIn s.cycle (n / 16) < 2 then (k.pipeFor s.cycle (n / 16) u.pipe).isSome else false)

/-- Whether the slice scheduler's next choice is band n: no READY band of its slice that goes before it can go. -/
def State.picked (s : State) (c n : Nat) : Bool :=
  match s.band c n with
  | none => false
  | some b => b.st = .ready && s.pipesGo c n b
    && (s.core c).bands.all fun e => e.1 / 16 ≠ n / 16 || e.1 = n || e.2.st ≠ .ready || s.cycle < e.2.readyAt || !schedBefore s.cycle e (n, b)
      || !s.pipesGo c e.1 e.2

/-- The pipes that a band's instruction takes, and the registers that it will write. -/
def State.takePipes (s : State) (c n : Nat) (u : LaneUse) (more : Option LaneUse) : State :=
  let t := s.cycle
  let s := s.onCore c fun k =>
    match more with
    | some v => (k.occupy t (n / 16) 0 u.occ).occupy t (n / 16) 1 v.occ
    | none => match k.pipeFor t (n / 16) u.pipe with
      | some p => k.occupy t (n / 16) p u.occ
      | none => k
  s.onBand c n fun b => match more with
    | some v => (b.notes t u).notes t v
    | none => b.notes t u

end Sys2Proof.Machine
end

