-- ==== Sys2Proof/Machine/Turns.lean ====
section
/-!
DEFINITION. What one turn of an agent does: a cycle passes, a sequencer issues a bundle, a band issues an instruction, a policy engine
runs an instruction, an event happens (R61, R71 to R76, R80, R91, R134, R135, R138, R219 to R224, R341, R359, R399).
-/

namespace Sys2Proof.Machine

/-! ### A cycle (R20, R134) -/

/-- A sequencer unit that has ended counts as ended once its results have landed (R134). -/
def State.endUnit (s : State) (c : Nat) : State :=
  let k := s.core c
  match k.unit with
  | some u =>
    if k.seq.phase ≠ .ended || k.seq.land.any (fun l => s.cycle < l.last) then s
    else
      let p := u.part.toNat
      let x := k.unitCtx
      match u.task with
      | some slot =>
        if ((aget (s.part p).tasks slot).map fun t => t.ended.contains u.index).getD true then s
        else s.unitEnded p slot u.index c
      | none =>
        if ((aget (s.ctx x).launches u.launch.toNat).map fun l => l.ended.contains c).getD true then s
        else
          (s.onCtx x fun k => { k with launches := amod k.launches u.launch.toNat fun l => { l with ended := l.ended ++ [c] } }).checkLaunch x
            u.launch.toNat
  | none => s

/-! ### A sequencer's turn -/

/-- The bundle of a sequencer stalls for a cycle (R135, R396). -/
def State.seqStall (s : State) (c : Nat) (w : Stall) : State :=
  s.onCore c fun k => { k with seq := { k.seq with stall := some w }, watch := k.watch.countStall w.code }

/-- Runs the slots of a bundle in order. The flags that its slots raise merge after its own CSR write, which clears flags of earlier
bundles only (R113, R135; log entry 34); with `DUP`, slot B raises none (R37). -/
def State.runSlots (s : State) (x : Bundle) : Out :=
  let at_ := fun (s : State) (n : Nat) => { s with frame := { s.frame with slot := n } }
  let f0 := (s.core s.seqId).seq.flag
  Out.andThen (exec x.a (at_ (s.onSeq fun q => { q with flag := 0 }) 0)) fun s =>
  let fl := (s.core s.seqId).seq.flag
  Out.andThen (exec x.b (at_ s 1)) fun s =>
  let s := if x.dup then s.onSeq fun q => { q with flag := fl } else s
  Out.andThen (exec x.m (at_ s 2)) fun s =>
  Out.andThen (exec x.e (at_ s 3)) fun s =>
  let raised := (s.core s.seqId).seq.flag
  Out.andThen (exec x.d (at_ (s.onSeq fun q => { q with flag := f0 }) 4)) fun s =>
    .next (s.onSeq fun q => { q with flag := q.flag ||| raised })

/-- A sequencer has issued a bundle whose slots have run; `pc` is the bundle's address. ERET leaves handler mode before the bundle's faults are
taken (log entry 112). -/
def State.seqIssued (s : State) (c : Nat) (x : Bundle) (pc : Word) : State :=
  let f := s.frame
  let scnt := (s.core c).watch.scnt
  let s := s.watchIssue c (s.preCore.watch.itrig == Trig.triggered) scnt
  let next := f.target.getD (pc + 32)
  let ends := f.target = some 0
  let s := s.onCore c fun k => { k with seq := { k.seq with
    pc := next
    readyAt := s.cycle + 1 + x.wait.toNat
    lastIssue := s.cycle
    stall := none
    bpSkip := false
    handler := k.seq.handler && !f.eret
    phase := if ends then .ended else k.seq.phase } }
  match f.fault with
  | some k => s.seqFault c k pc next f.vaddr 0
  | none => s

/-- The bundle that a sequencer has fetched: it issues, stalls or traps. -/
def State.seqBundle (s : State) (c : Nat) (x : Bundle) : Out :=
  let pc := (s.core c).seq.pc
  let s1 := s.onCore c fun k => { k with seq := { k.seq with entry := some (k.seq.entry.getD s.cycle) } }
  Out.andThen (s1.runSlots x) fun t =>
    let misaligned : Bool := match t.frame.target with
      | some a => a.toNat % 32 ≠ 0
      | none => false
    match t.frame.stall with
    | some w => .next (s.seqStall c w)
    | none =>
      if misaligned then .next (s.seqFault c .fetchAlign pc pc 0 0)
      else
        match t.frame.trap with
        | some k => .next (s.seqFault c k pc pc t.frame.vaddr 0)
        | none =>
          match matchBreak (s.core c).watch.sbp pc with
          | some e =>
            if (s.core c).seq.bpSkip then .next (t.seqIssued c x pc)
            else
              let s := s.onCore c fun k =>
                { k with seq := { k.seq with halted := true }, watch := { k.watch with sbp := setTrig k.watch.sbp e .triggered } }
              .next ((s.stopReq c ⟨.seq c, .breakHit, 0, 0, some e, none⟩).updateHeld (s.core c).unitCtx)
          | none => .next (t.seqIssued c x pc)

/-- The turn of the sequencer of core `c`: it tries to issue its next bundle. -/
def State.seqTurn (s : State) (c : Nat) : Out :=
  let k := s.core c
  let leaves := (s.freezes c).any fun f => k.seqLeaves f.1 f.2.1
  let s := { s with cur := .seq c, pre := some k, frame := { Frame.start with slot := 4 } }
  let done := fun (o : Out) => Out.andThen o fun s => .next { s with pre := none, frame := Frame.start }
  if k.unit.isNone || k.seq.phase ≠ .run || k.failed || leaves then done (.next s)
  else if s.cycle < k.seq.readyAt then done (.next (s.seqStall c .wait))
  else if k.seq.patching then done (.next (s.seqStall c .fetch))
  else if k.seq.halted then done (.next (s.seqStall c (match s.seqFetch c with | .hold => .fetch | _ => .halt)))
  else
    match s.seqFetch c with
    | .hold => done (.next (s.seqStall c .fetch))
    | .word w =>
      let s := s.fetchTouch c k.unitCtx k.seq.pc 32
      match decodeBundle (BitVec.ofNat 256 w) with
      | some x => done (s.seqBundle c x)
      | none => done (exec .illegalOp s)
    | _ => done (exec .instructionFetchFault s)

/-! ### A band's turn -/

/-- Reconvergence before a fetch (R224): the band with its PC, LIVE mask and stack, or DONE. -/
def Band.reconverge (b : Band) : Nat → Band
  | 0 => b
  | fuel + 1 =>
    let pop (b : Band) : Band :=
      match b.stack.getLast? with
      | none => { b with st := .done }
      | some e => { b with
          stack := b.stack.dropLast
          pc := e.pc &&& ~~~7#64
          live := e.mask &&& ~~~b.exited &&& ~~~b.dead
          unfinished := none }
    if b.live = 0 then
      if b.stack.isEmpty then { b with st := .done, unfinished := none } else (pop b).reconverge fuel
    else
      match (b.stack.filter fun e => e.join).getLast? with
      | none => b
      | some j => if b.pc ≠ (j.pc &&& ~~~7#64) then b else (pop b).reconverge fuel

/-- Whether a band that waits for this tries its instruction again; what it waits for otherwise completes the instruction. -/
def BWait.reissues : BWait → Bool
  | .none | .fence _ _ => true
  | _ => false

/-- Whether a band's next instruction may issue now as far as its state says (R216, R220). -/
def Band.mayIssue (b : Band) (cycle : Nat) : Bool := b.st = .ready && b.wait.reissues && decide (b.readyAt ≤ cycle)

/-- After an instruction: a band without LIVE strands and with an empty stack is DONE (R217). -/
def Band.settle (b : Band) : Band :=
  match b.st with
  | .issuing | .ready =>
    if b.live = 0 && b.stack.isEmpty then { b with st := .done, unfinished := none } else { b with st := .ready }
  | _ => b

/-- The state of a band. -/
def State.bandSt (s : State) (c n : Nat) : Option BState := (s.band c n).map fun b => b.st

/-- Runs an instruction of a band, or a `DP` pair whose second member reads what the first one read (R80). A first pass over the pair makes
its checks and pops: when a member must wait, the pair waits, and what it popped stays popped (R82). -/
def State.runPair (s : State) (c n : Nat) (b : Band) (i : Instr) (j : Option Instr) : Out :=
  match j with
  | none => exec i s
  | some j =>
    Out.andThen (exec i { s with laneDry := true }) fun t =>
    let t := { t with laneDry := false }
    if t.bandSt c n ≠ some .issuing then .next t
    else
      Out.andThen (exec j { t with laneDry := true, preBand := some b }) fun v =>
      let v := { v with laneDry := false, preBand := none }
      if v.bandSt c n = some .waiting then .next v
      else
        Out.andThen (exec i (if v.bandSt c n = some .issuing then v else t)) fun u =>
        if u.bandSt c n ≠ some .ready then .next u
        else
          Out.andThen (exec j { u.onBand c n (fun b => { b with st := .issuing }) with preBand := some b }) fun u =>
            .next { u with preBand := none }

/-- Whether a band's instruction has not issued: the band waits where it was, and at most popped entries. -/
def State.stays (t : State) (c n : Nat) (b : Band) : Bool :=
  match t.band c n with
  | some a => a.st = .waiting && a.pc = b.pc && a.acc.length = b.acc.length && (a.wait = .none || a.wait = b.wait)
  | none => false

/-- The instruction that a band has fetched: it issues, waits, or stops at a breakpoint. -/
def State.bandInstr (s : State) (c n : Nat) (b : Band) (i : Instr) (j : Option Instr) : Out :=
  Out.andThen (s.runPair c n b i j) fun t =>
    let took := t.takePipes c n (s.laneUse b i) (j.map (s.laneUse b))
    let issued := .next (took.onBand c n fun a => { a.settle with bpSkip := false, lastIssue := s.cycle, readyAt := max a.readyAt (s.cycle + 1) })
    if t.stays c n b then .next t
    else if b.bpSkip then issued
    else
      match matchBreak ((s.core c).watch.lbp.filter fun e => e.1 / 8 = n / 16) b.pc with
      | some e =>
        let s := (s.onBand c n fun b => { b with st := .ready }).onWatch c fun w => { w with lbp := setTrig w.lbp e .triggered }
        .next (s.laneStop c n .breakHit 0 b.live (some e))
      | none => issued

/-- A band fetches its next instruction and tries to issue it. -/
def State.bandIssue (s : State) (c n : Nat) (b1 : Band) : Out :=
  let s := { s with cur := .band c n, preBand := none }
  let b := { b1 with st := .issuing }
  let hold := .next (s.onBand c n fun _ => { b1 with st := .waiting })
  let s := s.onBand c n fun _ => b
  match s.bandFetch c n with
  | .hold => hold
  | .word w =>
    match s.pairFetch c n w with
    | some .hold => hold
    | some (.word _) | none => match s.laneDecode c n (BitVec.ofNat 64 w) with
      | some (i, j) => s.bandInstr c n b i j
      | none => exec .illegalOp s
    | _ => exec .instructionFetchFault s
  | _ => exec .instructionFetchFault s

/-- What the layout unit keeps of a band's fetch. -/
def State.bandFetched (s : State) (c n : Nat) (b : Band) : State :=
  match s.bandFetch c n with
  | .word w =>
    let s := s.fetchTouch c b.slot b.pc 8
    match s.pairFetch c n w with
    | some (.word _) => s.fetchTouch c b.slot (b.pc + 8) 8
    | _ => s
  | _ => s

/-- The turn of a band: it issues its next instruction when the slice scheduler picks it. -/
def State.bandTurn (s : State) (c n : Nat) : Out :=
  let k := s.core c
  let s := { s with cur := .band c n, preBand := none }
  match s.band c n with
  | none => .next s
  | some b0 =>
    let leaves := (s.freezes c).any fun f => k.bandLeaves f.1 f.2.1 b0
    if k.failed || leaves || !b0.mayIssue s.cycle then .next s
    else
      let b1 := b0.reconverge 34
      let s := s.onBand c n fun _ => b1
      if b1.st = .done then .next s
      else if b1.pc ≠ b0.pc then .next (s.onBand c n fun b => { b with readyAt := s.cycle + 2 })
      else if !s.picked c n then .next s
      else (s.bandFetched c n b1).bandIssue c n b1

/-! ### A cycle (R20, R134, R217) -/

/-- What a cycle makes of a band: a LOADING band whose first instruction can be fetched goes READY (a resumed one keeps its ready-since age, R229);
control paths reconverge; READY or WAITING follows from whether the next instruction can issue, and the entry into READY sets the ready-since cycle
(R217, R220, R221, R224). -/
def State.bandTick (s : State) (c n : Nat) : State :=
  match s.band c n with
  | none => s
  | some b0 =>
    let open_ : Bool := match b0.st with
      | .loading | .ready => true
      | .waiting => b0.wait.reissues
      | _ => false
    let leaves := (s.freezes c).any fun f => (s.core c).bandLeaves f.1 f.2.1 b0
    if !open_ || (s.core c).failed || leaves then s
    else if b0.st = .loading then
      s.onBand c n fun b => if s.cycle < b.readyAt || s.bandFetch c n == .hold then { b with readySince := b.readySince + 1 } else { b with st := .ready }
    else if !b0.wait.reissues then s.onBand c n fun b => { b with st := .waiting }
    else
      let b1 := b0.reconverge 34
      let put := fun (f : Band → Band) => s.onBand c n fun _ => f b1
      let blocked := put fun b => { b with st := .waiting }
      if b1.st = .done then put id
      else if b1.pc ≠ b0.pc then put fun b => { b with st := .waiting, readyAt := s.cycle + 1 }
      else if s.cycle < b1.readyAt then blocked
      else if ((s.nextUse c n b1).map fun u => b1.landed s.cycle u.2.1) = some false then blocked
      else
        let goes := put fun b => { b with st := .ready, readySince := if b.st = .ready then b.readySince else s.cycle }
        match (put id).bandIssue c n b1 with
        | .next t => if t.stays c n b1 then { t with cur := .env, preBand := none, fresh := s.fresh } else goes
        | _ => goes

/-- A cycle of the arithmetic clock passes: the hang counts advance (R405), units whose results have landed end, and bands go READY or
WAITING. In P3 and P4 the clocks stand still (R416). -/
def State.tick (s : State) : State :=
  if 3 ≤ s.pst then s
  else
    let s := (List.range 64).foldl State.hangTick s
    let s := (List.range 64).foldl State.endUnit { s with cycle := s.cycle + 1, cur := .env }
    let s := { s with cores := s.cores.map fun (k : Core) => if k.watch.itrig = .draining || !k.watch.stops.isEmpty then k.drain else k }
    (List.range 64).foldl (fun s c => (s.core c).bands.foldl (fun s e => s.bandTick c e.1) s) s

/-! ### A policy engine's turn (R341, R358, R359) -/

/-- The turn of a policy engine: it runs its invocation's next instruction, or abandons the invocation. -/
def State.engineTurn (s : State) (e : Nat) : Out :=
  let s := { s with engineCur := e, cur := .env }
  match s.engine with
  | none => .next s
  | some g =>
    if g.overBudget then exec .policyOverrun { s with req := { s.req with n := e } }
    else
      match (g.prog[g.pc]?).bind decodePol with
      | some i => exec i s
      | none => .fault .policyWord

/-! ### Turns -/

/-- Whether an event is a control-port command, module reset or the clock controller's: these also act while the clocks stand still. -/
def controlEvent (i : Instr) : Bool :=
  match i with
  | .coreMaskWrite | .rootMaskWrite | .polderRangeWrite | .vectorPendingClear | .cpRegisterWrite | .descriptorWrite
  | .imageLoadOpen | .startVectorWrite | .contextRetire | .contextScrub | .controlPortDataWrite | .controlNodeMap
  | .controlNodeUnmap | .translationInvalidate | .pennantWordWrite | .depCounterWrite | .cancelCommand
  | .freeFrameAppend | .hackWrite | .debugWindowSelect | .debugLevelRequest | .tenantKeyInstall | .tenantKeyRemove
  | .vendorUnlockExit | .pwrSetActive | .pwrEnterP3 | .pwrEnterP4 | .attestationRequest | .imageTransfer
  | .lportEnable | .lportDisable | .lportReadClear | .lfabWrite | .lfabReadClear | .lpresetWrite
  | .policyShadowWrite | .policyCheck | .policySwap | .policyDisable | .policyRetire | .policyScrub | .wctlWrite
  | .breakpointWrite | .watchpointWrite | .haltCommand | .resumeCommand | .debugWindowRead | .debugWindowWrite
  | .moduleReset | .clockControllerTick => true
  | _ => false

/-- One turn. In P3 and P4 the clocks stand still: no agent issues, and only control events happen (R416). -/
def State.turn (s : State) : Turn → Out
  | .event i r => if 3 ≤ s.pst && !controlEvent i then .next s else exec i { s with cur := .env, req := r }
  | .cycle => .next s.tick
  | .seq c => if 3 ≤ s.pst then .next s else s.seqTurn c
  | .band c n => if 3 ≤ s.pst then .next s else s.bandTurn c n
  | .engine e => if 3 ≤ s.pst then .next s else s.engineTurn e
  | .portSend p => if 3 ≤ s.pst then .next s else .next (s.portSend p)
  | .flitAck p n => if 3 ≤ s.pst then .next s else .next (s.flitAck p n)
  | .flitIn p f => if 3 ≤ s.pst then .next s else .next (s.flitIn p f)
  | .cpRead r => .next ({ s with cur := .env, req := r }.cpRead)
  | .frame bs => s.frameIn bs

/-! ### The order of a cycle (R6) -/

/-- The place of an event among those of one cycle. The chapters order the events that reach one object: the port (R366), the context (R105),
the launch (R132), the task (R328), the band (R217), the array (R190), a tile entry (R163), a barrier node, a core's slots (R132, R169). -/
def eventRank (i : Instr) : Nat :=
  match i with
  | .moduleReset => 1
  | .lportDisable => 2
  | .linkTrainingTimeout | .linkReplayTimeout | .linkRecoveringTimeout => 3
  | .linkLaneLockLoss => 4
  | .linkFlitError => 5
  | .linkReplayComplete => 6
  | .decisionEscalate | .coreFailure | .hbmChannelFailure => 10
  | .ueArray => 11
  | .contextRetire => 12
  | .cancelArrive => 13
  | .decisionReplay => 14
  | .bandFree | .invocationEnd => 15
  | .decisionPreempt | .coreSaveComplete => 16
  | .unitRetire | .taskCompletionSequence => 17
  | .ueStrand | .ueSeq | .uePageFrame | .streamOperandFault | .copyFail | .refusalReport | .hangWatchdogFire => 18
  | .stopReport | .haltCommand => 19
  | .mxswapPerform => 20
  | .streamEnter | .jointOpEnter => 21
  | .weightLoadComplete => 22
  | .streamRowResult | .accBankWrite => 23
  | .copyCommandComplete | .snapCopyRetire | .epiRetire => 24
  | .copyCommandStart | .cpyxcTransferBegin => 25
  | .barrierFlip => 26
  | .decisionKeep | .decisionKillstrand | .decisionRestart | .decisionPark | .decisionMap | .decisionMigrate | .decisionRemap
  | .sluiceReplayDecision => 28
  | .depCounterDecrement | .depCounterWrite | .taskProcess => 29
  | .decisionPlace | .decisionSteal => 30
  | .launchPlaceStartVector => 31
  | .gangForm => 32
  | .localListStart => 33
  | _ => 27

/-- The place of a turn in its cycle: bundles see the state from before the cycle's engine events (R163), then the events in the chapters' order,
the policy engines, and the bands, slices ascending, those first that the slice schedulers pick (R221, R324). -/
def State.turnRank (s : State) : Turn → Nat
  | .seq _ => 0
  | .event i _ => eventRank i
  | .flitIn _ _ => 5
  | .flitAck _ _ => 6
  | .portSend _ | .cpRead _ | .frame _ => 27
  | .engine _ => 34
  | .band c n => if s.picked c n then 40 + n / 16 else 50
  | .cycle => 60

/-- The first of the turns with the least rank, and the others. -/
def firstTurn (rank : Turn → Nat) : Turn → List Turn → Turn × List Turn
  | t, [] => (t, [])
  | t, u :: l =>
    let (v, rest) := firstTurn rank u l
    if rank t ≤ rank v then (t, u :: l) else (v, t :: rest)

/-- The turn that comes next, and the agenda after it: of the turns before the end of the cycle, the first one in order. -/
def State.nextPick (s : State) : Turn × List Turn :=
  match s.agenda with
  | [] => (.cycle, [])
  | .cycle :: rest => (.cycle, rest)
  | [t] => (t, [])
  | t :: rest =>
    let (now, later) := rest.span fun u => u ≠ .cycle
    let (v, others) := firstTurn s.turnRank t now
    (v, others ++ later)

/-- The next turn of the agenda; an empty agenda lets a cycle pass. Undefined values seen in different steps differ (R8). -/
def State.nextTurn (s : State) : Out :=
  let s := { s with fresh := s.fresh + 1 }
  let (t, rest) := s.nextPick
  { s with agenda := rest }.turn t

end Sys2Proof.Machine
end

