-- ==== Sys2Proof/Machine/Place.lean ====
section
/-!
DEFINITION. An instruction placed where an agent fetches its next one: what a loaded image, a placed unit and an installed policy program
amount to, in their smallest form (log entry 7).
-/

namespace Sys2Proof.Machine

/-- The tensor virtual address of the placed code: tensor 1, byte 0. -/
def codeAddr : Word := 0x1000000000000#64

/-- The TLR of the placed code: one page of 4,096 bytes of format 3, root frame 0x20, no hotness recording. -/
def codeTlr : BitVec 512 :=
  BitVec.ofNat 512 (0xFFFFFFFF + 3 <<< 58 + 1 <<< 63 + 0x20 <<< 64 + 4096 <<< 128 + 1 <<< 288)

/-- Partition 0 and its context 0 on core 0, RUNNING, with bytes of code in tensor 1: tensor table at frame 0x10 of the HBM, page table
at frame 0x20, an executable page at frame 0x30. -/
def State.placeCode (s : State) (bs : List Byte) : State :=
  let s := s.onPart 0 fun q => { q with cores := 1, polders := q.polders.setIfInBounds 0 0x8000000000001000#64 }
  let s := s.onCtx 0 fun k => { k with st := .running, ttab := 0x8000000000000010#64, cores := 1 }
  let s := s.homeWrite 0 0x10040 (bytesOfNat 64 codeTlr.toNat)
  let s := s.homeWrite 0 0x20000 (bytesOfNat 8 (1 <<< 63 + 1 <<< 46 + 0x30))
  s.homeWrite 0 0x30000 bs

/-- A bundle that core 0's sequencer issues next. -/
def State.placeBundle (s : State) (w : Nat) : State :=
  let s := (s.placeCode (bytesOfNat 32 w)).onCore 0 fun k => { k with
    unit := some ⟨0, 0, 1, none, 0, 0, false⟩
    seq := { k.seq with phase := .run, pc := codeAddr, readyAt := s.cycle } }
  { s with agenda := [.seq 0] }

/-- An instruction that band 0 of core 0 issues next. -/
def State.placeLane (s : State) (w : Nat) : State :=
  let b := { Band.start 0 0 (.unit 0 0 0) 128 [] 0 codeAddr 0 s.cycle allStrands with st := .ready }
  let s := (s.placeCode (bytesOfNat 8 w)).onCore 0 fun k => { k with bands := aput k.bands 0 b }
  { s with agenda := [.band 0 0] }

/-- A policy instruction that engine 0 runs next, for a DISPATCH sluice of partition 0. -/
def State.placePolicy (s : State) (w : Nat) : State :=
  let r : SReq := ⟨.dispatch, 0, 0, 0, 0, none, 0, none, none, 0, .env, 0, false⟩
  let ws := [BitVec.ofNat 32 w]
  let s := s.onPart 0 fun q => { q with inFlight := true, slot := { q.slot with st := .active, active := ws } }
  let e : Engine := ⟨0, r, ws, s.view 0 r, Vector.replicate 16 0, 0, 0, []⟩
  { s with engines := s.engines.setIfInBounds 0 (some e), agenda := [.engine 0] }

end Sys2Proof.Machine
end

