-- ==== Sys2Proof/Machine/Step.lean ====
section
/-!
DEFINITION. The machine's step, and the placing of an instruction where the next step fetches it.
-/

namespace Sys2Proof.Machine

/-- One step: the next turn of the agenda, or a cycle that passes. -/
def step (s : State) : Host.Outcome State Fault Refusal := s.nextTurn

/-- The instruction of `nbits` bits `w` placed where the next step fetches: a policy instruction on an engine, a lane instruction on a
band, a bundle on a sequencer. -/
def State.withFetchWord (s : State) (nbits w : Nat) : State :=
  if nbits ≤ 32 then s.placePolicy w else if nbits ≤ 64 then s.placeLane w else s.placeBundle w

end Sys2Proof.Machine
end

