-- ==== Sys2Proof/Certificates/Slice0/Obligations.lean ====
section
/-!
DEFINITION. The statements for the provers, and the plain words that they are said in.
-/

open Sys2Proof Sys2Proof.Machine

namespace Sys2Proof.Claims

/-! ### Words for the sequencer's slots -/

/-- The sequencer of core `c` runs a slot whose predicate holds (R60, R61). -/
def slotOn (s : State) (c : Nat) (p : Pred) : Prop := s.cur = .seq c ∧ c < 64 ∧ s.predHolds p = true

/-- The device after one result has entered its landing range on core `c` (R74): file 0 `s`, 1 `c`, 2 `t`, 3 `KC`, 4 `FC`; nothing else
has changed but that results whose range has passed stand in their registers. -/
def landing (s : State) (c file reg L : Nat) (v : Word) : State :=
  let k := s.core c
  let q := k.seq.settle s.cycle
  s.setCore c { k with seq := { q with land := q.land ++ [⟨file, reg, some v, s.cycle + 1, s.cycle + L⟩] } }

/-- The same with flags merged into the flag word (R37). -/
def landingFlags (s : State) (c file reg L : Nat) (v : Word) (f : Flags) : State :=
  let k := s.core c
  let q := k.seq.settle s.cycle
  s.setCore c { k with seq := { q with
    land := q.land ++ [⟨file, reg, some v, s.cycle + 1, s.cycle + L⟩], flag := q.flag ||| f.setWidth 64 } }

/-- No result is on its way to a register. -/
def noFlight (s : State) (c file reg : Nat) : Prop := ∀ l ∈ (s.core c).seq.land, l.file = file → l.reg = reg → l.last ≤ s.cycle

/-- The physical `s` register that an `s` name stands for in the bundle (R139). -/
def physOf (s : State) (d : BitVec 6) : Nat := physS s.preCore.seq.rot d.toNat
/-- The physical `c` register that a `c` name stands for in the bundle (R139). -/
def physCOf (s : State) (d : BitVec 4) : Nat := physC s.preCore.seq.rot d.toNat

/-- An exact integer as a 64-bit word. -/
def w64 (z : Int) : Word := BitVec.ofInt 64 z

/-- The predicate of a slot instruction (R60). -/
def seqPred : Instr → Option Pred
  | .seqAdd p _ _ _ | .seqAddImm p _ _ _ | .seqSub p _ _ _ | .seqSubImm p _ _ _ | .seqMul p _ _ _ | .seqMulImm p _ _ _
  | .seqMulh p _ _ _ _ | .seqAnd p _ _ _ | .seqAndImm p _ _ _ | .seqOr p _ _ _ | .seqOrImm p _ _ _ | .seqXor p _ _ _
  | .seqXorImm p _ _ _ | .seqAndn p _ _ _ | .seqShl p _ _ _ | .seqShlImm p _ _ _ | .seqShr p _ _ _ | .seqShrImm p _ _ _
  | .seqSar p _ _ _ | .seqSarImm p _ _ _ | .seqMin p _ _ _ _ | .seqMinImm p _ _ _ | .seqMax p _ _ _ _ | .seqMaxImm p _ _ _
  | .seqCmp p _ _ _ _ | .seqCmpImm p _ _ _ _ | .seqSel p _ _ _ _ | .seqMov p _ _ | .seqMovi p _ _ | .seqMovh p _ _ _
  | .seqFadd p _ _ _ _ _ | .seqFsub p _ _ _ _ _ | .seqFmul p _ _ _ _ _ | .seqFfma p _ _ _ _ _ _ | .seqFcmp p _ _ _ _
  | .seqCvt p _ _ _ _ _ _ | .seqChk p _ _ | .seqLds p _ _ _ _ _ _ | .seqSts p _ _ _ _ _ | .seqTset p _ _ | .seqTget p _ _
  | .seqTalloc p _ _ | .seqTfree p _ | .seqMovc p _ _ _ | .seqCpyin p _ _ _ _ _ _ | .seqCpyout p _ _ _ _ | .seqCpyxc p _ _ _ _
  | .seqDrain p _ | .seqMxldw p _ _ _ _ | .seqMxswap p | .seqMxmul p _ _ _ _ _ _ | .seqEpi p _ _ | .seqQfence p _
  | .seqTsend p _ _ _ _ | .seqTrecv p _ _ | .seqColl p _ _ _ _ _ | .seqBr p _ | .seqBrc p _ | .seqKloop p _ | .seqCall p _
  | .seqRet p | .seqTop p _ _ _ _ _ | .seqBind p _ _ | .seqRebind p _ _ | .seqTrestart p _ _ | .seqTwaitState p _ _
  | .seqTwaitAll p | .seqTwaitCh p _ | .seqLaunch p _ _ _ | .seqTenq p _ _ _ | .seqDdec p _ _ _ | .seqDdecCancel p _ _
  | .seqMark p _ | .seqIpatch p _ _ _ | .seqSysCsrr p _ _ _ | .seqSysCsrw p _ _ _ | .seqSysCsrs p _ _ _ _ | .seqSysCsrc p _ _ _ _
  | .seqSysInt p _ | .seqSysRkreg p _ _ _ | .seqSysRkrev p _ | .seqEret p | .seqTrap p _ => some p
  | _ => none

/-- The ALU over exact integers, register forms (R144): predicate, destination, bound, result. -/
def regForm : Instr → Option (Pred × BitVec 6 × Nat × (State → Word))
  | .seqAdd p d a b => some (p, d, 1, fun s => w64 ((s.rs 0 a).toInt + (s.rs 1 b).toInt))
  | .seqSub p d a b => some (p, d, 1, fun s => w64 ((s.rs 0 a).toInt - (s.rs 1 b).toInt))
  | .seqMul p d a b => some (p, d, 3, fun s => w64 ((s.rs 0 a).toInt * (s.rs 1 b).toInt))
  | .seqMulh p d a b true => some (p, d, 3, fun s => w64 ((s.rs 0 a).toNat * (s.rs 1 b).toNat / 2 ^ 64 : Nat))
  | .seqMulh p d a b false => some (p, d, 3, fun s => w64 ((s.rs 0 a).toInt * (s.rs 1 b).toInt / 2 ^ 64))
  | .seqShl p d a b => some (p, d, 1, fun s => w64 ((s.rs 0 a).toNat * 2 ^ ((s.rs 1 b).toNat % 64) : Nat))
  | .seqShr p d a b => some (p, d, 1, fun s => w64 ((s.rs 0 a).toNat / 2 ^ ((s.rs 1 b).toNat % 64) : Nat))
  | .seqSar p d a b => some (p, d, 1, fun s => w64 ((s.rs 0 a).toInt / 2 ^ ((s.rs 1 b).toNat % 64)))
  | .seqMin p d a b true => some (p, d, 1, fun s => w64 (min (s.rs 0 a).toNat (s.rs 1 b).toNat : Nat))
  | .seqMin p d a b false => some (p, d, 1, fun s => w64 (min (s.rs 0 a).toInt (s.rs 1 b).toInt))
  | .seqMax p d a b true => some (p, d, 1, fun s => w64 (max (s.rs 0 a).toNat (s.rs 1 b).toNat : Nat))
  | .seqMax p d a b false => some (p, d, 1, fun s => w64 (max (s.rs 0 a).toInt (s.rs 1 b).toInt))
  | _ => none

/-- The ALU over exact integers, immediate forms: `imm` is sign-extended, a shift count is used as it is (R63, R144). -/
def immForm : Instr → Option (Pred × BitVec 6 × Nat × (State → Word))
  | .seqAddImm p d a imm => some (p, d, 1, fun s => w64 ((s.rs 0 a).toInt + imm.toInt))
  | .seqSubImm p d a imm => some (p, d, 1, fun s => w64 ((s.rs 0 a).toInt - imm.toInt))
  | .seqMulImm p d a imm => some (p, d, 3, fun s => w64 ((s.rs 0 a).toInt * imm.toInt))
  | .seqMinImm p d a imm => some (p, d, 1, fun s => w64 (min (s.rs 0 a).toInt imm.toInt))
  | .seqMaxImm p d a imm => some (p, d, 1, fun s => w64 (max (s.rs 0 a).toInt imm.toInt))
  | .seqShlImm p d a sh => some (p, d, 1, fun s => w64 ((s.rs 0 a).toNat * 2 ^ sh.toNat : Nat))
  | .seqShrImm p d a sh => some (p, d, 1, fun s => w64 ((s.rs 0 a).toNat / 2 ^ sh.toNat : Nat))
  | .seqSarImm p d a sh => some (p, d, 1, fun s => w64 ((s.rs 0 a).toInt / 2 ^ sh.toNat))
  | .seqMovi p d imm => some (p, d, 1, fun _ => w64 imm.toInt)
  | .seqMovh p d q imm => some (p, d, 1, fun s =>
      let x := (s.rs 0 d).toNat
      let n := 16 * q.toNat
      w64 (x / 2 ^ (n + 16) * 2 ^ (n + 16) + imm.toNat * 2 ^ n + x % 2 ^ n : Nat))
  | _ => none

/-- The bitwise operations and moves, bit by bit: bit i of the result (R63, R144, R146). -/
def bitForm : Instr → Option (Pred × BitVec 6 × (State → Nat → Bool))
  | .seqAnd p d a b => some (p, d, fun s i => (s.rs 0 a).getLsbD i && (s.rs 1 b).getLsbD i)
  | .seqOr p d a b => some (p, d, fun s i => (s.rs 0 a).getLsbD i || (s.rs 1 b).getLsbD i)
  | .seqXor p d a b => some (p, d, fun s i => (s.rs 0 a).getLsbD i != (s.rs 1 b).getLsbD i)
  | .seqAndn p d a b => some (p, d, fun s i => (s.rs 0 a).getLsbD i && !(s.rs 1 b).getLsbD i)
  | .seqAndImm p d a imm => some (p, d, fun s i => (s.rs 0 a).getLsbD i && decide (i < 23) && imm.getLsbD i)
  | .seqOrImm p d a imm => some (p, d, fun s i => (s.rs 0 a).getLsbD i || (decide (i < 23) && imm.getLsbD i))
  | .seqXorImm p d a imm => some (p, d, fun s i => (s.rs 0 a).getLsbD i != (decide (i < 23) && imm.getLsbD i))
  | .seqMov p d a => some (p, d, fun s i => (s.rs 0 a).getLsbD i)
  | .seqSel p d c a b => some (p, d, fun s i => if s.rc 2 c then (s.rs 0 a).getLsbD i else (s.rs 1 b).getLsbD i)
  | _ => none

/-- The conditions of `CMP` by code over exact integers (R145). -/
def cmpCode (cc : BitVec 3) (x y : Word) : Prop :=
  (cc = 0 ∧ x.toNat = y.toNat) ∨ (cc = 1 ∧ x.toNat ≠ y.toNat) ∨ (cc = 2 ∧ x.toInt < y.toInt) ∨ (cc = 3 ∧ y.toInt ≤ x.toInt)
  ∨ (cc = 4 ∧ x.toNat < y.toNat) ∨ (cc = 5 ∧ y.toNat ≤ x.toNat)
  ∨ (cc = 6 ∧ ∃ i < 64, x.getLsbD i = true ∧ y.getLsbD i = true) ∨ (cc = 7 ∧ ¬ ∃ i < 64, x.getLsbD i = true ∧ y.getLsbD i = true)

/-- The rounding mode and FTZ of a slot, and its FP32 operands: bits [31:0] (R29, R30, R147). -/
def fpForm : Instr → Option (Pred × BitVec 6 × (State → Res))
  | .seqFadd p d a b rm md => some (p, d, fun s =>
      ieee32.add (s.seqRm rm md) s.seqFtz ((s.rs 0 a).toNat % 2 ^ 32) ((s.rs 1 b).toNat % 2 ^ 32))
  | .seqFsub p d a b rm md => some (p, d, fun s =>
      ieee32.sub (s.seqRm rm md) s.seqFtz ((s.rs 0 a).toNat % 2 ^ 32) ((s.rs 1 b).toNat % 2 ^ 32))
  | .seqFmul p d a b rm md => some (p, d, fun s =>
      ieee32.mul (s.seqRm rm md) s.seqFtz ((s.rs 0 a).toNat % 2 ^ 32) ((s.rs 1 b).toNat % 2 ^ 32))
  | .seqFfma p d a b c rm md => some (p, d, fun s =>
      ieee32.fma (s.seqRm rm md) s.seqFtz ((s.rs 0 a).toNat % 2 ^ 32) ((s.rs 1 b).toNat % 2 ^ 32) ((s.rs 2 c).toNat % 2 ^ 32))
  | _ => none

/-- Every byte of HBM and package store reads as before. -/
def memSame (s t : State) : Prop := ∀ h, t.home h = s.home h

/-- Only the frame of the bundle that is being issued differs. -/
def frameOnly (s t : State) : Prop := { t with frame := s.frame } = s

/-- Nothing outside core `c` has changed, but for the count of identifiers. -/
def outside (s t : State) (c : Nat) : Prop :=
  { t with cores := s.cores, nextId := s.nextId } = s ∧ ∀ e, e ≠ c → t.core e = s.core e

/-- Core `c` keeps its sequencer, stores, binding table, bands and the rest of what the engines' queues do not hold. -/
def keepsCore (s t : State) (c : Nat) : Prop :=
  (t.core c).seq = (s.core c).seq ∧ (t.core c).unit = (s.core c).unit ∧ (t.core c).tile = (s.core c).tile
  ∧ (t.core c).scalar = (s.core c).scalar ∧ (t.core c).bind = (s.core c).bind ∧ (t.core c).bands = (s.core c).bands
  ∧ (t.core c).invs = (s.core c).invs ∧ (t.core c).leaves = (s.core c).leaves ∧ (t.core c).rq = (s.core c).rq
  ∧ (t.core c).list = (s.core c).list ∧ (t.core c).credits = (s.core c).credits ∧ (t.core c).watch = (s.core c).watch

/-- The CSR number of a SYS instruction (R113). -/
def csrOf (s : State) (a : BitVec 6) (n : BitVec 9) : Nat := ((s.rs 0 a).toNat % 4096 + n.toNat) % 4096

end Sys2Proof.Claims

open Sys2Proof.Claims

/-- R61: a slot whose predicate is false has no effect, whatever its instruction; NOP has none at all. -/
def Sys2Proof.Claims.SeqFalsePredicateDoesNothing : Prop :=
  (∀ i p s, seqPred i = some p → s.predHolds p = false → exec i s = .next s) ∧ ∀ s, exec .seqNop s = .next s

/-- R144, register forms: the result over exact integers lands within the bound; nothing else changes. -/
def Sys2Proof.Claims.SeqIntegerRegisterForms : Prop :=
  ∀ i p d L f, regForm i = some (p, d, L, f) → ∀ s c, slotOn s c p → d ≠ 0 → noFlight s c 0 (physOf s d) →
    exec i s = .next (landing s c 0 (physOf s d) L (f s))

/-- R63 and R144, immediate forms, MOVI and MOVH. -/
def Sys2Proof.Claims.SeqIntegerImmediateForms : Prop :=
  ∀ i p d L f, immForm i = some (p, d, L, f) → ∀ s c, slotOn s c p → d ≠ 0 → noFlight s c 0 (physOf s d) →
    exec i s = .next (landing s c 0 (physOf s d) L (f s))

/-- R63, R144 and R146: bitwise operations, MOV and SEL, bit by bit. -/
def Sys2Proof.Claims.SeqBitwiseAndMoves : Prop :=
  ∀ i p d f, bitForm i = some (p, d, f) → ∀ s c, slotOn s c p → d ≠ 0 → noFlight s c 0 (physOf s d) →
    ∃ v : Word, exec i s = .next (landing s c 0 (physOf s d) 1 v) ∧ ∀ j < 64, v.getLsbD j = f s j

/-- R58: a result for `s0` is discarded: the slot changes nothing but the flags that floating-point instructions merge. -/
def Sys2Proof.Claims.SeqWriteToS0IsDiscarded : Prop :=
  (∀ i p L f, regForm i = some (p, 0, L, f) → ∀ s c, slotOn s c p → exec i s = .next s)
  ∧ (∀ i p L f, immForm i = some (p, 0, L, f) → ∀ s c, slotOn s c p → exec i s = .next s)
  ∧ (∀ i p f, bitForm i = some (p, 0, f) → ∀ s c, slotOn s c p → exec i s = .next s)
  ∧ ∀ i p f, fpForm i = some (p, 0, f) → ∀ s c, slotOn s c p →
      exec i s = .next (s.setCore c { s.core c with seq := { (s.core c).seq with
        flag := (s.core c).seq.flag ||| (f s).flags.setWidth 64 } })

/-- R145 and R148: CMP, CMP with an immediate, FCMP write a condition register. -/
def Obligations.SeqCompares : Prop :=
  (∀ p d a b cc s c, slotOn s c p → noFlight s c 1 (physCOf s d) →
    ∃ v : Bool, exec (.seqCmp p d a b cc) s = .next (landing s c 1 (physCOf s d) 1 (if v then 1 else 0))
      ∧ (v = true ↔ cmpCode cc (s.rs 0 a) (s.rs 1 b)))
  ∧ (∀ p d a cc (imm : BitVec 19) s c, slotOn s c p → noFlight s c 1 (physCOf s d) →
    ∃ v : Bool, exec (.seqCmpImm p d a cc imm) s = .next (landing s c 1 (physCOf s d) 1 (if v then 1 else 0))
      ∧ (v = true ↔ cmpCode cc (s.rs 0 a) (w64 imm.toInt)))
  ∧ ∀ p d a b cc s c, slotOn s c p → noFlight s c 1 (physCOf s d) →
    exec (.seqFcmp p d a b cc) s =
      let r := fcmpE ieee32 s.seqFtz cc.toNat ((s.rs 0 a).toNat % 2 ^ 32) ((s.rs 1 b).toNat % 2 ^ 32)
      .next (landingFlags s c 1 (physCOf s d) 2 (if r.1 then 1 else 0) r.2)

/-- R147, R149: FADD, FSUB, FMUL, FFMA and CVT land a zero-extended result within 4 cycles and merge its flags. -/
def Obligations.SeqFloatingPoint : Prop :=
  (∀ i p d f, fpForm i = some (p, d, f) → ∀ s c, slotOn s c p → d ≠ 0 → noFlight s c 0 (physOf s d) →
    exec i s = .next (landingFlags s c 0 (physOf s d) 4 (BitVec.ofNat 64 (f s).bits) (f s).flags))
  ∧ ∀ p d a rm md df sf s c, slotOn s c p → d ≠ 0 → noFlight s c 0 (physOf s d) →
    ∀ fd fs, Fmt.ofCode df.toNat = some fd → Fmt.ofCode sf.toNat = some fs →
    exec (.seqCvt p d a rm md df sf) s =
      let r := convert fd fs (s.seqRm rm md) false s.seqFtz ((s.rs 0 a).toNat % 2 ^ fs.width)
      .next (landingFlags s c 0 (physOf s d) 4 (if fd = .i32 then w64 (BitVec.ofNat 32 r.bits).toInt else BitVec.ofNat 64 r.bits) r.flags)

/-- R74 and R75: a register in a landing range reads undefined, then its value; an overlapping write leaves it undefined. -/
def Obligations.LandingRanges : Prop :=
  (∀ (q : Seq) file reg now L v n, file < 5 → q.inRange file reg now = false → now < n →
    n < now + L → ((q.settle now).write file reg now L v |>.settle n).value file reg n = none)
  ∧ (∀ (q : Seq) reg now L v, reg < 64 → (∀ l ∈ q.land, l.file = 0 → l.reg = reg → l.last ≤ now) →
      ∀ n, now + L ≤ n → (((q.settle now).write 0 reg now L v).settle n).value 0 reg n = v)
  ∧ (∀ (q : Seq) file reg now L v, (∃ l ∈ q.land, l.file = file ∧ l.reg = reg ∧ now < l.last) →
      ∀ l ∈ ((q.settle now).write file reg now L v).land, l.file = file → l.reg = reg → l.value = none)

/-- R150, R151: LDS lands the bytes at the exact address; STS stores exactly the addressed bytes; outside the store and at a misaligned
address the slot faults. -/
def Obligations.SeqLoadsAndStores : Prop :=
  ∀ p d a (sp : Bool) (sz : BitVec 2) sx (off : BitVec 19) s c, slotOn s c p →
    let n : Nat := 2 ^ sz.toNat
    let addr : Int := (s.rs 0 a).toNat + off.toInt
    let top : Int := if sp then 0x1000000 else 0x10000
    (0 ≤ addr → addr + n ≤ top → addr.toNat % n = 0 → (sp = true → s.preCore.held addr.toNat (addr.toNat + n) = false) →
      (d ≠ 0 → noFlight s c 0 (physOf s d) →
        exec (.seqLds p d a sp sz sx off) s =
          let v := natOfBytes (if sp then s.tileBytes s.preCore addr.toNat n else s.scalarBytes s.preCore addr.toNat n)
          .next (landing s c 0 (physOf s d) (if sp then 8 else 4)
            (if sx then w64 (if v < 2 ^ (8 * n - 1) then (v : Int) else (v : Int) - 2 ^ (8 * n)) else BitVec.ofNat 64 v)))
      ∧ ∃ m : Memory, exec (.seqSts p d a sp sz off) s =
            .next (s.setCore c (if sp then { s.core c with tile := m } else { s.core c with scalar := m }))
          ∧ let old := if sp then (s.core c).tile else (s.core c).scalar
            (∀ x, (x < addr.toNat ∨ addr.toNat + n ≤ x) → m.read x = old.read x)
          ∧ (old.wf = true → ∀ j < n, m.read (addr.toNat + j) = some (BitVec.ofNat 8 ((s.rs 1 d).toNat / 256 ^ j))))
    ∧ ((addr < 0 ∨ top < addr + n) → s.frame.fault = none →
        exec (.seqLds p d a sp sz sx off) s = .next { s with frame := { s.frame with fault := some .seqAddr, vaddr := 0 } }
        ∧ exec (.seqSts p d a sp sz off) s = .next { s with frame := { s.frame with fault := some .seqAddr, vaddr := 0 } })
    ∧ (0 ≤ addr → addr + n ≤ top → addr.toNat % n ≠ 0 → s.frame.fault = none →
        exec (.seqLds p d a sp sz sx off) s = .next { s with frame := { s.frame with fault := some .seqAlign, vaddr := 0 } }
        ∧ exec (.seqSts p d a sp sz off) s = .next { s with frame := { s.frame with fault := some .seqAlign, vaddr := 0 } })

/-- R153: TALLOC, TSET, TFREE and TGET. -/
def Sys2Proof.Claims.SeqTileHandles : Prop :=
  ∀ p (n a : BitVec 6) s c, slotOn s c p → noFlight s c 2 n.toNat →
    (hOk (s.rs 0 a &&& ~~~0x10#64) = true →
      ((s.preCore.entry n.toNat).st = .free →
        ∃ t, exec (.seqTalloc p n a) s = .next t ∧ ((t.core c).entry n.toNat).st = .alloc
          ∧ (∀ m, m ≠ n.toNat → (t.core c).entry m = (s.core c).entry m)
          ∧ (t.core c).seq = ((landing s c 2 n.toNat 2 ((s.rs 0 a &&& ~~~0x1F#64) ||| 0x10#64)).core c).seq ∧ outside s t c)
      ∧ ((s.preCore.entry n.toNat).st = .alloc ∨ (s.preCore.entry n.toNat).st = .ready →
          exec (.seqTset p n a) s = .next (landing s c 2 n.toNat 2 ((s.rs 0 a &&& ~~~0x1F#64) ||| 0x10#64))))
    ∧ ((s.preCore.entry n.toNat).st = .alloc ∨ (s.preCore.entry n.toNat).st = .ready →
        ∃ t, exec (.seqTfree p n) s = .next t ∧ ((t.core c).entry n.toNat).st = .free
          ∧ (∀ m, m ≠ n.toNat → (t.core c).entry m = (s.core c).entry m)
          ∧ (t.core c).seq = ((landing s c 2 n.toNat 2 (s.rt 0 n &&& ~~~0x10#64)).core c).seq ∧ outside s t c)
    ∧ (a ≠ 0 → noFlight s c 0 (physOf s a) → exec (.seqTget p a n) s = .next (landing s c 0 (physOf s a) 2 (s.rt 0 n)))

/-- R154: MOVC between `s` names and the condition, loop and rotation registers. -/
def Obligations.SeqMovc : Prop :=
  ∀ p (d a : BitVec 6) s c, slotOn s c p →
    (d ≠ 0 → noFlight s c 0 (physOf s d) →
      exec (.seqMovc p 0x0 d a) s = .next (landing s c 0 (physOf s d) 2 (if s.rc 0 (a.truncate 4) then 1 else 0))
      ∧ exec (.seqMovc p 0x8 d a) s = .next (landing s c 0 (physOf s d) 2 (s.seqRead 0 3 0))
      ∧ exec (.seqMovc p 0x9 d a) s = .next (landing s c 0 (physOf s d) 2 (s.seqRead 0 4 0))
      ∧ exec (.seqMovc p 0xA d a) s = .next (landing s c 0 (physOf s d) 2 (BitVec.ofNat 64 s.preCore.seq.rot.toNat)))
    ∧ (d ≠ 0 → noFlight s c 0 (physOf s d) →
      ∃ v : Word, exec (.seqMovc p 0x2 d a) s = .next (landing s c 0 (physOf s d) 2 v)
        ∧ ∀ j < 64, v.getLsbD j = (decide (j < 16) && s.rc (8 + j) (BitVec.ofNat 4 j)))
    ∧ ((∀ r, noFlight s c 1 r) → ∃ t, exec (.seqMovc p 0x3 d a) s = .next t ∧ outside s t c
      ∧ ∀ j, 1 ≤ j → j < 16 →
        ⟨1, physC s.preCore.seq.rot j, some (if (s.rs 0 a).getLsbD j then 1 else 0), s.cycle + 1, s.cycle + 2⟩ ∈ (t.core c).seq.land)
    ∧ (noFlight s c 1 (physCOf s (d.truncate 4)) →
      exec (.seqMovc p 0x1 d a) s = .next (landing s c 1 (physCOf s (d.truncate 4)) 2 (if s.rs 0 a = 0 then 0 else 1)))
    ∧ (noFlight s c 3 0 → exec (.seqMovc p 0x4 d a) s = .next (landing s c 3 0 2 (s.rs 0 a)))
    ∧ (noFlight s c 4 0 → exec (.seqMovc p 0x5 d a) s = .next (landing s c 4 0 2 (s.rs 0 a)))
    ∧ exec (.seqMovc p 0x6 d a) s =
        .next (s.setCore c { s.core c with seq := { (s.core c).seq with rot := BitVec.ofNat 5 (s.rs 0 a).toNat } })

/-- R70, R115, R140, R155: where BR, BRC, CALL, RET and ERET go, and what KLOOP does to the loop registers; a RET in the cycle after its
CALL goes to an undefined target. -/
def Obligations.SeqBranches : Prop :=
  ∀ p (off : BitVec 32) a s c, slotOn s c p →
    let target := s.preCore.seq.pc + w64 (32 * off.toInt)
    exec (.seqBr p off) s = .next { s with frame := { s.frame with target := some target } }
    ∧ exec (.seqBrc p a) s = .next { s with frame := { s.frame with target := some (s.rs 0 a) } }
    ∧ (s.preCore.seq.callAt.map (fun i => i + 1) ≠ some s.cycle →
        exec (.seqRet p) s = .next { s with frame := { s.frame with target := some (s.rs 0 31) } })
    ∧ (∃ w, exec (.seqRet p) s = .next { s with frame := { s.frame with target := some w } })
    ∧ (noFlight s c 0 31 →
        let t := landing s c 0 31 1 (s.preCore.seq.pc + 32)
        exec (.seqCall p off) s = .next { t.setCore c { t.core c with seq := { (t.core c).seq with callAt := some s.cycle } } with
          frame := { s.frame with target := some target } })
    ∧ (s.preCore.seq.handler = true →
        exec (.seqEret p) s = .next { s with frame := { s.frame with eret := true, target := some s.preCore.seq.epc } })
    ∧ (s.preCore.seq.handler = false → s.frame.trap = none →
        exec (.seqEret p) s = .next { s with frame := { s.frame with trap := some .illegalOp } })
    ∧ ∃ t, exec (.seqKloop p off) s = .next t
        ∧ t.frame.target = (if 1 < (s.seqRead 0 3 0).toNat then some target else s.frame.target)
        ∧ (t.core c).seq.rot = s.preCore.seq.rot + 1
        ∧ (noFlight s c 3 0 → (t.core c).seq.kc = some (w64 ((s.seqRead 0 3 0).toNat - 1 : Nat)))
        ∧ (noFlight s c 4 0 → (t.core c).seq.fc = some (w64 ((s.seqRead 1 4 0).toNat - 1 : Nat)))
        ∧ outside s { t with frame := s.frame } c

/-- R58, R61: a false predicate does nothing, and a write to S0 is discarded. -/
def Obligations.SeqPredicateAndS0 : Prop :=
  Sys2Proof.Claims.SeqFalsePredicateDoesNothing ∧ Sys2Proof.Claims.SeqWriteToS0IsDiscarded

/-- R63, R144, R146: the integer, bitwise and move operations of slots A and B. -/
def Obligations.SeqIntegerOperations : Prop :=
  Sys2Proof.Claims.SeqIntegerRegisterForms ∧ Sys2Proof.Claims.SeqIntegerImmediateForms ∧ Sys2Proof.Claims.SeqBitwiseAndMoves

namespace Sys2Proof.Claims

/-! ### Words for the engines' queues -/

/-- A handle operand that the class accepts (R161): compute readers, copy readers, writers and fillers. -/
def readable (s : State) (t : BitVec 6) : Prop :=
  (s.preCore.entry t.toNat).st = .ready ∨ (s.preCore.entry t.toNat).st = .bound ∨ (s.preCore.entry t.toNat).st = .draining
/-- A handle operand that a writer or a filler accepts (R161). -/
def fillable (s : State) (t : BitVec 6) : Prop :=
  (s.preCore.entry t.toNat).st = .alloc ∨ (s.preCore.entry t.toNat).st = .ready

/-- One command has been entered at the tail of copy channel `ch` of core `c`; the other channels stand as they were. -/
def entered (s t : State) (c ch : Nat) (m : CopyCmd) : Prop :=
  (t.core c).chan ch = (s.core c).chan ch ++ [m] ∧ ∀ i < 4, i ≠ ch → (t.core c).chan i = (s.core c).chan i

/-- The arrays' state apart from queues, numbers and pairing is as it was. -/
def arrayStill (s t : State) (c : Nat) : Prop :=
  (t.core c).arr.live = (s.core c).arr.live ∧ (t.core c).arr.shadow = (s.core c).arr.shadow
  ∧ (t.core c).arr.bank0 = (s.core c).arr.bank0 ∧ (t.core c).arr.bank1 = (s.core c).arr.bank1
  ∧ (t.core c).arr.rowprog = (s.core c).arr.rowprog ∧ (t.core c).arr.fault = (s.core c).arr.fault

/-- The device with another register of core `c`'s sequencer. -/
def seqWith (s : State) (c : Nat) (f : Seq → Seq) : State := s.setCore c { s.core c with seq := f (s.core c).seq }
/-- The device with another frame of the bundle that is being issued. -/
def inFrame (s : State) (f : Frame) : State := { s with frame := f }

end Sys2Proof.Claims

/-- R162, R180, R182, R185: CPYIN, CPYOUT, CPYXC and DRAIN enter their command in the channel's queue and take the tile. -/
def Sys2Proof.Claims.SeqCopyCommands : Prop :=
  ∀ p (ch : BitVec 2) (t a : BitVec 6) tr sp cv s c, slotOn s c p → (s.preCore.chan ch.toNat).length < 16 →
    (fillable s t → (s.core c).ranges.length < 32 → (s.rs 0 a).toNat % 32 = 0 → (s.rs 0 a).toNat ≤ 0xFFE0 →
      copyDescOk (s.descAt (s.rs 0 a)) (s.rt 2 t) tr sp = true →
      ∃ u m, exec (.seqCpyin p ch t a tr sp cv) s = .next u ∧ entered s u c ch.toNat m ∧ keepsCore s u c ∧ outside s u c
        ∧ m.op = .cin ∧ m.treg = some t ∧ m.handle = s.rt 2 t ∧ m.desc = s.descAt (s.rs 0 a) ∧ m.tr = tr ∧ m.sp = sp ∧ m.cv = cv
        ∧ m.st = .queued ∧ ((u.core c).entry t.toNat).st = .filling
        ∧ ∀ n, n ≠ t.toNat → (u.core c).entry n = (s.core c).entry n)
    ∧ (readable s t → (s.preCore.entry t.toNat).xrd < 63 → (s.rs 0 a).toNat % 32 = 0 → (s.rs 0 a).toNat ≤ 0xFFE0 →
      copyDescOk (s.descAt (s.rs 0 a)) (s.rt 2 t) tr false = true →
      ∃ u m, exec (.seqCpyout p ch t a tr) s = .next u ∧ entered s u c ch.toNat m ∧ keepsCore s u c ∧ outside s u c
        ∧ m.op = .cout ∧ m.treg = some t ∧ m.handle = s.rt 2 t ∧ m.desc = s.descAt (s.rs 0 a) ∧ m.tr = tr ∧ m.st = .queued
        ∧ ((u.core c).entry t.toNat).xrd = ((s.core c).entry t.toNat).xrd + 1
        ∧ ∀ n, n ≠ t.toNat → (u.core c).entry n = (s.core c).entry n)
    ∧ (readable s t → (s.preCore.entry t.toNat).xrd < 63 → bf (s.rs 1 a).toNat 6 2 = 0 → bf (s.rs 1 a).toNat 14 50 = 0 →
      ∃ u m, exec (.seqCpyxc p ch t a tr) s = .next u ∧ entered s u c ch.toNat m ∧ keepsCore s u c ∧ outside s u c
        ∧ m.op = .cxc ∧ m.treg = some t ∧ m.handle = s.rt 2 t ∧ m.dest = s.rs 1 a ∧ m.tr = tr ∧ m.st = .queued
        ∧ ((u.core c).entry t.toNat).xrd = ((s.core c).entry t.toNat).xrd + 1)
    ∧ ∃ u m, exec (.seqDrain p ch) s = .next u ∧ entered s u c ch.toNat m ∧ keepsCore s u c ∧ outside s u c
        ∧ m.op = .marker ∧ m.treg = none ∧ ∀ n, (u.core c).entry n = (s.core c).entry n

/-- R186: QFENCE enters one fence in every queue that its mask names, and waits while a named queue has no room. -/
def Sys2Proof.Claims.SeqQueueFence : Prop :=
  ∀ p (mask : BitVec 7) s c, slotOn s c p →
    (s.preCore.fenceRoom mask.toNat = true →
      let k := (s.core c).putFence mask.toNat s.nextId (.seq c)
      exec (.seqQfence p mask) s = .next (({ s with nextId := s.nextId + 1 } : State).setCore c (k.openFences k.fenceCount)))
    ∧ (s.preCore.fenceRoom mask.toNat = false → s.frame.stall = none →
        exec (.seqQfence p mask) s = .next { s with frame := { s.frame with stall := some .equeue } })

/-- R192, R193, R195, R209: MXLDW, MXSWAP, MXMUL and EPI enter their commands. -/
def Obligations.SeqArrayCommands : Prop :=
  ∀ p (t a b : BitVec 6) (ns ten acc z : Bool) s c, slotOn s c p → s.preCore.arr.degraded = false →
    (s.preCore.arr.queue.length < 8 →
      (readable s t → (s.preCore.entry t.toNat).crd < 63 → bf (s.rs 1 b).toNat 10 6 = 0 → bf (s.rs 1 b).toNat 28 36 = 0 →
        ns = true → mxClass (hFmt (s.rt 2 t)) ≠ 0 →
        ∃ u m, exec (.seqMxldw p t a b ns) s = .next u ∧ (u.core c).arr.queue = (s.core c).arr.queue ++ [m]
          ∧ m.op = .ldw ∧ m.handle = s.rt 2 t ∧ m.word = s.rs 1 b ∧ m.scales = [] ∧ m.num = (s.core c).arr.nextNum
          ∧ ((u.core c).entry t.toNat).crd = ((s.core c).entry t.toNat).crd + 1 ∧ arrayStill s u c ∧ keepsCore s u c ∧ outside s u c)
      ∧ (s.preCore.arr.ldwSince = true →
        ∃ u m, exec (.seqMxswap p) s = .next u ∧ (u.core c).arr.queue = (s.core c).arr.queue ++ [m] ∧ m.op = .swap
          ∧ arrayStill s u c ∧ keepsCore s u c ∧ outside s u c)
      ∧ (s.preCore.arr.ldwSince = false → s.frame.fault = none →
        exec (.seqMxswap p) s = .next { s with frame := { s.frame with fault := some .mxNoWeight, vaddr := 0 } })
      ∧ (readable s t → (s.preCore.entry t.toNat).crd < 63 → ten = false → s.preCore.arr.monitor = none → s.preCore.arr.swapped = true →
        bf (s.rs 1 b).toNat 12 52 = 0 → (acc = false → bf (s.rs 1 b).toNat 8 4 = 0) →
        mxClass (hFmt (s.rt 2 t)) = mxClass s.preCore.arr.pendFmt →
        (mxClass s.preCore.arr.pendFmt = 1 ∨ mxClass s.preCore.arr.pendFmt = 2 → bf (s.rs 1 b).toNat 0 8 = 0) →
        ∃ u m, exec (.seqMxmul p t a b ten acc z) s = .next u ∧ (u.core c).arr.queue = (s.core c).arr.queue ++ [m]
          ∧ m.op = .mul ∧ m.handle = s.rt 2 t ∧ m.word = s.rs 1 b ∧ m.acc = acc ∧ m.z = z
          ∧ (u.core c).arr.monitor = some (s.cycle, mxII (mxClass s.preCore.arr.pendFmt))
          ∧ ((u.core c).entry t.toNat).crd = ((s.core c).entry t.toNat).crd + 1 ∧ arrayStill s u c ∧ keepsCore s u c ∧ outside s u c))
    ∧ (s.preCore.arr.epi.length < 8 → fillable s t → (s.rs 0 a).toNat % 64 = 0 → (s.rs 0 a).toNat ≤ 0xFFC0 →
        let blk := BitVec.ofNat 512 (natOfBytes (s.scalarBytes s.preCore (s.rs 0 a).toNat 64))
        ebOk blk = true → ebBv blk = false → hFmt (s.rt 2 t) = eb blk 0 5 →
        ∃ u m, exec (.seqEpi p t a) s = .next u ∧ (u.core c).arr.epi = (s.core c).arr.epi ++ [m] ∧ m.block = blk
          ∧ m.handle = s.rt 2 t ∧ m.isFence = false ∧ ((u.core c).entry t.toNat).st = .writing
          ∧ (u.core c).arr.queue = (s.core c).arr.queue ∧ arrayStill s u c ∧ keepsCore s u c ∧ outside s u c)

/-- R382, R383, R387, R388: TSEND, COLL and TRECV. -/
def Sys2Proof.Claims.SeqLinkCommands : Prop :=
  ∀ p (ch : BitVec 2) (t a b : BitVec 6) (q : BitVec 4) (kind : BitVec 2) (op : BitVec 3) res s c, slotOn s c p →
    ((s.preCore.sendQ ch.toNat).length < 16 →
      (readable s t → (s.preCore.entry t.toNat).xrd < 63 → bf (s.rs 0 a).toNat 22 42 = 0 → bf (s.rs 1 b).toNat 32 32 = 0 → b ≠ 0 →
        ∀ i e, s.preCore.chanFor (s.rs 0 a) = some (i, e) → e.pending < 16 →
        ∃ u m, exec (.seqTsend p ch t a b) s = .next u ∧ (u.core c).sendQ ch.toNat = (s.core c).sendQ ch.toNat ++ [m]
          ∧ m.op = .tsend ∧ m.handle = s.rt 2 t ∧ m.dest = s.rs 0 a ∧ m.key.toNat = (s.rs 1 b).toNat ∧ m.msg = e.sent % 2 ^ 24
          ∧ aget (u.core c).chtab i = some { e with key := m.key, pending := e.pending + 1, sent := e.sent + 1 }
          ∧ ((u.core c).entry t.toNat).xrd = ((s.core c).entry t.toNat).xrd + 1 ∧ keepsCore s u c ∧ outside s u c)
      ∧ ((s.rs 0 a).toNat % 64 = 0 → (s.rs 0 a).toNat ≤ 0xFFC0 →
        let d := BitVec.ofNat 512 (natOfBytes (s.scalarBytes s.preCore (s.rs 0 a).toNat 64))
        s.collOk (s.preCore.unitCtx / 16) (s.rs 0 a).toNat kind.toNat op.toNat res d = true →
        ∃ u m, exec (.seqColl p ch a kind op res) s = .next u ∧ (u.core c).sendQ ch.toNat = (s.core c).sendQ ch.toNat ++ [m]
          ∧ m.op = .coll ∧ m.desc = d ∧ m.ordinal = (aget s.collCount (cl d 192 8)).getD 0
          ∧ aget u.collCount (cl d 192 8) = some (m.ordinal + 1) ∧ keepsCore s u c ∧ ∀ e, e ≠ c → u.core e = s.core e))
    ∧ (fillable s t → s.preCore.ranges.length < 32 → s.preCore.recvQ q.toNat = (s.core c).recvQ q.toNat →
        ((s.core c).recvQ q.toNat).owner = .seq → ((s.core c).recvQ q.toNat).chan.isSome = true →
        s.loggedMessage s.preCore.unitCtx c q.toNat = none →
        ∀ n rest, ((s.core c).recvQ q.toNat).notes = n :: rest →
        hRows (s.rt 2 t) = n.rows → hCols (s.rt 2 t) = n.cols → hFmt (s.rt 2 t) = n.fmt →
        ∃ u, exec (.seqTrecv p t q) s = .next u ∧ ((u.core c).entry t.toNat).st = .filling
          ∧ ((u.core c).recvQ q.toNat).owner = .seq ∧ ((u.core c).recvQ q.toNat).notes = rest
          ∧ (u.core c).seq = (s.core c).seq ∧ (u.core c).tile = (s.core c).tile ∧ (u.core c).scalar = (s.core c).scalar)

/-- R167, R168, R175, R176: TOP captures an invocation, BIND and REBIND write a binding entry, TRESTART abandons or restarts. -/
def Sys2Proof.Claims.SeqTileOpcodes : Prop :=
  ∀ p (n : BitVec 8) (a b : BitVec 6) s c, slotOn s c p →
    ((let e := s.bindEntry s.preCore n.toNat
      bindF e 0 3 = 1 → bindTiles e = 0 → bindSnap e = false → (s.preCore.invs.filter fun i => i.st = .queued).length < 16 →
      ∃ u i, exec (.seqTop p n 0 0 0 0) s = .next u ∧ (u.core c).invs = (s.core c).invs ++ [i]
        ∧ i.id = s.preCore.seq.invNext ∧ i.opc = n ∧ i.entry = e ∧ i.st = .queued ∧ i.parent = none
        ∧ (u.core c).seq = { (s.core c).seq with invNext := (s.core c).seq.invNext + 1 }
        ∧ (∀ m, (u.core c).entry m = (s.core c).entry m) ∧ (u.core c).bands = (s.core c).bands ∧ outside s u c))
    ∧ (bindF (s.bindEntry s.preCore n.toNat) 0 3 = 0 → s.frame.fault = none →
        exec (.seqTop p n 0 0 0 0) s = .next { s with frame := { s.frame with fault := some .topUnbound, vaddr := 0 } })
    ∧ ((s.rs 1 b).toNat ≤ 255 → (s.rs 0 a).toNat % 32 = 0 → (s.rs 0 a).toNat + 32 ≤ 0x10000 →
      let e := BitVec.ofNat 256 (natOfBytes (s.scalarBytes s.preCore (s.rs 0 a).toNat 32))
      let old := s.bindEntry s.preCore (s.rs 1 b).toNat
      let done := s.setCore c { s.core c with bind := (s.core c).bind.writeBytes (32 * (s.rs 1 b).toNat) (bytesOfNat 32 e.toNat) }
      bindOk e = true →
      ((s.preCore.invs.any fun i => i.opc.toNat = (s.rs 1 b).toNat) = false → exec (.seqBind p a b) s = .next done)
      ∧ (bindF old 0 3 = 1 → bindF e 0 3 = 1 → bindTiles old = bindTiles e → bindF old 112 16 = bindF e 112 16 →
          exec (.seqRebind p a b) s = .next done))
    ∧ (∀ i, (s.preCore.invs.find? fun i => i.id = (s.rs 0 a).toNat && i.parent.isNone && i.st = .faulted) = some i →
        exec (.seqTrestart p a true) s = .next ((s.setCore c ((s.core c).abandon i)).tidyPens.coreFreed c)
        ∧ (bindRestart i.entry = true → (let f := s.bindEntry s.preCore i.opc.toNat
            bindF f 0 3 = 1 → bindTiles f = bindTiles i.entry → bindF f 112 16 = bindF i.entry 112 16 →
            bindF f 99 1 = bindF i.entry 99 1 → bindF f 174 18 = bindF i.entry 174 18 →
            exec (.seqTrestart p a false) s = .next (s.restartInv c i.id))))

/-- R142, R143, R115, R177: CHK, TWAIT, MARK and TRAP. -/
def Sys2Proof.Claims.SeqWaitsChecksTraps : Prop :=
  ∀ p (n a b : BitVec 6) (mask : BitVec 7) (ch : BitVec 2) (imm : BitVec 32) s c, slotOn s c p →
    (s.rs 0 a = s.rs 1 b → exec (.seqChk p a b) s = .next s)
    ∧ (s.rs 0 a ≠ s.rs 1 b → s.frame.trap = none →
        exec (.seqChk p a b) s = .next { s with frame := { s.frame with trap := some .chkMismatch } })
    ∧ (mask.getLsbD (s.preCore.entry n.toNat).st.bit = true → exec (.seqTwaitState p n mask) s = .next s)
    ∧ (s.preCore.invs = [] → exec (.seqTwaitAll p) s = .next s)
    ∧ (s.preCore.chan ch.toNat = [] → exec (.seqTwaitCh p ch) s = .next s)
    ∧ (s.frame.stall = none →
        (mask.getLsbD (s.preCore.entry n.toNat).st.bit = false →
          exec (.seqTwaitState p n mask) s = .next { s with frame := { s.frame with stall := some .twait } })
        ∧ (s.preCore.invs ≠ [] → exec (.seqTwaitAll p) s = .next { s with frame := { s.frame with stall := some .twait } })
        ∧ (s.preCore.chan ch.toNat ≠ [] → exec (.seqTwaitCh p ch) s = .next { s with frame := { s.frame with stall := some .twait } }))
    ∧ (s.frame.fault = none → exec (.seqTrap p imm) s =
        .next { s with frame := { s.frame with fault := some .trap, vaddr := BitVec.ofNat 64 imm.toNat } })
    ∧ (s.preCore.watch.drift = false → exec (.seqMark p imm) s = .next s)
    ∧ (s.preCore.watch.drift = true → ∃ t r, exec (.seqMark p imm) s = .next t
        ∧ aget (t.core c).watch.recs (s.core c).watch.tidx = some r ∧ outside s t c
        ∧ (t.core c).watch.tidx = ((s.core c).watch.tidx + 1) % 2048 ∧ bf r.toNat 128 32 = imm.toNat ∧ bf r.toNat 0 10 = 2
        ∧ (t.core c).seq = (s.core c).seq)

/-- R324, R325, R326, R333: LAUNCH and TENQ take a credit and enqueue the record; DDEC and DDEC.CANCEL send their messages. -/
def Sys2Proof.Claims.SeqTaskInstructions : Prop :=
  ∀ p (a b : BitVec 6) (n : BitVec 4) (scope level : BitVec 3) (launch : Bool) s c, slotOn s c p →
    ((s.rs 0 a).toNat % 64 = 0 → (s.rs 0 a).toNat + 64 ≤ 0x10000 →
      let r := BitVec.ofNat 512 (natOfBytes (s.scalarBytes s.preCore (s.rs 0 a).toNat 64))
      let x := s.preCore.unitCtx
      let i := if launch then Instr.seqLaunch p a false n else Instr.seqTenq p a false n
      recValid r launch (s.ctx x).cores = true →
      (s.preCore.credits ≠ 0 → x < 256 → ∃ t k, exec i s = .next t
        ∧ (t.core c).credits = (s.core c).credits - 1 ∧ (t.core c).seq = (s.core c).seq
        ∧ aget (t.part (x / 16)).tasks k.slot = some k ∧ (t.part (x / 16)).enqs = (s.part (x / 16)).enqs ++ [k.slot]
        ∧ k.record = r ∧ k.isLaunch = launch ∧ k.st = .pending ∧ k.ctx.toNat = x % 16 ∧ t.ctxs = s.ctxs ∧ memSame s t)
      ∧ (s.preCore.credits = 0 → s.frame.stall = none →
          exec i s = .next { s with frame := { s.frame with stall := some .store } }))
    ∧ (2 ≤ scope.toNat → scope.toNat ≤ 4 → (s.rs 0 a).toNat < 256 → -2 ^ 31 ≤ (s.rs 1 b).toInt → (s.rs 1 b).toInt < 2 ^ 31 →
        exec (.seqDdec p a b scope) s =
          .next { s with nextId := s.nextId + 1, decs := s.decs ++ [⟨c, s.nextId, s.preCore.unitCtx, (s.rs 0 a).toNat, (s.rs 1 b).toInt⟩] })
    ∧ (level = 4 → s.rs 0 a ≠ 0 → (s.rs 0 a).toNat < 64 →
        exec (.seqDdecCancel p a level) s =
          .next { s with nextId := s.nextId + 1, cancels := s.cancels ++ [⟨c, s.nextId, s.preCore.unitCtx, 4, (s.rs 0 a).toNat, 0⟩] })
    ∧ (level = 4 → s.rs 0 a = 0 → s.frame.fault = none →
        exec (.seqDdecCancel p a level) s = .next { s with frame := { s.frame with fault := some .depArg, vaddr := 0 } })

/-- R113, R117: SYS.CSRR lands the register's value within 4 cycles; SYS.CSRW, SYS.CSRS and SYS.CSRC write the writable ones, of the flag word
they clear bits; any other number traps. SYS.INT raises a software vector of the partition, 16 to 63. -/
def Obligations.SeqSystemRegisters : Prop :=
  ∀ p (d a b : BitVec 6) (n : BitVec 9) s c, slotOn s c p →
    let num := csrOf s a n
    let q := s.preCore.seq
    let v := s.rs 1 b
    (∀ r ∈ [(0x000, q.mode), (0x001, q.flag), (0x003, BitVec.ofNat 64 s.cycle), (0x010, q.epc), (0x011, q.ecause), (0x012, q.erec),
        (0x013, q.tvec), (0x014, q.escr)], num = r.1 →
      (d = 0 → exec (.seqSysCsrr p d a n) s = .next s)
      ∧ (d ≠ 0 → noFlight s c 0 (physOf s d) → exec (.seqSysCsrr p d a n) s = .next (landing s c 0 (physOf s d) 4 r.2)))
    ∧ (num = 0x002 → d ≠ 0 → noFlight s c 0 (physOf s d) → ∀ u, s.preCore.unit = some u →
      exec (.seqSysCsrr p d a n) s = .next (landing s c 0 (physOf s d) 4 (BitVec.ofNat 64 (c ||| u.part.toNat <<< 16 ||| (u.ctx.toNat % 16) <<< 20))))
    ∧ (num = 0x000 → exec (.seqSysCsrw p a b n) s = .next (seqWith s c fun q => { q with mode := v &&& 0xF#64 }))
    ∧ (num = 0x001 → exec (.seqSysCsrw p a b n) s = .next (seqWith s c fun q => { q with flag := q.flag &&& ~~~v }))
    ∧ (num = 0x010 → exec (.seqSysCsrw p a b n) s = .next (seqWith s c fun q => { q with epc := v &&& ~~~0x1F#64 }))
    ∧ (num = 0x013 → exec (.seqSysCsrw p a b n) s = .next (seqWith s c fun q => { q with tvec := v &&& ~~~0x1F#64 }))
    ∧ (num = 0x014 → exec (.seqSysCsrw p a b n) s = .next (seqWith s c fun q => { q with escr := v }))
    ∧ ((d ≠ 0 → noFlight s c 0 (physOf s d)) →
      let got := fun w => if d = 0 then s else landing s c 0 (physOf s d) 4 w
      (num = 0x000 →
        exec (.seqSysCsrs p d a b n) s = .next (seqWith (got q.mode) c fun r => { r with mode := (q.mode ||| v) &&& 0xF#64 })
        ∧ exec (.seqSysCsrc p d a b n) s = .next (seqWith (got q.mode) c fun r => { r with mode := (q.mode &&& ~~~v) &&& 0xF#64 }))
      ∧ (num = 0x001 →
        exec (.seqSysCsrs p d a b n) s = .next (seqWith (got q.flag) c fun r => { r with flag := r.flag &&& ~~~v })
        ∧ exec (.seqSysCsrc p d a b n) s = .next (got q.flag))
      ∧ (num = 0x010 →
        exec (.seqSysCsrs p d a b n) s = .next (seqWith (got q.epc) c fun r => { r with epc := (q.epc ||| v) &&& ~~~0x1F#64 })
        ∧ exec (.seqSysCsrc p d a b n) s = .next (seqWith (got q.epc) c fun r => { r with epc := (q.epc &&& ~~~v) &&& ~~~0x1F#64 }))
      ∧ (num = 0x013 →
        exec (.seqSysCsrs p d a b n) s = .next (seqWith (got q.tvec) c fun r => { r with tvec := (q.tvec ||| v) &&& ~~~0x1F#64 })
        ∧ exec (.seqSysCsrc p d a b n) s = .next (seqWith (got q.tvec) c fun r => { r with tvec := (q.tvec &&& ~~~v) &&& ~~~0x1F#64 }))
      ∧ (num = 0x014 →
        exec (.seqSysCsrs p d a b n) s = .next (seqWith (got q.escr) c fun r => { r with escr := q.escr ||| v })
        ∧ exec (.seqSysCsrc p d a b n) s = .next (seqWith (got q.escr) c fun r => { r with escr := q.escr &&& ~~~v })))
    ∧ (s.frame.trap = none →
      let illegal := inFrame s { s.frame with trap := some .illegalOp }
      (num ∉ [0x000, 0x001, 0x002, 0x003, 0x010, 0x011, 0x012, 0x013, 0x014] → exec (.seqSysCsrr p d a n) s = .next illegal)
      ∧ (num ∉ [0x000, 0x001, 0x010, 0x013, 0x014] → exec (.seqSysCsrw p a b n) s = .next illegal
          ∧ exec (.seqSysCsrs p d a b n) s = .next illegal ∧ exec (.seqSysCsrc p d a b n) s = .next illegal))
    ∧ (let w := (s.rs 0 a).toNat
       let x := s.preCore.unitCtx
       let old := s.part (x / 16)
       (16 ≤ w → w ≤ 63 → x < 256 →
         (old.vecs.toNat.testBit w = true → exec (.seqSysInt p a) s = .next s)
         ∧ (old.vecs.toNat.testBit w = false → ∃ t, exec (.seqSysInt p a) s = .next t
              ∧ t = { s with parts := t.parts, msgs := s.msgs ++ [.vector (x / 16) w (some (BitVec.ofNat 4 x))] }
              ∧ (∀ r, r ≠ x / 16 → t.part r = s.part r)
              ∧ ∃ m, t.part (x / 16) = { old with vecs := m } ∧ ∀ j < 64, m.getLsbD j = (old.vecs.getLsbD j || decide (j = w))))
       ∧ ((w < 16 ∨ 63 < w) → s.frame.fault = none →
           exec (.seqSysInt p a) s = .next (inFrame s { s.frame with fault := some .sysArg, vaddr := 0 })))

/-- R379, R380, R404: SYS.RKREG registers a region under the CHECK after its index's last one, SYS.RKREV clears the record's V, IPATCH writes the
patch. A record outside the polders is not written (R10, R378). -/
def Sys2Proof.Claims.SeqRemoteKeysAndPatches : Prop :=
  ∀ p (d a b : BitVec 6) s c, slotOn s c p →
    let x := s.preCore.unitCtx
    let k := s.ctx x
    let place := k.regionPlace (s.rs 1 b).toNat
    ((s.rs 0 a).toNat % 32 = 0 → (s.rs 0 a).toNat + 32 ≤ 0x10000 → (s.rs 1 b).toNat ≤ 4095 → baseSet k.keys = true →
      let n := (s.rs 1 b).toNat
      let r := BitVec.ofNat 256 (natOfBytes (s.scalarBytes s.preCore (s.rs 0 a).toNat 32))
      let old := s.region x n
      let last := (aget k.checks n).getD 0
      let chk := if last = 4095 then 1 else last + 1
      let t := s.onCtx x fun k => { k with checks := aput k.checks n chk, keyFrom := aput k.keyFrom n (s.cycle + 32) }
      regionOk r k.cores = true →
        (s.regionInside x n = true → old.getLsbD 63 = false → d = 0 →
          exec (.seqSysRkreg p d a b) s = .next (t.homeWrite place.1 place.2 (bytesOfNat 32 (r.toNat ||| 1 <<< 63 ||| chk))))
        ∧ (s.regionInside x n = false → exec (.seqSysRkreg p d a b) s = .next (s.breaks x)))
    ∧ ((s.rs 0 a).toNat < 2 ^ 32 → bf (s.rs 0 a).toNat 24 8 = x → baseSet k.keys = true →
      let n := bf (s.rs 0 a).toNat 12 12
      let r := s.region x n
      (s.regionInside x n = true →
        (r.getLsbD 63 = true → bf r.toNat 0 12 = bf (s.rs 0 a).toNat 0 12 →
          ∃ t m, exec (.seqSysRkrev p a) s = .next t
            ∧ t = s.homeWrite (k.regionPlace n).1 (k.regionPlace n).2 (bytesOfNat 32 m) ∧ m.testBit 63 = false
            ∧ ∀ j < 256, j ≠ 63 → m.testBit j = r.getLsbD j)
        ∧ (r.getLsbD 63 = false → exec (.seqSysRkrev p a) s = .next s))
      ∧ (s.regionInside x n = false → exec (.seqSysRkrev p a) s = .next (s.breaks x)))
    ∧ ((s.rs 0 a).toNat % 32 = 0 → (s.rs 1 b).toNat % 32 = 0 → (s.rs 1 b).toNat + 32 ≤ 0x10000 →
      ∀ r h ad, s.checkTensor (some c) x (s.rs 0 a) 32 = .ok r →
        s.translate (some c) x r (s.rs 0 a) 32 .write = .ok (.home h ad) →
        ∃ t, exec (.seqIpatch p a b false) s = .next t ∧ (t.core c).seq.patching = true
          ∧ t.home h = ((s.touch c x r (s.rs 0 a) .write).home h).writeBytes ad (s.scalarBytes s.preCore (s.rs 1 b).toNat 32))
    ∧ (((s.rs 0 a).toNat % 32 ≠ 0 ∨ (s.rs 1 b).toNat % 32 ≠ 0 ∨ 0x10000 < (s.rs 1 b).toNat + 32) → s.frame.fault = none →
        exec (.seqIpatch p a b false) s = .next { s with frame := { s.frame with fault := some .ipatchArg, vaddr := 0 } })

/-- R162, R180, R182, R185, R186: the copy commands, and QFENCE. -/
def Obligations.SeqQueueCommands : Prop :=
  Sys2Proof.Claims.SeqCopyCommands ∧ Sys2Proof.Claims.SeqQueueFence

/-- R10, R378, R379, R380, R382, R383, R387, R388, R404: the link commands, the keys of regions and patches. -/
def Obligations.SeqRemoteCommands : Prop :=
  Sys2Proof.Claims.SeqLinkCommands ∧ Sys2Proof.Claims.SeqRemoteKeysAndPatches

/-- R115, R142, R143, R177, R324, R325, R326, R333: waits, checks, traps and tasks in slot E. -/
def Obligations.SeqWaitsAndTasks : Prop :=
  Sys2Proof.Claims.SeqWaitsChecksTraps ∧ Sys2Proof.Claims.SeqTaskInstructions

/-- R153, R167, R168, R175, R176: the tile opcodes of slots M and E. -/
def Obligations.SeqTiles : Prop :=
  Sys2Proof.Claims.SeqTileHandles ∧ Sys2Proof.Claims.SeqTileOpcodes

namespace Sys2Proof.Claims

/-! ### Words for the bands -/

/-- Band `n` of core `c` issues an instruction; `b` is the band, `v` the band as the instruction reads it: the second instruction of
a pair reads what the first one read (R80). The pass that only checks a pair and makes its pops is over (R82). -/
def laneOn (s : State) (c n : Nat) (b v : Band) : Prop :=
  s.cur = .band c n ∧ c < 64 ∧ s.band c n = some b ∧ v = s.preBand.getD b ∧ s.laneDry = false

/-- The predicate of a header in a strand (R78): `p0` to `p6`, true, `bp0` to `bp6`, true; inverted where the header says so. -/
def predAt (v : Band) (h : LHdr) (st : Nat) : Bool :=
  let n := h.pred.toNat
  (if n < 7 then ((v.p[n]?).getD 0).getLsbD st else if n = 7 ∨ n = 15 then true else v.bp.getLsbD (n - 8)) != h.neg

/-- A strand participates: it is LIVE and the predicate holds; of an instruction that parked, only unfinished strands do (R78,
R279). -/
def takes (v : Band) (h : LHdr) (st : Nat) : Prop :=
  st < 64 ∧ v.live.getLsbD st = true ∧ match v.unfinished with
    | some u => u.getLsbD st = true
    | none => predAt v h st = true

/-- Nothing but band `n` of core `c` has changed, and it is `b'` now. -/
def onlyBand (s t : State) (c n : Nat) (b' : Band) : Prop :=
  { t with cores := s.cores } = s ∧ (∀ e, e ≠ c → t.core e = s.core e)
  ∧ { t.core c with bands := (s.core c).bands } = s.core c ∧ t.band c n = some b' ∧ ∀ m, m ≠ n → t.band c m = s.band c m

/-- The band has gone on to its next instruction. -/
def movedOn (b b' : Band) : Prop :=
  b'.pc = b.pc + 8 ∧ b'.unfinished = none ∧ b'.st = if b.st = .issuing ∨ b.st = .waiting then .ready else b.st

/-- What is not a register, a flag, the address, the participants of a parked instruction or the state of the band is as it was. -/
def regsOnly (b b' : Band) : Prop :=
  { b' with pc := b.pc, unfinished := b.unfinished, st := b.st, v := b.v, b := b.b, p := b.p, bp := b.bp, flag := b.flag } = b

/-- A register operand that is no `q` register, lies in the band's registers and awaits no load (R81, R220). -/
def ready1 (b v : Band) (x : BitVec 8) : Prop :=
  byteQ x = false ∧ (byteV x = true → x.toNat < v.vregs ∧ b.pending x.toNat = false)

/-- A word whose elements of width w are the results `r`. -/
def wordOf (w : Nat) (x : Word) (r : Nat → Res) : Prop := ∀ i < 64 / w, elem w x i = (r i).bits % 2 ^ w

/-- The flag word has collected the flags of the results of the strands `P` and elements below `k` (R37). -/
def flagsOf (b b' : Band) (P : Nat → Prop) (k : Nat) (r : Nat → Nat → Res) : Prop :=
  ∀ j < 64, b'.flag.getLsbD j = true ↔ b.flag.getLsbD j = true ∨ ∃ st i, P st ∧ i < k ∧ (r st i).flags.getLsbD j = true

/-! ### Integers of a type (R26, R27, R246 to R253) -/

/-- The bits of an element of a type code (R26). -/
def tyBits (ty : BitVec 4) : Nat :=
  match ty.toNat with
  | 0 | 1 => 4
  | 2 | 3 | 11 => 8
  | 4 | 5 | 8 | 9 | 12 => 16
  | 6 | 7 | 10 | 13 => 32
  | _ => 64
/-- I4, I8, I16, I32 and I64. -/
def tySigned (ty : BitVec 4) : Bool := ty.toNat ∈ [0, 2, 4, 6, 14]
/-- The integer that an element stands for. -/
def ival (ty : BitVec 4) (x : Nat) : Int := if tySigned ty ∧ 2 ^ (tyBits ty - 1) ≤ x then (x : Int) - 2 ^ tyBits ty else x
/-- The largest integer of a type. -/
def tyMax (ty : BitVec 4) : Int := if tySigned ty then 2 ^ (tyBits ty - 1) - 1 else 2 ^ tyBits ty - 1
/-- The smallest integer of a type. -/
def tyMin (ty : BitVec 4) : Int := if tySigned ty then -2 ^ (tyBits ty - 1) else 0
/-- An integer as a pattern of a type. -/
def patt (ty : BitVec 4) (z : Int) : Nat := (z % 2 ^ tyBits ty).toNat
/-- An exact integer into an element: clamped with SAT and NX under `.SAT`, else wrapped (R246). -/
def intOut (ty : BitVec 4) (sat : Bool) (z : Int) : Res :=
  if sat ∧ tyMax ty < z then ⟨patt ty (tyMax ty), fSAT ||| fNX⟩
  else if sat ∧ z < tyMin ty then ⟨patt ty (tyMin ty), fSAT ||| fNX⟩ else ⟨patt ty z, 0⟩
/-- Division (R248). -/
def divOut (ty : BitVec 4) (sat rem : Bool) (x y : Nat) : Res :=
  let a := ival ty x
  let b := ival ty y
  if b = 0 then ⟨if rem then x else 2 ^ tyBits ty - 1, fDZ⟩
  else if rem then ⟨patt ty (a - a.tdiv b * b), 0⟩
  else intOut ty sat (a.tdiv b)
/-- The number whose bits below n are given. -/
def bitsNum (n : Nat) (f : Nat → Bool) : Nat := (List.range n).foldl (fun r k => r + if f k then 2 ^ k else 0) 0
/-- The functions of IBIT (R249): POPC, CLZ, CTZ, BREV. -/
def bitOut (ty : BitVec 4) (fn x : Nat) : Res :=
  let w := tyBits ty
  ⟨match fn with
    | 0 => ((List.range w).filter fun k => x.testBit k).length
    | 1 => if x = 0 then w else w - 1 - x.log2
    | 2 => ((List.range w).find? fun k => x.testBit k).getD w
    | _ => bitsNum w fun k => x.testBit (w - 1 - k), 0⟩
/-- The functions of ISHIFT (R250): SHL, SHR, SAR. -/
def shiftOut (ty : BitVec 4) (fn x n : Nat) : Res :=
  let w := tyBits ty
  let sx : Int := if 2 ^ (w - 1) ≤ x then (x : Int) - 2 ^ w else x
  ⟨match fn with
    | 0 => x * 2 ^ n % 2 ^ w
    | 1 => x / 2 ^ n
    | _ => (sx / 2 ^ n % 2 ^ w).toNat, 0⟩
/-- BFX (R252). -/
def bfxOut (ty : BitVec 4) (x y : Nat) : Res :=
  let w := tyBits ty
  let pos := y % 2 ^ (w / 2)
  let len := min w (y / 2 ^ (w / 2))
  let f := (ival ty x / 2 ^ pos % 2 ^ len).toNat
  ⟨if len = 0 then 0 else if tySigned ty ∧ 2 ^ (len - 1) ≤ f then 2 ^ w - 2 ^ len + f else f, 0⟩
/-- BFI (R252). -/
def bfiOut (ty : BitVec 4) (x y z : Nat) : Res :=
  let w := tyBits ty
  let pos := y % 2 ^ (w / 2)
  let len := min w (y / 2 ^ (w / 2))
  ⟨bitsNum w fun k => if pos ≤ k ∧ k < pos + len then x.testBit (k - pos) else z.testBit k, 0⟩
/-- The element that an I form's immediate gives (R84). -/
def immOf (ty : BitVec 4) (imm : BitVec 28) : Nat := if ty = 10 then imm.toNat * 16 else patt ty imm.toInt

/-! ### Elementwise instructions -/

/-- An elementwise instruction: header, element width, destination, source bytes, and the result of an element from the band, the
strand and the elements of the sources in their places. -/
structure Elementwise where
  h : LHdr
  w : Nat
  d : BitVec 8
  srcs : List (BitVec 8)
  res : Band → Nat → (Nat → Nat) → Res

/-- An elementwise instruction of the V form with one, two or three sources. -/
def ew (h : LHdr) (f : VForm) (n : Nat) (g : Band → Nat → Nat → Nat → Res) : Option Elementwise :=
  some ⟨h, tyBits f.ty, f.dst, [f.a, f.b, f.c].take n, fun v _ x => g v (x 0) (x 1) (x 2)⟩
/-- An elementwise instruction of the I form. -/
def ewi (h : LHdr) (f : IForm) (g : Band → Nat → Nat → Res) : Option Elementwise :=
  some ⟨h, tyBits f.ty, f.dst, [f.a], fun v _ x => g v (x 0) (immOf f.ty f.imm)⟩
/-- The IEEE format and the rounding mode of a V form, and FTZ (R29, R30, R255). -/
def fm (f : VForm) : Ieee := (tyF f.ty).ieee
/-- The rounding mode of a V form. -/
def rmd (v : Band) (f : VForm) : RMode := RMode.ofBits (if f.md then v.mode.truncate 2 else f.rm)
/-- FTZ of a band. -/
def ftz (v : Band) : Bool := v.mode.getLsbD 2
/-- The size of an SLI format's index field. -/
def sl (f : VForm) : Nat := sliBits (tyF f.ty)

/-- The elementwise instructions and their results. -/
def elementwise : Instr → Option Elementwise
  | .laneIadd h f => ew h f 2 fun _ x y _ => intOut f.ty f.sat (ival f.ty x + ival f.ty y)
  | .laneIsub h f => ew h f 2 fun _ x y _ => intOut f.ty f.sat (ival f.ty x - ival f.ty y)
  | .laneImul h f => ew h f 2 fun _ x y _ => intOut f.ty f.sat (ival f.ty x * ival f.ty y)
  | .laneImad h f => ew h f 3 fun _ x y z => intOut f.ty f.sat (ival f.ty x * ival f.ty y + ival f.ty z)
  | .laneImulh h f => ew h f 2 fun _ x y _ => intOut f.ty false (ival f.ty x * ival f.ty y / 2 ^ tyBits f.ty)
  | .laneIdiv h f => ew h f 2 fun _ x y _ => divOut f.ty f.sat false x y
  | .laneIrem h f => ew h f 2 fun _ x y _ => divOut f.ty f.sat true x y
  | .laneImin h f => ew h f 2 fun _ x y _ => intOut f.ty false (min (ival f.ty x) (ival f.ty y))
  | .laneImax h f => ew h f 2 fun _ x y _ => intOut f.ty false (max (ival f.ty x) (ival f.ty y))
  | .laneIabs h f => ew h f 1 fun _ x _ _ => intOut f.ty f.sat |ival f.ty x|
  | .laneIneg h f => ew h f 1 fun _ x _ _ => intOut f.ty f.sat (-ival f.ty x)
  | .laneIbit h f => ew h f 1 fun _ x _ _ => bitOut f.ty f.fn.toNat x
  | .laneIshift h f => ew h f 2 fun _ x y _ => shiftOut f.ty f.fn.toNat x y
  | .laneIlogic h f => some ⟨h, 64, f.dst, [f.a, f.b], fun _ _ x =>
      ⟨bitsNum 64 fun k => f.fn.getLsbD (2 * ((x 0).testBit k).toNat + ((x 1).testBit k).toNat), 0⟩⟩
  | .laneBfx h f => ew h f 2 fun _ x y _ => bfxOut f.ty x y
  | .laneBfi h f => ew h f 3 fun _ x y z => bfiOut f.ty x y z
  | .laneIaddImm h f => ewi h f fun _ x y => intOut f.ty false (ival f.ty x + ival f.ty y)
  | .laneIsubImm h f => ewi h f fun _ x y => intOut f.ty false (ival f.ty x - ival f.ty y)
  | .laneImulImm h f => ewi h f fun _ x y => intOut f.ty false (ival f.ty x * ival f.ty y)
  | .laneIminImm h f => ewi h f fun _ x y => intOut f.ty false (min (ival f.ty x) (ival f.ty y))
  | .laneImaxImm h f => ewi h f fun _ x y => intOut f.ty false (max (ival f.ty x) (ival f.ty y))
  | .laneSel h f => some ⟨h, 64, f.dst, [f.a, f.b], fun v st x =>
      ⟨if predAt v ⟨false, f.c.truncate 4, false, false⟩ st then x 0 else x 1, 0⟩⟩
  | .laneMov h f => some ⟨h, 64, f.dst, [f.a], fun _ _ x => ⟨x 0, 0⟩⟩
  | .laneMovi h f => some ⟨h, tyBits f.ty, f.dst, [], fun _ _ _ => ⟨immOf f.ty f.imm, 0⟩⟩
  | .laneFadd h f => ew h f 2 fun v x y _ => (fm f).add (rmd v f) (ftz v) x y
  | .laneFsub h f => ew h f 2 fun v x y _ => (fm f).sub (rmd v f) (ftz v) x y
  | .laneFmul h f => ew h f 2 fun v x y _ => (fm f).mul (rmd v f) (ftz v) x y
  | .laneFfma h f => ew h f 3 fun v x y z => (fm f).fma (rmd v f) (ftz v) x y z
  | .laneFmin h f => ew h f 2 fun v x y _ => fminmaxE (fm f) false (ftz v) x y
  | .laneFmax h f => ew h f 2 fun v x y _ => fminmaxE (fm f) true (ftz v) x y
  | .laneFsf h f => ew h f 1 fun v x _ _ => fsf (fm f) f.fn.toNat (rmd v f) (ftz v) x
  | .laneFaddImm h f => ewi h f fun v x y => (tyF f.ty).ieee.add .rne (ftz v) x y
  | .laneFmulImm h f => ewi h f fun v x y => (tyF f.ty).ieee.mul .rne (ftz v) x y
  | .laneSladd h f => ew h f 2 fun _ x y _ => sliAdd (sl f) x y
  | .laneSlsub h f => ew h f 2 fun _ x y _ => sliSub (sl f) x y
  | .laneSlmul h f => ew h f 2 fun _ x y _ => sliMul (sl f) x y
  | .laneSldiv h f => ew h f 2 fun _ x y _ => sliDiv (sl f) x y
  | .laneCvt h f => ew h f 1 fun v x _ _ => convert (tyF f.ty) (tyF f.xt) (rmd v f) f.sat (ftz v) x
  | _ => none

/-- IDIV and IREM. -/
def divides : Instr → Bool
  | .laneIdiv .. | .laneIrem .. => true
  | _ => false

/-- The words that the results of a strand are computed from, by strand and place. -/
abbrev Words := Nat → Nat → Word

/-- The elements of the sources of a strand from their words. -/
def elemsOf (w : Nat) (x : Nat → Word) (i : Nat) : Nat → Nat := fun pos => elem w (x pos) i

/-- The word of a source in a strand: a `v` register's share, a `b` register in every strand (R81). -/
def srcWord (s : State) (v : Band) (l : List (BitVec 8)) : Words := fun st pos => s.lval v [] pos (l.getD pos 0) 0 st

/-- The sources can be read, as the words `x`, and leave `rest` of the band's results: no source is a `q` register, or one is, bound to
results, and pops the oldest entry, which gives each strand its word (R81, R226). -/
def reads (s : State) (b v : Band) (l : List (BitVec 8)) (x : Words) (rest : List (List Word)) : Prop :=
  ((∀ y ∈ l, ready1 b v y) ∧ x = srcWord s v l ∧ rest = b.resultQ)
  ∨ ∃ j q k top, l[j]? = some q ∧ byteQ q = true ∧ (∀ i y, l[i]? = some y → i ≠ j → ready1 b v y)
      ∧ aget v.q (q.toNat - 240) = some k ∧ aget b.q (q.toNat - 240) = some k ∧ k.kind = 1 ∧ b.resultQ = top :: rest ∧ b.popped = []
      ∧ x = fun st pos => if pos = j then top.getD st 0 else srcWord s v l st pos

/-- The destination can take a result: a `v` register in range that awaits nothing, or a `q` register bound to joint operands, for which
nothing is staged, with room in the staging buffer (R227). -/
def accepts (b v : Band) (d : BitVec 8) : Prop :=
  ready1 b v d
  ∨ byteQ d = true ∧ ∃ k, aget v.q (d.toNat - 240) = some k ∧ aget b.q (d.toNat - 240) = some k ∧ k.kind = 2
      ∧ (∀ p ∈ b.staging, ∀ m, aget b.q p.1 = some m → m.kind ≠ 2) ∧ b.staging.length < 4

/-- No division by zero that would trap: IDIV and IREM with IDZT set meet no zero element in a participating strand (R248). -/
def noTrap (i : Instr) (e : Elementwise) (v : Band) (P : Nat → Prop) (x : Words) : Prop :=
  divides i = true → v.mode.getLsbD 3 = true → ∀ st k, P st → k < 64 / e.w → elem e.w (x st 1) k ≠ 0

/-- The destination has taken the words `y` of the strands `P`: a `v` register holds them, and every other share of a register what it
held; a `q` register has pushed one entry with zero for the other strands, to joint operands or, where these have no room, to the staging buffer. -/
def takesIn (d : BitVec 8) (b b' : Band) (P : Nat → Prop) (y : Nat → Word → Prop) : Prop :=
  (byteQ d = false → b'.q = b.q ∧ b'.mmjQ = b.mmjQ ∧ b'.staging = b.staging
    ∧ (∀ st, P st → ∃ z, b'.vreg d.toNat st = some z ∧ y st z)
    ∧ ∀ k, (∀ st, P st → k ≠ 64 * d.toNat + st) → aget b'.v k = aget b.v k)
  ∧ (byteQ d = true → b'.v = b.v ∧ ((¬ ∃ st, P st) → b'.mmjQ = b.mmjQ ∧ b'.staging = b.staging ∧ b'.q = b.q)
    ∧ ((∃ st, P st) → ∃ entry, entry.length = 64
      ∧ (b.mmjQ.length < 32 → b'.mmjQ = b.mmjQ ++ [entry] ∧ b'.staging = b.staging)
      ∧ (32 ≤ b.mmjQ.length → b'.mmjQ = b.mmjQ ∧ b'.staging = b.staging ++ [(d.toNat - 240, entry)])
      ∧ (∀ st, P st → y st (entry.getD st 0)) ∧ ∀ st < 64, ¬ P st → entry.getD st 0 = 0))

/-- What is neither a `v` register, a flag, a queue, the address nor the state of the band is as it was. -/
def queuesOnly (b b' : Band) (rest : List (List Word)) : Prop :=
  b'.resultQ = rest ∧ regsOnly b { b' with resultQ := b.resultQ, mmjQ := b.mmjQ, staging := b.staging, q := b.q }
  ∧ b'.b = b.b ∧ b'.p = b.p ∧ b'.bp = b.bp

end Sys2Proof.Claims

/-- R213, R222, R226, R227 and the results of R246 to R260 and R231: elementwise instructions write every participating strand. -/
def Sys2Proof.Claims.LaneElementwiseVector : Prop :=
  ∀ i e, elementwise i = some e → i.wf = true → e.h.u = false → ∀ s c n b v x rest, laneOn s c n b v →
    reads s b v e.srcs x rest → accepts b v e.d → ((∃ st, takes v e.h st) ∨ rest = b.resultQ) → noTrap i e v (takes v e.h) x →
    ∃ t b', exec i s = .next t ∧ onlyBand s t c n b' ∧ movedOn b b' ∧ queuesOnly b b' rest
      ∧ takesIn e.d b b' (takes v e.h) (fun st z => wordOf e.w z fun i => e.res v st (elemsOf e.w (x st) i))
      ∧ flagsOf b b' (takes v e.h) (64 / e.w) (fun st i => e.res v st (elemsOf e.w (x st) i))

/-- R79, R222: a uniform instruction computes once, on `b` registers, where its band predicate holds; else it only goes on. -/
def Sys2Proof.Claims.LaneElementwiseUniform : Prop :=
  ∀ i e, elementwise i = some e → i.wf = true → e.h.u = true → ∀ s c n b v, laneOn s c n b v →
    noTrap i e v (fun st => st = 0 ∧ predAt v e.h 0 = true) (srcWord s v e.srcs) →
    ∃ t b', exec i s = .next t ∧ onlyBand s t c n b' ∧ movedOn b b' ∧ regsOnly b b' ∧ b'.v = b.v ∧ b'.p = b.p ∧ b'.bp = b.bp
      ∧ (predAt v e.h 0 = true → wordOf e.w (b'.breg (e.d.toNat - 128)) fun i => e.res v 0 (elemsOf e.w (srcWord s v e.srcs 0) i))
      ∧ (∀ r, r ≠ e.d.toNat - 128 ∨ predAt v e.h 0 = false → b'.breg r = b.breg r)
      ∧ flagsOf b b' (fun st => st = 0 ∧ predAt v e.h 0 = true) (64 / e.w)
          (fun st i => e.res v st (elemsOf e.w (srcWord s v e.srcs st) i))

/-- R248: IDIV and IREM with IDZT set and a zero divisor write nothing and raise INT_DIV_ZERO for the strands that have one. -/
def Sys2Proof.Claims.LaneDivisionTrap : Prop :=
  ∀ i e, elementwise i = some e → divides i = true → i.wf = true → ∀ s c n b v, laneOn s c n b v → v.mode.getLsbD 3 = true →
    (e.h.u = false → ∀ x rest, reads s b v e.srcs x rest → accepts b v e.d →
      (∃ st k, takes v e.h st ∧ k < 64 / e.w ∧ elem e.w (x st 1) k = 0) →
      ∃ mask : Word, exec i s = .next (s.bandFault c n .intDivZero mask 0 0)
        ∧ ∀ st < 64, mask.getLsbD st = true ↔ takes v e.h st ∧ ∃ k < 64 / e.w, elem e.w (x st 1) k = 0)
    ∧ (e.h.u = true → predAt v e.h 0 = true → (∃ k < 64 / e.w, elem e.w (srcWord s v e.srcs 0 1) k = 0) →
      exec i s = .next (s.bandFault c n .intDivZero v.live 0 0))

/-- R81, R91, R220, R226, R227: what keeps an elementwise instruction from its effect, in order: REG_RANGE, QUEUE_UNBOUND, a register
that awaits a load, QUEUE_DIR, an empty queue, a full one. -/
def Sys2Proof.Claims.LaneElementwiseStops : Prop :=
  ∀ i e, elementwise i = some e → i.wf = true → e.h.u = false → ∀ s c n b v, laneOn s c n b v →
    let m := v.part1 e.h
    let all := e.d :: e.srcs
    let waits := exec i s = .next (s.onBand c n fun b => { b with st := .waiting })
    let inRange := ∀ x ∈ all, byteV x = true → x.toNat < v.vregs
    let bound := ∀ x ∈ all, byteQ x = true → (aget v.q (x.toNat - 240)).isSome = true
    let free := ∀ x ∈ all, byteV x = true → b.pending x.toNat = false
    (¬ inRange → exec i s = .next (s.bandFault c n .regRange m 0 0))
    ∧ (inRange → ¬ bound → exec i s = .next (s.bandFault c n .queueUnbound m 0 0))
    ∧ (inRange → bound → ¬ free → waits)
    ∧ (inRange → bound → free → m ≠ 0 →
        (∀ q k, q ∈ e.srcs → byteQ q = true → aget v.q (q.toNat - 240) = some k → k.kind ≠ 1 → k.kind ≠ 4 →
          exec i s = .next (s.bandFault c n .queueDir m 0 0))
        ∧ (∀ k, byteQ e.d = true → aget v.q (e.d.toNat - 240) = some k → (k.kind = 1 ∨ k.kind = 4) →
          exec i s = .next (s.bandFault c n .queueDir m 0 0))
        ∧ (∀ q k, e.srcs = [q] → byteQ q = true → byteQ e.d = false → aget v.q (q.toNat - 240) = some k →
          aget b.q (q.toNat - 240) = some k → k.kind = 1 → b.resultQ = [] → b.popped = [] → waits)
        ∧ (∀ k, byteQ e.d = true → (∀ x ∈ e.srcs, byteQ x = false) → aget v.q (e.d.toNat - 240) = some k →
          aget b.q (e.d.toNat - 240) = some k → k.kind = 2 → 4 ≤ b.staging.length → waits))

/-- R79, R213, R222, R226, R227, R231, R246, R247, R248, R249, R250, R251, R252, R253, R254, R255, R256, R257, R258, R259, R260: the elementwise operations in vector and uniform form. -/
def Obligations.LaneElementwise : Prop :=
  Sys2Proof.Claims.LaneElementwiseVector ∧ Sys2Proof.Claims.LaneElementwiseUniform

/-- R81, R91, R220, R226, R227, R248: where the elementwise operations trap or report a register out of range. -/
def Obligations.LaneElementwiseTraps : Prop :=
  Sys2Proof.Claims.LaneDivisionTrap ∧ Sys2Proof.Claims.LaneElementwiseStops

namespace Sys2Proof.Claims

/-! ### Words for comparisons, register groups and control -/

/-- A comparison: header, width, element, destination predicate byte, sources, truth and flags. -/
structure Comparison where
  h : LHdr
  w : Nat
  k : Nat
  d : BitVec 8
  x : BitVec 8
  y : BitVec 8
  res : Band → Nat → Nat → Bool × Flags

/-- The conditions of ICMP by code (R253): EQ, NE, LT, LE, GT, GE. -/
def icmpTrue (cc : Nat) (x y : Int) : Bool :=
  match cc with
  | 0 => x == y
  | 1 => x != y
  | 2 => x < y
  | 3 => x < y || x == y
  | 4 => y < x
  | _ => y < x || x == y

/-- The comparisons (R253, R258, R261). -/
def comparison : Instr → Option Comparison
  | .laneIcmp h f => some ⟨h, tyBits f.ty, f.xt.toNat, f.dst, f.a, f.b, fun _ x y =>
      (icmpTrue f.fn.toNat (ival f.ty x) (ival f.ty y), 0)⟩
  | .laneFcmp h f => some ⟨h, tyBits f.ty, f.xt.toNat, f.dst, f.a, f.b, fun v x y => fcmpE (fm f) (ftz v) f.fn.toNat x y⟩
  | .laneSlcmp h f => some ⟨h, tyBits f.ty, f.xt.toNat, f.dst, f.a, f.b, fun _ x y => slcmpE (sl f) f.fn.toNat x y⟩
  | _ => none

/-- A strand predicate's bit. -/
def pbit (b : Band) (n st : Nat) : Bool := ((b.p[n]?).getD 0).getLsbD st

/-- A conversion between register groups: header, V form, and the result of an element. -/
structure Grouped where
  h : LHdr
  f : VForm
  res : Band → Nat → Res

/-- The instructions that narrow a group into one register (R54, R264, R265). -/
def narrows : Instr → Option Grouped
  | .laneCvtn h f => some ⟨h, f, fun v x => convert (tyF f.ty) (tyF f.xt) (rmd v f) f.sat (ftz v) x⟩
  | .lanePack h f => some ⟨h, f, fun _ x => intOut f.ty f.sat (ival f.xt x)⟩
  | _ => none
/-- The instructions that widen one register into a group (R54, R264, R265). -/
def widens : Instr → Option Grouped
  | .laneCvtw h f => some ⟨h, f, fun v x => convert (tyF f.ty) (tyF f.xt) (rmd v f) f.sat (ftz v) x⟩
  | .laneUnpk h f => some ⟨h, f, fun _ x => intOut f.ty false (ival f.xt x)⟩
  | _ => none

/-- A group of `r` `v` registers that lies in the band's registers and awaits nothing. -/
def readyN (b v : Band) (x : BitVec 8) (r : Nat) : Prop :=
  byteV x = true ∧ x.toNat + r ≤ v.vregs ∧ ∀ k < r, b.pending (x.toNat + k) = false

/-- A destination that is not the strands' own is written (R222): some strand participates, or the predicate is `p7` or a band
predicate that holds. -/
def once (v : Band) (h : LHdr) : Prop := (∃ st, takes v h st) ∨ (7 ≤ h.pred.toNat ∧ predAt v h 0 = true)

/-- The band at its next instruction. -/
def goes (b : Band) : Band :=
  { b with pc := b.pc + 8, unfinished := none, st := if b.st = .issuing ∨ b.st = .waiting then .ready else b.st }
/-- The band at a target: no instruction of it issues for two cycles (R220). -/
def lands (t : Word) (cycle : Nat) (b : Band) : Band := { goes b with pc := t, readyAt := cycle + 2 }

/-- The participating strands as a mask. -/
def taking (v : Band) (h : LHdr) (m : Word) : Prop := ∀ st < 64, m.getLsbD st = true ↔ takes v h st

/-- The band after it has taken an entry off its divergence stack (R224). -/
def taken (b : Band) (rest : List DivEntry) (e : DivEntry) : Band :=
  let live := e.mask &&& ~~~b.exited &&& ~~~b.dead
  { b with stack := rest, pc := e.pc &&& ~~~7#64, live := live, unfinished := none }

/-- A node of BRED's tree over absent and present values (R235). -/
def bredTree (op : Nat → Nat → Res) (leaf : Nat → Option Nat) : Nat → Nat → Option Res
  | 0, k => (leaf k).map fun x => ⟨x, 0⟩
  | l + 1, k =>
    match bredTree op leaf l (2 * k), bredTree op leaf l (2 * k + 1) with
    | none, y => y
    | x, none => x
    | some x, some y => some ⟨(op x.bits y.bits).bits, x.flags ||| y.flags ||| (op x.bits y.bits).flags⟩

end Sys2Proof.Claims

/-- R253, R258, R261: comparisons write a strand predicate in the participating strands, or under `U` a band predicate. -/
def Obligations.LaneComparisons : Prop :=
  ∀ i e, comparison i = some e → i.wf = true → ∀ s c n b v, laneOn s c n b v →
    (e.h.u = false → ∀ x rest, reads s b v [e.x, e.y] x rest → ((∃ st, takes v e.h st) ∨ rest = b.resultQ) →
      let r := fun st => e.res v (elem e.w (x st 0) e.k) (elem e.w (x st 1) e.k)
      ∃ t b', exec i s = .next t ∧ onlyBand s t c n b' ∧ movedOn b b' ∧ regsOnly b { b' with resultQ := b.resultQ }
        ∧ b'.resultQ = rest ∧ b'.v = b.v ∧ b'.b = b.b ∧ b'.bp = b.bp
        ∧ (∀ st, takes v e.h st → pbit b' e.d.toNat st = (r st).1)
        ∧ (∀ k < 7, ∀ st < 64, k ≠ e.d.toNat ∨ ¬ takes v e.h st → pbit b' k st = pbit b k st)
        ∧ flagsOf b b' (takes v e.h) 1 (fun st _ => ⟨0, (r st).2⟩))
    ∧ (e.h.u = true →
      let r := e.res v (elem e.w (v.breg (e.x.toNat - 128)) e.k) (elem e.w (v.breg (e.y.toNat - 128)) e.k)
      ∃ t b', exec i s = .next t ∧ onlyBand s t c n b' ∧ movedOn b b' ∧ regsOnly b b' ∧ b'.v = b.v ∧ b'.b = b.b ∧ b'.p = b.p
        ∧ (predAt v e.h 0 = true → b'.bp.getLsbD (e.d.toNat - 8) = r.1)
        ∧ (∀ k < 7, k ≠ e.d.toNat - 8 ∨ predAt v e.h 0 = false → b'.bp.getLsbD k = b.bp.getLsbD k)
        ∧ flagsOf b b' (fun _ => predAt v e.h 0 = true) 1 (fun _ _ => ⟨0, r.2⟩))

/-- R54, R55, R264, R265: narrowing puts element i·r + q of the group's register q into element i; widening puts element i into register
i mod r of the group, at i div r. -/
def Obligations.LaneRegisterGroups : Prop :=
  ∀ i e, i.wf = true → ∀ s c n b v, laneOn s c n b v →
    (narrows i = some e →
      let r := tyBits e.f.xt / tyBits e.f.ty
      let res := fun st j => e.res v (elem (tyBits e.f.xt) (s.vval v 0 (e.f.a.toNat + j % r) st) (j / r))
      readyN b v e.f.a r → accepts b v e.f.dst →
      ∃ t b', exec i s = .next t ∧ onlyBand s t c n b' ∧ movedOn b b' ∧ queuesOnly b b' b.resultQ
        ∧ takesIn e.f.dst b b' (takes v e.h) (fun st z => wordOf (tyBits e.f.ty) z (res st))
        ∧ flagsOf b b' (takes v e.h) (64 / tyBits e.f.ty) res)
    ∧ (widens i = some e → ∀ x rest,
      let r := tyBits e.f.ty / tyBits e.f.xt
      let res := fun st j => e.res v (elem (tyBits e.f.xt) (x st 0) j)
      readyN b v e.f.dst r → reads s b v [e.f.a] x rest → ((∃ st, takes v e.h st) ∨ rest = b.resultQ) →
      ∃ t b', exec i s = .next t ∧ onlyBand s t c n b' ∧ movedOn b b' ∧ queuesOnly b b' rest ∧ b'.q = b.q ∧ b'.mmjQ = b.mmjQ
        ∧ b'.staging = b.staging
        ∧ (∀ st, takes v e.h st → ∀ q < r, ∃ z, b'.vreg (e.f.dst.toNat + q) st = some z
            ∧ wordOf (tyBits e.f.ty) z fun p => res st (p * r + q))
        ∧ (∀ k, (∀ st q, takes v e.h st → q < r → k ≠ 64 * (e.f.dst.toNat + q) + st) → aget b'.v k = aget b.v k)
        ∧ flagsOf b b' (takes v e.h) (64 / tyBits e.f.xt) res)

/-- R225, R232, R233: B2V, V2B and SHFL move words between strands and `b` registers; a dead strand reads as zero with DRD. -/
def Obligations.LaneStrandMoves : Prop :=
  ∀ h f s c n b v, laneOn s c n b v →
    let ib := (v.breg (f.b.toNat - 128)).toNat % 64
    ((Instr.laneB2v h f).wf = true → ready1 b v f.dst →
      (takes v h ib → exec (.laneB2v h f) s =
        .next (s.onBand c n fun b => goes (b.setV f.dst.toNat ib (v.breg (f.a.toNat - 128)))))
      ∧ (¬ takes v h ib → exec (.laneB2v h f) s = .next (s.onBand c n goes)))
    ∧ ((Instr.laneV2b h f).wf = true → ready1 b v f.a →
      (f.fn = 0 → once v h →
        (v.dead.getLsbD ib = false → exec (.laneV2b h f) s =
          .next (s.onBand c n fun b => goes (b.setB (f.dst.toNat - 128) (s.vval v 0 f.a.toNat ib))))
        ∧ (v.dead.getLsbD ib = true → exec (.laneV2b h f) s =
          .next (s.onBand c n fun b => goes { b.setB (f.dst.toNat - 128) 0 with flag := b.flag ||| 0x200 })))
      ∧ (f.fn = 1 → ∀ lo, takes v h lo → (∀ st, takes v h st → lo ≤ st) → exec (.laneV2b h f) s =
          .next (s.onBand c n fun b => goes (b.setB (f.dst.toNat - 128) (s.vval v 0 f.a.toNat lo))))
      ∧ ((f.fn = 1 ∧ ∀ st, ¬ takes v h st) ∨ (f.fn = 0 ∧ ¬ once v h) → exec (.laneV2b h f) s = .next (s.onBand c n goes)))
    ∧ ((Instr.laneShfl h f).wf = true → ready1 b v f.dst → ready1 b v f.a → ready1 b v f.b →
      let d := fun st => (s.lval v [] 1 f.b 0 st).toNat % 64
      let src : Nat → Int := fun st =>
        if f.fn = 0 then d st else if f.fn = 1 then (st : Int) - d st else if f.fn = 2 then (st : Int) + d st else (st ^^^ d st : Nat)
      let dead := fun st => 0 ≤ src st ∧ src st ≤ 63 ∧ v.dead.getLsbD (src st).toNat = true
      ∃ t b', exec (.laneShfl h f) s = .next t ∧ onlyBand s t c n b' ∧ movedOn b b' ∧ regsOnly b b' ∧ b'.b = b.b ∧ b'.p = b.p
        ∧ b'.bp = b.bp
        ∧ (∀ st, takes v h st → b'.vreg f.dst.toNat st = some (
            if src st < 0 ∨ 63 < src st then s.vval v 0 f.a.toNat st
            else if v.dead.getLsbD (src st).toNat then 0 else s.vval v 0 f.a.toNat (src st).toNat))
        ∧ (∀ k, (∀ st, takes v h st → k ≠ 64 * f.dst.toNat + st) → aget b'.v k = aget b.v k)
        ∧ ((∃ st, takes v h st ∧ dead st) → b'.flag = b.flag ||| 0x200)
        ∧ ((¬ ∃ st, takes v h st ∧ dead st) → b'.flag = b.flag))

/-- R234, R235: VOTE over the participating strands, and BRED over a fixed tree of the 64 strands. -/
def Obligations.LaneReductions : Prop :=
  ∀ h f s c n b v, laneOn s c n b v →
    ((Instr.laneVote h f).wf = true → (f.fn = 3 → ready1 b v f.dst) →
      let x := fun st => predAt v ⟨false, f.a.truncate 4, false, false⟩ st
      ∃ t b', exec (.laneVote h f) s = .next t ∧ onlyBand s t c n b' ∧ movedOn b b' ∧ regsOnly b b' ∧ b'.b = b.b ∧ b'.flag = b.flag
        ∧ (f.fn = 3 → b'.p = b.p ∧ b'.bp = b.bp
          ∧ (∀ st, takes v h st → ∃ z, b'.vreg f.dst.toNat st = some z ∧ ∀ k < 64, z.getLsbD k = true ↔ takes v h k ∧ x k = true)
          ∧ ∀ k, (∀ st, takes v h st → k ≠ 64 * f.dst.toNat + st) → aget b'.v k = aget b.v k)
        ∧ (f.fn ≠ 3 → b'.v = b.v ∧
          let r : Prop := (f.fn = 0 ∧ ∀ st, takes v h st → x st = true) ∨ (f.fn = 1 ∧ ∃ st, takes v h st ∧ x st = true)
            ∨ (f.fn = 2 ∧ ∀ st st', takes v h st → takes v h st' → x st = x st')
          (f.dst.toNat < 8 → b'.bp = b.bp ∧ ∀ k < 7, ∀ st < 64,
            (k = f.dst.toNat → takes v h st → (pbit b' k st = true ↔ r))
            ∧ (k ≠ f.dst.toNat ∨ ¬ takes v h st → pbit b' k st = pbit b k st))
          ∧ (8 ≤ f.dst.toNat → b'.p = b.p ∧ ∀ k < 7,
            (k = f.dst.toNat - 8 → once v h → (b'.bp.getLsbD k = true ↔ r))
            ∧ (k ≠ f.dst.toNat - 8 ∨ ¬ once v h → b'.bp.getLsbD k = b.bp.getLsbD k))))
    ∧ ((Instr.laneBred h f).wf = true → ∀ x rest, reads s b v [f.a] x rest → ((∃ st, takes v h st) ∨ rest = b.resultQ) → accepts b v f.dst →
      let w := tyBits f.ty
      let two := fun p q =>
        if f.fn = 0 then (if tyF f.ty = .fp16 ∨ tyF f.ty = .bf16 ∨ tyF f.ty = .fp32 then (fm f).add (rmd v f) (ftz v) p q
          else intOut f.ty false (ival f.ty p + ival f.ty q))
        else if f.fn = 1 then (if tyF f.ty = .fp16 ∨ tyF f.ty = .bf16 ∨ tyF f.ty = .fp32 then fminmaxE (fm f) false (ftz v) p q
          else intOut f.ty false (min (ival f.ty p) (ival f.ty q)))
        else if f.fn = 2 then (if tyF f.ty = .fp16 ∨ tyF f.ty = .bf16 ∨ tyF f.ty = .fp32 then fminmaxE (fm f) true (ftz v) p q
          else intOut f.ty false (max (ival f.ty p) (ival f.ty q)))
        else if f.fn = 3 then ⟨p &&& q, 0⟩ else if f.fn = 4 then ⟨p ||| q, 0⟩ else ⟨p ^^^ q, 0⟩
      ∀ m : Word, taking v h m →
      let res := fun i => (bredTree two (fun st => if m.getLsbD st then some (elem w (x st 0) i) else none) 6 0).getD ⟨0, 0⟩
      ∃ t b', exec (.laneBred h f) s = .next t ∧ onlyBand s t c n b' ∧ movedOn b b' ∧ queuesOnly b b' rest
        ∧ takesIn f.dst b b' (takes v h) (fun _ z => wordOf w z res)
        ∧ flagsOf b b' (fun st => st = 0) (64 / w) (fun _ i => res i))

/-- R223, R230: the branches, JOIN and EXIT: all LIVE strands, none, or some with an entry on the divergence stack. -/
def Sys2Proof.Claims.LaneBranches : Prop :=
  ∀ h off f s c n b v (m : Word), laneOn s c n b v → taking v h m → v.live ≠ 0 →
    let tgt := v.pc + 8 * off.signExtend 64
    let branch := fun (i : Instr) (t : Word) =>
      (m = 0 → exec i s = .next (s.onBand c n goes))
      ∧ (m ≠ 0 → t.toNat % 8 ≠ 0 → exec i s = .next (s.bandFault c n .fetchAlign m 0 0))
      ∧ (m = v.live → t.toNat % 8 = 0 → exec i s = .next (s.onBand c n (lands t s.cycle)))
      ∧ (m ≠ 0 → m ≠ v.live → t.toNat % 8 = 0 → b.stack.length < 32 →
          exec i s = .next (s.onBand c n fun b => goes { b with stack := b.stack ++ [⟨t, false, m⟩], live := b.live &&& ~~~m }))
      ∧ (m ≠ 0 → m ≠ v.live → t.toNat % 8 = 0 → 32 ≤ b.stack.length → exec i s = .next (s.bandFault c n .divOverflow m 0 0))
    let uniform := fun (i : Instr) (t : Word) (link : Band → Band) =>
      (m = 0 → exec i s = .next (s.onBand c n goes))
      ∧ (m ≠ 0 → m ≠ v.live → exec i s = .next (s.bandFault c n .callDiverge m 0 0))
      ∧ (m = v.live → t.toNat % 8 ≠ 0 → exec i s = .next (s.bandFault c n .fetchAlign m 0 0))
      ∧ (m = v.live → t.toNat % 8 = 0 → exec i s = .next (s.onBand c n fun b => lands t s.cycle (link b)))
    branch (.laneBra h off) tgt
    ∧ uniform (.laneCall h off) tgt (fun b => b.setB 111 (v.pc + 8))
    ∧ uniform (.laneRet h f) (v.breg (f.a.toNat - 128)) id
    ∧ (ready1 b v f.a →
        (∀ t, (∃ st, takes v h st) → (∀ st, takes v h st → s.lval v [] 0 f.a 0 st = t) → branch (.laneBrx h f) t)
        ∧ (∀ st st', takes v h st → takes v h st' → s.lval v [] 0 f.a 0 st ≠ s.lval v [] 0 f.a 0 st' →
            exec (.laneBrx h f) s = .next (s.bandFault c n .brxDiverge m 0 0))
        ∧ (m = 0 → exec (.laneBrx h f) s = .next (s.onBand c n goes)))
    ∧ (predAt v h 0 = true → 7 ≤ h.pred.toNat → b.stack.length < 32 → exec (.laneJoin h off) s =
        .next (s.onBand c n fun b => goes { b with stack := b.stack ++ [⟨tgt, true, v.live⟩] }))
    ∧ (predAt v h 0 = false → 7 ≤ h.pred.toNat → exec (.laneJoin h off) s = .next (s.onBand c n goes))
    ∧ (predAt v h 0 = true → 7 ≤ h.pred.toNat → 32 ≤ b.stack.length →
        exec (.laneJoin h off) s = .next (s.bandFault c n .divOverflow m 0 0))
    ∧ ((Instr.laneExit h f).wf = true → exec (.laneExit h f) s = .next (s.onBand c n fun b => goes { b with live := b.live &&& ~~~m, exited := b.exited ||| m }))

/-- R224: before an instruction is fetched a band whose strands have all exited, or that has come to its join, takes an entry. -/
def Sys2Proof.Claims.BandReconverges : Prop :=
  ∀ (b : Band), b.stack.length ≤ 32 →
    (b.live = 0 → b.stack = [] → b.reconverge 34 = { b with st := .done, unfinished := none })
    ∧ (b.live ≠ 0 → (∀ e ∈ b.stack, e.join = true → (∀ k l, b.stack = k ++ e :: l → ∀ d ∈ l, d.join = false) →
        b.pc ≠ e.pc &&& ~~~7#64) → b.reconverge 34 = b)
    ∧ ∀ rest e, b.stack = rest ++ [e] →
        (b.live = 0 ∨ ∃ k j l, b.stack = k ++ j :: l ∧ j.join = true ∧ (∀ d ∈ l, d.join = false) ∧ b.pc = j.pc &&& ~~~7#64) →
        b.reconverge 34 = (taken b rest e).reconverge 34

/-- R230, R241: NOP, YIELD, WAIT, CHKT and FLGR. -/
def Obligations.LaneWaitsAndChecks : Prop :=
  ∀ h f s c n b v (m : Word), laneOn s c n b v → taking v h m →
    ((Instr.laneNop h f).wf = true → exec (.laneNop h f) s = .next (s.onBand c n goes))
    ∧ ((Instr.laneYield h f).wf = true →
        (m ≠ 0 → exec (.laneYield h f) s = .next (s.onBand c n fun b => goes { b with readySince := s.cycle + 1 }))
        ∧ (m = 0 → exec (.laneYield h f) s = .next (s.onBand c n goes)))
    ∧ (let hold := (f.fn.getLsbD 0 = true ∧ v.tileCtr ≠ 0) ∨ (f.fn.getLsbD 1 = true ∧ ∃ a ∈ v.acc, a.tile = false)
          ∨ (f.fn.getLsbD 2 = true ∧ v.staging ≠ [])
       (m ≠ 0 → hold → exec (.laneWait h f) s = .next (s.onBand c n fun b => { b with st := .waiting }))
       ∧ (m = 0 ∨ ¬ hold → exec (.laneWait h f) s = .next (s.onBand c n goes)))
    ∧ ((Instr.laneChkt h f).wf = true → ready1 b v f.a → ready1 b v f.b →
        ((∀ st, takes v h st → s.lval v [] 0 f.a 0 st = s.lval v [] 1 f.b 0 st) → exec (.laneChkt h f) s = .next (s.onBand c n goes))
        ∧ ∀ bad : Word, bad ≠ 0 → (∀ st < 64, bad.getLsbD st = true ↔ takes v h st ∧ s.lval v [] 0 f.a 0 st ≠ s.lval v [] 1 f.b 0 st) →
          exec (.laneChkt h f) s = .next (s.bandFault c n .chkMismatch bad 0 0))
    ∧ ((Instr.laneFlgr h f).wf = true → ready1 b v f.dst →
        let clear := fun (b : Band) => if f.fn = 1 then { b with flag := 0 } else b
        (byteV f.dst = false → once v h →
          exec (.laneFlgr h f) s = .next (s.onBand c n fun b => goes (clear (b.setB (f.dst.toNat - 128) v.flag))))
        ∧ (byteV f.dst = false → ¬ once v h → exec (.laneFlgr h f) s = .next (s.onBand c n goes))
        ∧ (byteV f.dst = true → m ≠ 0 → ∃ t b', exec (.laneFlgr h f) s = .next t ∧ onlyBand s t c n b' ∧ movedOn b b'
          ∧ regsOnly b b' ∧ b'.b = b.b ∧ b'.p = b.p ∧ b'.bp = b.bp ∧ (f.fn = 1 → b'.flag = 0) ∧ (f.fn = 0 → b'.flag = b.flag)
          ∧ (∀ st, takes v h st → b'.vreg f.dst.toNat st = some v.flag)
          ∧ ∀ k, (∀ st, takes v h st → k ≠ 64 * f.dst.toNat + st) → aget b'.v k = aget b.v k))

/-- R223, R224, R230: the branches of a band and its reconvergence. -/
def Obligations.LaneControlFlow : Prop :=
  Sys2Proof.Claims.LaneBranches ∧ Sys2Proof.Claims.BandReconverges

namespace Sys2Proof.Claims

/-! ### Words for lane memory -/

/-- As `onlyBand`, but identifiers have been given out. -/
def onlyBandId (s t : State) (c n : Nat) (b' : Band) : Prop := onlyBand { s with nextId := t.nextId } t c n b'

/-- What a tensor instruction asks for: header, base byte, offset, whether it is a block (8 bytes on per strand), bytes and alignment,
kind of access; what the access does; the registers named; the operands of a strand. -/
structure Reach where
  h : LHdr
  a : BitVec 8
  off : BitVec 20
  block : Bool
  n : Nat
  align : Nat
  k : AKind
  kind : AccKind
  dst : BitVec 8
  sx : Bool
  op : Nat
  ty : BitVec 4
  scope : Nat
  regs : List (BitVec 8 × Nat)
  data : State → Band → Nat → Word × Word

/-- The bytes of a plain access (R287) and of an atomic (R289). -/
def plainBytes (f : MForm) : Nat := if f.opx.toNat % 4 = 0 then 1 else if f.opx.toNat % 4 = 1 then 2 else if f.opx.toNat % 4 = 2 then 4 else 8
/-- The bytes of an atomic (R289). -/
def atomicBytes (f : MForm) : Nat := if f.opx.getLsbD 3 then 8 else 4

/-- The tensor instructions (R287 to R289). -/
def reach : Instr → Option Reach
  | .laneLd h f => some ⟨h, f.a, f.off, false, plainBytes f, 1, .read, .load, f.dst, f.opx.getLsbD 2, 0, 0, 0,
      [(f.a, 1), (f.dst, 1)], fun _ _ _ => (0, 0)⟩
  | .laneSt h f => some ⟨h, f.a, f.off, false, plainBytes f, 1, .write, .store, 0, false, 0, 0, 0,
      [(f.a, 1), (f.dst, 1)], fun s v st => (s.lval v [] 1 f.dst 0 st, 0)⟩
  | .laneLdb h f => some ⟨h, f.a, f.off, true, 8, 8, .read, .load, f.dst, false, 0, 0, 0,
      [(f.dst, 1)], fun _ _ _ => (0, 0)⟩
  | .laneStb h f => some ⟨h, f.a, f.off, true, 8, 8, .write, .store, 0, false, 0, 0, 0,
      [(f.dst, 1)], fun s v st => (s.lval v [] 1 f.dst 0 st, 0)⟩
  | .laneAtom h f => some ⟨h, f.a, f.off, false, atomicBytes f, atomicBytes f, .atomic, .atom, f.dst, false, f.opx.toNat, f.ty,
      f.scope.toNat, [(f.a, 1), (f.dst, if f.opx.toNat % 8 = 7 then 2 else 1)],
      fun s v st => (s.lval v [] 1 f.dst 0 st, if f.opx.toNat % 8 = 7 then s.lval v [] 1 f.dst 1 st else 0)⟩
  | .laneRed h f => some ⟨h, f.a, f.off, false, atomicBytes f, atomicBytes f, .atomic, .red, 0, false, f.opx.toNat, f.ty,
      f.scope.toNat, [(f.a, 1), (f.dst, 1)], fun s v st => (s.lval v [] 1 f.dst 0 st, 0)⟩
  | _ => none

/-- Registers in range that await nothing. -/
def readyRegs (b v : Band) (l : List (BitVec 8 × Nat)) : Prop :=
  ∀ r ∈ l, byteV r.1 = true → r.1.toNat + r.2 ≤ v.vregs ∧ ∀ k < r.2, b.pending (r.1.toNat + k) = false

/-- The access of a strand (R275). -/
def strandOf (s : State) (c : Nat) (v : Band) (r : Reach) (st : Nat) : StrandAcc :=
  s.strandAcc c v.slot (s.lval v [] 0 r.a 0 st) (r.off.toInt + if r.block then 8 * (st : Int) else 0) r.n r.align r.k

/-- No trace of memory is taken and no watchpoint is set on the core. -/
def unwatched (s : State) (c : Nat) : Prop := (s.core c).watch.memt = false ∧ (s.core c).watch.wps = []

/-- The core's layout unit has written through its copy of the page of a line before, so that `D` is set (R271). -/
def dirtyCopy (s : State) (c x : Nat) (r : BitVec 512) (line : Nat) : Prop :=
  let a := BitVec.ofNat 64 (128 * line)
  ∃ t, ((s.core c).tlb.find? fun t => t.ctx = x && t.tensor = tensorOf a && t.page = offsetOf a / tlrPage r) = some t ∧ t.dSet = true

/-- Every part of a strand's access lies at a local home and, to be written, in a page that this core has written. -/
def atHome (s : State) (c : Nat) (v : Band) (r : Reach) (acc : BitVec 512 × List (Nat × Nat × Word × TOut)) : Prop :=
  acc.2 ≠ [] ∧ ∀ p ∈ acc.2, (∃ h a, p.2.2.2 = .ok (.home h a)) ∧
    (r.k = .read ∨ (dirtyCopy s c v.slot acc.1 (p.2.2.1.toNat / 128) ∧ dirtyCopy s c v.slot acc.1 ((p.2.2.1.toNat + p.2.1 - 1) / 128)))

/-- The parts of n bytes, no more than a line, at byte `a` of a home that lie in one 128-byte line: first byte and length (R284). -/
def inLines (a n : Nat) : List (Nat × Nat) :=
  if a % 128 + n ≤ 128 then [(0, n)] else [(0, 128 - a % 128), (128 - a % 128, n - (128 - a % 128))]

/-- A value of `n` bytes in 64 bits, with its sign or zeros above. -/
def extended (signed : Bool) (n x : Nat) : Word :=
  if signed ∧ 2 ^ (8 * n - 1) ≤ x then BitVec.ofInt 64 ((x : Int) - 2 ^ (8 * n)) else BitVec.ofNat 64 x

/-- What an atomic of `n` bytes leaves in a word `x` (R289): ADD, MIN, MAX, AND, OR, XOR, EXCH, CAS. -/
def atomicOut (op : Nat) (ty : BitVec 4) (n x opd new : Nat) : Nat :=
  let w := 8 * n
  let sv : Nat → Int := fun y => if ty = 6 ∧ 2 ^ (w - 1) ≤ y then (y : Int) - 2 ^ w else y
  match op % 8 with
  | 0 => if ty = 10 then
        let r := (ieee32.add .rne false x opd).bits
        if (ieee32.val r).isNan then 0x7FC00000 else r
      else (x + opd) % 2 ^ w
  | 1 => if ty = 10 then (fminmaxE ieee32 false false x opd).bits else if sv opd < sv x then opd else x
  | 2 => if ty = 10 then (fminmaxE ieee32 true false x opd).bits else if sv x < sv opd then opd else x
  | 3 => x &&& opd
  | 4 => x ||| opd
  | 5 => x ^^^ opd
  | 6 => opd
  | _ => if x = opd then new else x

end Sys2Proof.Claims

/-- R278, R284, R287 to R289: LD, ST, LDB, STB, ATOM and RED whose strands all reach local homes issue their accesses, cut at lines, and go on.
While the core has 2,048 line requests outstanding they wait. -/
def Obligations.LaneAccessesIssue : Prop :=
  ∀ i r, reach i = some r → i.wf = true → ∀ s c n b v (m : Word), laneOn s c n b v → readyRegs b v r.regs → taking v r.h m →
    (m = 0 → exec i s = .next (s.onBand c n goes))
    ∧ (m ≠ 0 → (s.core c).linesFull = true → exec i s = .next (s.onBand c n fun b => { b with st := .waiting }))
    ∧ ∀ acc : Nat → BitVec 512 × List (Nat × Nat × Word × TOut), m ≠ 0 → (s.core c).linesFull = false → unwatched s c →
      (∀ st, takes v r.h st → strandOf s c v r st = .ok (acc st) ∧ atHome s c v r (acc st)) →
      ∃ t a, exec i s = .next t
        ∧ { t with cores := s.cores, nextId := s.nextId } = s ∧ (∀ e, e ≠ c → t.core e = s.core e)
        ∧ { t.core c with bands := (s.core c).bands, tlb := (s.core c).tlb, tlrs := (s.core c).tlrs } = s.core c
        ∧ (∀ k, k ≠ n → t.band c k = s.band c k) ∧ t.band c n = some (goes { b with acc := b.acc ++ [a] })
        ∧ a.id = s.nextId ∧ a.kind = r.kind ∧ a.tile = false ∧ a.dst = r.dst ∧ a.size = r.n ∧ a.sx = r.sx ∧ a.op = r.op ∧ a.ty = r.ty
        ∧ a.scope = r.scope ∧ a.pc = v.pc ∧ a.whole = m
        ∧ a.pieces.map (fun q => (q.strand, q.off, q.n, q.loc, q.va, q.data, q.data2, q.remote, q.performed))
          = ((List.range 64).filter fun st => m.getLsbD st).flatMap fun st => (acc st).2.flatMap fun p => match p.2.2.2 with
            | .ok (.home g e) => (inLines e p.2.1).map fun q =>
                (st, p.1 + q.1, q.2, Loc.home g (e + q.1), p.2.2.1 + BitVec.ofNat 64 q.1, (r.data s v st).1, (r.data s v st).2, none, false)
            | _ => []

/-- R275, R277, R278: the strands that fault with a fault of one band-class kind halt the band, which does nothing; where every strand
meets a parking fault, the band parks with those strands unfinished. A page that moves holds the band. -/
def Sys2Proof.Claims.LaneAccessesFault : Prop :=
  ∀ i r, reach i = some r → i.wf = true → ∀ s c n b v (m : Word), laneOn s c n b v → readyRegs b v r.regs → taking v r.h m → m ≠ 0 →
    (s.core c).linesFull = false → unwatched s c →
    ((∃ st, takes v r.h st ∧ (strandOf s c v r st).any TOut.isHold = true) →
      exec i s = .next (s.onBand c n fun b => { b with st := .waiting }))
    ∧ ((∀ st, takes v r.h st → (strandOf s c v r st).any TOut.isHold = false) →
        ∀ k st0 va pte (bad : Word), takes v r.h st0 → (strandOf s c v r st0).fault = some (k, va, pte) →
        (∀ st, takes v r.h st → st < st0 → (strandOf s c v r st).fault = none) →
        (∀ st, takes v r.h st → ∀ f, (strandOf s c v r st).fault = some f → f.1 = k) →
        (∀ st < 64, bad.getLsbD st = true ↔ takes v r.h st ∧ (strandOf s c v r st).fault.isSome = true) →
        (parkKind k = false → exec i s = .next (s.bandFault c n k bad va pte))
        ∧ (parkKind k = true → b.acc = [] →
          (∀ st, takes v r.h st → ∀ q ps, strandOf s c v r st = .ok (q, ps) → ∀ p ∈ ps, ∃ f e, p.2.2.2 = .fault f e) → bad = m → (s.core c).watch.stops = [] →
          ∃ t b', exec i s = .next t ∧ t.band c n = some b' ∧ b'.st = .parked ∧ b'.unfinished = some bad ∧ b'.faultVa = va
            ∧ b'.pc = b.pc ∧ b'.wait = .none ∧ b'.acc = [] ∧ b'.v = b.v ∧ b'.b = b.b ∧ t.cores = (s.onBand c n fun _ => b').cores))

/-- R275, R276: a strand's access that leaves its tensor's 2^48 bytes is ADDR_RANGE, a misaligned block or atomic MEM_ALIGN. -/
def Sys2Proof.Claims.StrandAddressChecks : Prop :=
  ∀ (s : State) (c x : Nat) (base : Word) (off : Int) (n al : Nat) (k : AKind),
    let o := ((base.toNat % 2 ^ 48 : Nat) : Int) + off
    let a := base + BitVec.ofInt 64 off
    (o < 0 ∨ 2 ^ 48 < o + n → (s.strandAcc c x base off n al k).fault = some (.addrRange, a, 0))
    ∧ (0 ≤ o → o + n ≤ 2 ^ 48 → a.toNat % al ≠ 0 → (s.strandAcc c x base off n al k).fault = some (.memAlign, a, 0))

/-- R285, R286, R289: an access of one piece at a local home is performed in one step: a load or ATOM gives its strand the value, a
store writes its bytes, an atomic its new value; then the access retires. -/
def Obligations.LaneAccessesComplete : Prop :=
  ∀ s c n b pre a post p h ad, s.req.core = c → s.req.n = n → c < 64 → s.band c n = some b → b.acc = pre ++ a :: post →
    a.id = s.req.m → (∀ x ∈ pre ++ post, x.id ≠ a.id) → a.tile = false → a.pieces = [p] → s.req.addr = 0 → p.performed = false →
    p.remote = none → p.loc = .home h ad → p.off = 0 → p.n = a.size → a.size ∈ [1, 2, 4, 8] → p.strand < 64 →
    a.whole = BitVec.ofNat 64 (2 ^ p.strand) → b.dead.getLsbD p.strand = false → b.parkRec = none →
    (∀ x ∈ pre, ∀ q ∈ x.pieces, q.performed = true
      ∨ x.kind ≠ .atom ∧ ∀ g e, q.loc = .home g e → g ≠ h ∨ e + q.n ≤ ad / 8 * 8 ∨ (ad + p.n + 7) / 8 * 8 ≤ e) →
    let x := s.homeNat h ad a.size
    let new := atomicOut a.op a.ty a.size x (p.data.toNat % 2 ^ (8 * a.size)) (p.data2.toNat % 2 ^ (8 * a.size))
    let retire := fun (b : Band) => { b with acc := pre ++ post }
    (a.kind = .load → exec .laneAccessComplete s =
      .next (s.onBand c n fun b => retire (b.setV a.dst.toNat p.strand (extended a.sx a.size x))))
    ∧ (a.kind = .store → exec .laneAccessComplete s = .next ((s.homeWrite h ad (bytesOfNat a.size p.data.toNat)).onBand c n retire))
    ∧ (a.kind = .red → exec .laneAccessComplete s = .next ((s.homeWrite h ad (bytesOfNat a.size new)).onBand c n retire))
    ∧ (a.kind = .atom → exec .laneAccessComplete s = .next ((s.homeWrite h ad (bytesOfNat a.size new)).onBand c n fun b =>
        retire (b.setV a.dst.toNat p.strand (extended (a.ty = 6 && a.size = 4) a.size x))))

/-- R171, R287: LDT and STT read and write the tile store at A plus OFF in each strand; the tile counter rises until they complete. -/
def Sys2Proof.Claims.LaneTileAccesses : Prop :=
  ∀ (store : Bool) h (f : MForm) s c n b v (m : Word), laneOn s c n b v → readyRegs b v [(f.a, 1), (f.dst, 1)] → taking v h m →
    let i := if store then Instr.laneStt h f else Instr.laneLdt h f
    let w := plainBytes f
    let ad : Nat → Int := fun st => ((s.lval v [] 0 f.a 0 st).toNat : Int) + f.off.toInt
    let inside := fun st => 0 ≤ ad st ∧ ad st + w ≤ 0x1000000
    (m = 0 → exec i s = .next (s.onBand c n goes))
    ∧ (m ≠ 0 → (64 ≤ v.tileCtr ∨ (s.core c).linesFull = true) → exec i s = .next (s.onBand c n fun b => { b with st := .waiting }))
    ∧ (m ≠ 0 → v.tileCtr < 64 → (s.core c).linesFull = false → (∀ st, takes v h st → inside st ∧ (w : Int) ∣ ad st) →
        (store = true → ∀ t, v.inv.bind (s.core c).inv = some t → ∀ st, takes v h st → t.covers (ad st).toNat ((ad st).toNat + w) = true) →
        ∃ t b' a, exec i s = .next t ∧ onlyBandId s t c n b' ∧ t.nextId = s.nextId + 1
          ∧ b' = goes { b with acc := b.acc ++ [a], tileCtr := b.tileCtr + 1 }
          ∧ a.id = s.nextId ∧ a.tile = true ∧ a.kind = (if store then .store else .load) ∧ a.size = w ∧ a.whole = m
          ∧ (store = false → a.dst = f.dst ∧ a.sx = f.opx.getLsbD 2)
          ∧ a.pieces = ((List.range 64).filter fun st => m.getLsbD st).map fun st =>
              ⟨st, 0, w, .tile (ad st).toNat, 0, if store then s.lval v [] 1 f.dst 0 st else 0, 0, none, none, false, 0⟩)
    ∧ (m ≠ 0 → v.tileCtr < 64 → (s.core c).linesFull = false → ∀ lo (bad : Word), takes v h lo → ¬ inside lo → (∀ st, takes v h st → st < lo → inside st) →
        (∀ st < 64, bad.getLsbD st = true ↔ takes v h st ∧ ¬ inside st) → (∀ st, takes v h st → inside st → (w : Int) ∣ ad st) →
        (store = true → v.inv = none) →
        exec i s = .next (s.bandFault c n .tileAddr bad (BitVec.ofInt 64 (ad lo)) 0))
    ∧ (m ≠ 0 → v.tileCtr < 64 → (s.core c).linesFull = false → ∀ lo (bad : Word), takes v h lo → ¬ (w : Int) ∣ ad lo → (∀ st, takes v h st → st < lo → (w : Int) ∣ ad st) →
        (∀ st < 64, bad.getLsbD st = true ↔ takes v h st ∧ ¬ (w : Int) ∣ ad st) → (∀ st, takes v h st → inside st) →
        (store = true → v.inv = none) →
        exec i s = .next (s.bandFault c n .tileAlign bad (BitVec.ofInt 64 (ad lo)) 0))

/-- R290, R291, R292: PREF only translates; CPY and DRAIN enter a command of the band in a copy channel. -/
def Sys2Proof.Claims.LaneCopiesAndPrefetch : Prop :=
  ∀ h (g : MForm) (f : VForm) s c n b v, laneOn s c n b v →
    (readyRegs b v [(g.a, 1)] → ∃ t, exec (.lanePref h g) s = .next t ∧ t.band c n = some (goes b)
      ∧ { t with cores := s.cores } = s ∧ (∀ e, e ≠ c → t.core e = s.core e) ∧ (∀ k, k ≠ n → t.band c k = s.band c k)
      ∧ { t.core c with bands := (s.core c).bands, tlb := (s.core c).tlb, tlrs := (s.core c).tlrs } = s.core c)
    ∧ (let ch := f.xt.toNat % 4
       let op := f.fn.toNat % 4
       let hd := v.breg (f.a.toNat - 128)
       let w := v.breg (f.b.toNat - 128)
       let d : BitVec 256 := v.breg (f.c.toNat - 128 + 3) ++ v.breg (f.c.toNat - 128 + 2) ++ v.breg (f.c.toNat - 128 + 1) ++ v.breg (f.c.toNat - 128)
       let rows := if f.fn.getLsbD 2 then cdCols d else cdRows d
       let bytes := ((if f.fn.getLsbD 2 then cdRows d else cdCols d) * fmtWidth (hFmt hd) + 7) / 8
       (Instr.laneCpy h f).wf = true → once v h → ((s.core c).chan ch).length < 16 → hOk hd = true →
        (op = 0 → (s.core c).ranges.length < 32 → copyDescOk d hd (f.fn.getLsbD 2) (f.fn.getLsbD 3) = true →
          (∀ t, v.inv.bind (s.core c).inv = some t → ∀ r < rows, t.covers (hBase hd + r * hPitch hd) (hBase hd + r * hPitch hd + bytes) = true) →
          ∃ t q, exec (.laneCpy h f) s = .next t ∧ entered s t c ch q ∧ t.band c n = some (goes b) ∧ q.op = .cin ∧ q.handle = hd
            ∧ q.desc = d ∧ q.issuer = .band c n ∧ q.treg = none ∧ q.st = .queued ∧ memSame s t
            ∧ (t.core c).seq = (s.core c).seq ∧ (t.core c).tile = (s.core c).tile)
        ∧ (op = 1 → copyDescOk d hd (f.fn.getLsbD 2) (f.fn.getLsbD 3) = true →
          ∃ t q, exec (.laneCpy h f) s = .next t ∧ entered s t c ch q ∧ t.band c n = some (goes b) ∧ q.op = .cout ∧ q.handle = hd
            ∧ q.desc = d ∧ q.issuer = .band c n ∧ q.st = .queued ∧ (t.core c).ranges = (s.core c).ranges)
        ∧ (op = 2 → bf w.toNat 6 2 = 0 → bf w.toNat 14 50 = 0 →
          ∃ t q, exec (.laneCpy h f) s = .next t ∧ entered s t c ch q ∧ t.band c n = some (goes b) ∧ q.op = .cxc ∧ q.handle = hd
            ∧ q.dest = w ∧ q.issuer = .band c n ∧ q.st = .queued ∧ (t.core c).ranges = (s.core c).ranges))
    ∧ (let ch := f.xt.toNat % 4
       once v h → ((s.core c).chan ch).length < 16 → (∀ e ∈ v.staging, v.endpoint e.1 ≠ (3, ch)) →
        ∃ t q b', exec (.laneDrain h f) s = .next t ∧ entered s t c ch q ∧ q.op = .marker ∧ q.id = s.nextId
          ∧ t.band c n = some b' ∧ b' = { goes b with st := .waiting, wait := .marker s.nextId })
    ∧ (¬ once v h → exec (.laneCpy h f) s = .next (s.onBand c n goes) ∧ exec (.laneDrain h f) s = .next (s.onBand c n goes))

/-- R275, R276, R277, R278: what an address of a strand is checked for, and the fault. -/
def Obligations.LaneAddressesFault : Prop :=
  Sys2Proof.Claims.StrandAddressChecks ∧ Sys2Proof.Claims.LaneAccessesFault

/-- R171, R287, R290, R291, R292: tile accesses, copies and prefetches of a band. -/
def Obligations.LaneTilesAndCopies : Prop :=
  Sys2Proof.Claims.LaneTileAccesses ∧ Sys2Proof.Claims.LaneCopiesAndPrefetch

namespace Sys2Proof.Claims

/-! ### Words for synchronisation and the rest of the lanes -/

/-- The home word of pennant `p` of a context slot (R296): home, byte and word, where its table's frame lies in the partition. -/
def pennantAt (s : State) (x p h a : Nat) (w : Word) : Prop :=
  (s.ctx x).penPlace p = (h, a) ∧ (s.partOf x).inPolder h (a / 4096) = true ∧ w = BitVec.ofNat 64 (s.homeNat h a 8)

/-- The pennant number of an instruction: its base register and POFF (R309). -/
def penOf (v : Band) (f : IForm) : Nat := (if f.a = 0 then 0 else (v.breg (f.a.toNat - 128)).toNat) + f.imm.toNat % 65536

/-- The band waits for a reason of its own. -/
def holds (w : BWait) (b : Band) : Band := { b with st := .waiting, wait := w }

/-- The record in eight `b` registers (R334). -/
def recordAt (v : Band) (x : BitVec 8) : BitVec 512 :=
  let r := fun i => v.breg (x.toNat - 128 + i)
  r 7 ++ r 6 ++ r 5 ++ r 4 ++ r 3 ++ r 2 ++ r 1 ++ r 0

/-- A band predicate set to a value. -/
def setBp (n : Nat) (x : Bool) (b : Band) : Band :=
  { b with bp := if x then b.bp ||| BitVec.ofNat 7 (2 ^ n) else b.bp &&& ~~~(BitVec.ofNat 7 (2 ^ n)) }

end Sys2Proof.Claims

/-- R296, R297, R309 to R311: PACQ and PREL send one operation to the pennant's home word and wait for it; they fault on a number out of
range, a table outside the partition's memory, a free pennant. Where the band predicate is false they only go on. -/
def Obligations.LanePennants : Prop :=
  ∀ (acq : Bool) h (f : IForm) s c n b v, laneOn s c n b v →
    let i := if acq then Instr.lanePacq h f else Instr.lanePrel h f
    i.wf = true → (acq = true → ready1 b v f.dst) →
    (predAt v h 0 = false → exec i s = .next (s.onBand c n goes))
    ∧ (predAt v h 0 = true → 65535 < penOf v f → exec i s = .next (s.bandFault c n .pennantArg v.live 0 0))
    ∧ (predAt v h 0 = true → penOf v f ≤ 65535 →
      ∀ hm a w, (s.ctx v.slot).penPlace (penOf v f) = (hm, a) →
        ((s.partOf v.slot).inPolder hm (a / 4096) = false → exec i s = .next (s.bandFault c n .polderFault v.live 0 0))
        ∧ (pennantAt s v.slot (penOf v f) hm a w → w.getLsbD 63 = false →
            exec i s = .next (s.bandFault c n .pennantFree v.live 0 0))
        ∧ (pennantAt s v.slot (penOf v f) hm a w → w.getLsbD 63 = true →
          (w.getLsbD 62 = true → bf w.toNat 48 2 ≠ 0 → exec i s = .next (s.bandFault c n .pennantArg v.live 0 0))
          ∧ ((w.getLsbD 62 = true → bf w.toNat 48 2 = 0) →
            ∃ o : PenOp, exec i s = .next (({ s with nextId := s.nextId + 1, pens := s.pens ++ [o] } : State).onBand c n (holds (.pennant s.nextId)))
              ∧ o.id = s.nextId ∧ o.who = .band c n ∧ o.acquire = acq ∧ o.home = hm ∧ o.addr = a ∧ o.waiting = false ∧ o.remote = none
              ∧ o.forward = (if w.getLsbD 62 then some w else none)
              ∧ (acq = true → o.ge = f.imm.getLsbD 19 ∧ o.dst = f.dst
                  ∧ (o.ge = true → o.target.toNat = (v.breg (f.dst.toNat - 128)).toNat % 2 ^ 30)
                  ∧ ∀ k, k ∈ o.accs ↔ ∃ x ∈ v.acc, x.id = k ∧ x.tile = false ∧ x.kind = .atom ∧ ∃ p ∈ x.pieces, p.performed = false)
              ∧ (acq = false → o.vop = f.imm.extractLsb' 23 2
                  ∧ (o.vop ≠ 0 → o.val.toNat = (v.breg (f.dst.toNat - 128)).toNat % 2 ^ 32)
                  ∧ ∀ k, k ∈ o.accs ↔ ∃ x ∈ v.acc, x.id = k ∧ x.tile = false ∧ (x.kind = .load ∨ ∃ p ∈ x.pieces, p.performed = false ∧
                      (x.kind = .atom
                       ∨ ((x.kind = .store ∨ (x.kind = .red ∧ p.loc.far.isSome = true))
                          ∧ (s.penKey v.slot (penOf v f)).isSome = true ∧ p.pen = s.penKey v.slot (penOf v f))
                       ∨ (f.imm.toNat / 65536 % 8 = 4 ∧ p.loc.far.isSome = true ∧ (x.kind = .store ∨ x.kind = .red))))))))

/-- R303, R312, R313: FENCE waits for the band's earlier accesses and for what the masked channels held when it issued; QFENCE
enters one fence in every queue that its mask names. -/
def Obligations.LaneFences : Prop :=
  ∀ h (f : IForm) s c n b v, laneOn s c n b v →
    (predAt v h 0 = false → h.pred.toNat ≥ 7 →
      exec (.laneFence h f) s = .next (s.onBand c n goes) ∧ exec (.laneQfence h f) s = .next (s.onBand c n goes))
    ∧ (predAt v h 0 = true → h.pred.toNat ≥ 7 →
      let chans := fun ch => ch < 4 ∧ f.imm.getLsbD (19 + ch) = true
      let idle := (∀ a ∈ v.acc, a.tile = true) ∧ ∀ ch, chans ch → (s.core c).chan ch = []
      ((∀ x y, v.wait ≠ .fence x y) →
        (idle →
          exec (.laneFence h f) s = .next (s.onBand c n fun b => goes { b with wait := .none }))
        ∧ (¬ idle → ∃ accs copies, exec (.laneFence h f) s = .next (s.onBand c n (holds (.fence accs copies)))
            ∧ (∀ k, k ∈ accs ↔ ∃ a ∈ v.acc, a.id = k ∧ a.tile = false)
            ∧ ∀ k, k ∈ copies ↔ ∃ ch m, chans ch ∧ m ∈ (s.core c).chan ch ∧ m.id = k))
      ∧ (∀ accs copies, v.wait = .fence accs copies →
        let open_ := (∃ a ∈ v.acc, a.id ∈ accs) ∨ ∃ ch < 4, ∃ m ∈ (s.core c).chan ch, m.id ∈ copies
        (open_ → exec (.laneFence h f) s = .next (s.onBand c n (holds (.fence accs copies))))
        ∧ (¬ open_ → exec (.laneFence h f) s = .next (s.onBand c n fun b => goes { b with wait := .none })))
      ∧ ((s.core c).fenceRoom f.imm.toNat = false → exec (.laneQfence h f) s = .next (s.onBand c n fun b => { b with st := .waiting }))
      ∧ ((s.core c).fenceRoom f.imm.toNat = true → ∃ t, exec (.laneQfence h f) s = .next t ∧ t.band c n = some (goes b)
          ∧ (let k := (s.core c).putFence f.imm.toNat s.nextId (.band c n)
             { t.core c with bands := (s.core c).bands } = k.openFences k.fenceCount)
          ∧ (∀ e, e ≠ c → t.core e = s.core e) ∧ { t with cores := s.cores, nextId := s.nextId } = s))

/-- R303, R315, R316, R320: BAR waits for loads and strong accesses, arrives at its leaf and waits for the phase; a root that the partition does not
have is BAR_ARG, strands left behind are BAR_DIVERGE, other operands than the first arrival's are BAR_MISMATCH. -/
def Obligations.LaneBarrier : Prop :=
  ∀ h (f : IForm) s c n b v, laneOn s c n b v → h.pred.toNat ≥ 7 →
    let o := barOps f.imm
    let leaf := 64 * c + f.imm.toNat % 64
    let node := (s.core c).leaf (f.imm.toNat % 64)
    let count := f.imm.toNat / 64 % 128 + 1
    let lvl := f.imm.toNat / 2 ^ 14 % 4
    let arrival : Arrival := ⟨v.slot, o, n⟩
    (predAt v h 0 = false → exec (.laneBar h f) s = .next (s.onBand c n goes))
    ∧ (predAt v h 0 = true → 1 ≤ lvl → (s.partOf v.slot).roots.getLsbD (f.imm.toNat / 2 ^ 16 % 16) = false →
        exec (.laneBar h f) s = .next (s.bandFault c n .barArg v.live 0 0))
    ∧ (predAt v h 0 = true → (1 ≤ lvl → (s.partOf v.slot).roots.getLsbD (f.imm.toNat / 2 ^ 16 % 16) = true) →
      ((∃ st < 64, v.dead.getLsbD st = false ∧ v.exited.getLsbD st = false ∧ v.live.getLsbD st = false) →
        exec (.laneBar h f) s = .next (s.bandFault c n .barDiverge v.live 0 0))
      ∧ ((∀ st < 64, v.dead.getLsbD st = true ∨ v.exited.getLsbD st = true ∨ v.live.getLsbD st = true) →
        ((∃ a ∈ v.acc, a.tile = false ∧ (a.kind ≠ .store ∨ f.imm.getLsbD 26 = true)) →
          exec (.laneBar h f) s = .next (s.onBand c n fun b => { b with st := .waiting }))
        ∧ ((∀ a ∈ v.acc, a.tile = true ∨ (f.imm.getLsbD 26 = false ∧ a.kind = .store)) →
          (∀ l, node.st = .collecting → node.latched = some l → (l.ctx ≠ v.slot ∨ l.ops.rid ≠ o.rid ∨ l.ops.lvl ≠ o.lvl ∨ l.ops.lcnt ≠ o.lcnt) →
            exec (.laneBar h f) s = .next (s.bandFault c n .barMismatch v.live 0 0))
          ∧ ((node.st = .idle ∨ ∃ l, node.st = .collecting ∧ node.latched = some l ∧ l.ctx = v.slot ∧ { l.ops with leaf := o.leaf } = o) →
            ∃ t b', exec (.laneBar h f) s = .next t ∧ t.band c n = some b' ∧ b'.wait = .bar (f.imm.toNat % 64) ∧ b'.pc = b.pc
              ∧ (b'.st = .waiting ∨ b'.st = .held) ∧ memSame s t
              ∧ let came := if node.st = .idle then [n] else node.came ++ [n]
                let x := (t.core c).leaf (f.imm.toNat % 64)
                x.came = came ∧ x.ph = node.ph
                ∧ x.latched = (if node.st = .idle then some arrival else node.latched)
                ∧ (came.length = count → lvl = 0 → x.st = .flipping ∧ t.barFlips = s.barFlips ++ [⟨0, leaf⟩] ∧ t.barMsgs = s.barMsgs)
                ∧ (came.length = count → lvl ≠ 0 → x.st = .armed ∧ t.barFlips = s.barFlips ∧ t.barMsgs = s.barMsgs ++
                    [⟨1, 16 * (c / 16) + f.imm.toNat / 2 ^ 16 % 16, ⟨v.slot, o, leaf⟩⟩])
                ∧ (came.length ≠ count → x.st = .collecting ∧ t.barFlips = s.barFlips ∧ t.barMsgs = s.barMsgs)))))

/-- R226, R236, R385: QBIND binds and unbinds a `q` register that holds nothing. -/
def Sys2Proof.Claims.LaneQueueBinding : Prop :=
  ∀ h (f : VForm) s c n b v, laneOn s c n b v → once v h → f.dst.toNat ≥ 240 →
    let q := f.dst.toNat - 240
    let w := v.breg (f.a.toNat - 128)
    let bound := fun (l : List (Nat × QBinding)) => ∃ t, exec (.laneQbind h f) s = .next t ∧ t.band c n = some (goes { b with q := l })
        ∧ (∀ e, e ≠ c → t.core e = s.core e) ∧ (∀ k, k ≠ n → t.band c k = s.band c k)
    (v.staging = [] → aget v.q q = none →
      (f.fn = 0 → bound (adel b.q q))
      ∧ (f.fn = 1 ∨ f.fn = 2 → v.inv.isSome = true → bound (aput b.q q ⟨f.fn.toNat, 0, 0, 0⟩))
      ∧ (f.fn = 1 ∨ f.fn = 2 → v.inv = none → ∃ t m, exec (.laneQbind h f) s = .next t ∧ taking v h m
          ∧ t.band c n = (s.bandFault c n .queueBusy m 0 0).band c n)
      ∧ (f.fn = 3 → w.toNat % 512 = 0 → bound (aput b.q q ⟨3, f.xt.toNat % 4, w, 0⟩))
      ∧ (f.fn = 4 → w.toNat < 16 → (s.core c).rq = [] → bound (aput b.q q ⟨4, 0, w, 0⟩)))
    ∧ (v.staging = [] → v.inv.isSome = true → f.fn = 0 → ∀ k, aget v.q q = some k → k.kind = 1 → v.resultQ = [] → bound (adel b.q q))

/-- R203, R237: the first MMJ of a gang fixes the operands in the rendezvous latch, the others of the same operands join it. -/
def Sys2Proof.Claims.LaneJointArrival : Prop :=
  ∀ h (f : VForm) s c n b v inv rank i, laneOn s c n b v → once v h → v.of = .gang inv rank → (s.core c).inv inv = some i →
    let d := v.breg (f.a.toNat - 128)
    let kind := fun (x : BitVec 8) => (aget v.q (x.toNat - 240)).map fun e => e.kind
    (Instr.laneMmj h f).wf = true → f.b.toNat ≥ 240 → kind f.b = some 2 → (f.c = 0 → d.getLsbD 16 = true) →
    (f.c ≠ 0 → d.getLsbD 16 = false ∧ kind f.c = some 1) → mmjOkFor d rank (bindF i.entry 104 3) = true →
    (s.core c).arr.degraded = false →
    let joined := fun j => exec (.laneMmj h f) s = .next ((s.onCore c fun k => { k with arr := { k.arr with joint := some j } }).onBand c n goes)
    ((s.core c).arr.joint = none → joined ⟨inv, f.ty, d, [(rank, n, none)]⟩)
    ∧ (∀ j, (s.core c).arr.joint = some j → j.inv = inv → (∀ a ∈ j.arrived, a.1 ≠ rank) → j.ty = f.ty → j.desc = d →
        joined { j with arrived := j.arrived ++ [(rank, n, none)] })
    ∧ (∀ j, (s.core c).arr.joint = some j → (j.inv ≠ inv ∨ ∃ a ∈ j.arrived, a.1 = rank) →
        exec (.laneMmj h f) s = .next (s.onBand c n fun b => { b with st := .waiting }))

/-- R172, R239: TOPN captures a nested invocation whose outputs lie in its routine's write window. -/
def Sys2Proof.Claims.LaneNestedInvocation : Prop :=
  ∀ h (f : VForm) s c n b v up, laneOn s c n b v → (∃ st, takes v h st) → v.inv.bind (s.core c).inv = some up →
    let op := f.fn ++ f.xt
    let e := s.bindEntry (s.core c) op.toNat
    (∀ a ∈ v.acc, a.tile = true ∨ a.kind ≠ .load) → (∀ i ∈ (s.core c).invs, i.parent ≠ some up.id) → ((s.core c).invs.filter fun i => i.st = .queued).length < 16 →
    (s.core c).ranges.length + bindTiles e ≤ 32 →
    (∀ m : Word, taking v h m →
      (bindF up.entry 98 1 = 0 → exec (.laneTopn h f) s = .next (s.bandFault c n .nestDenied m 0 0))
      ∧ (bindF up.entry 98 1 = 1 → up.parent.isSome = true → exec (.laneTopn h f) s = .next (s.bandFault c n .nestDepth m 0 0))
      ∧ (bindF up.entry 98 1 = 1 → up.parent = none → bindF e 0 3 ≠ 1 → exec (.laneTopn h f) s = .next (s.bandFault c n .topUnbound m 0 0))
      ∧ (bindF up.entry 98 1 = 1 → up.parent = none → bindF e 0 3 = 1 → op = up.opc →
          exec (.laneTopn h f) s = .next (s.bandFault c n .nestSelf m 0 0)))
    ∧ (bindF up.entry 98 1 = 1 → up.parent = none → bindF e 0 3 = 1 → op ≠ up.opc → bindSnap e = false →
        bindTiles e = 0 → f.a = 0 → f.c = 0 →
        ∃ t i, exec (.laneTopn h f) s = .next t ∧ t.band c n = some (goes b) ∧ (t.core c).invs = (s.core c).invs ++ [i]
          ∧ i.id = (s.core c).seq.invNext ∧ i.opc = op ∧ i.entry = e ∧ i.parent = some up.id ∧ i.parentOp = up.opc ∧ i.st = .queued
          ∧ i.handles = [] ∧ (t.core c).seq = { (s.core c).seq with invNext := (s.core c).seq.invNext + 1 }
          ∧ (∀ e, e ≠ c → t.core e = s.core e))

/-- R305, R334: TENQ.NB and LAUNCH.NB take a credit and enqueue the record, or say in a band predicate that there is none; DDEC and
DDEC.CANCEL send their messages. -/
def Obligations.LaneTasks : Prop :=
  ∀ (launch : Bool) h (f : VForm) s c n b v, laneOn s c n b v →
    let i := if launch then Instr.laneLaunch h f else Instr.laneTenq h f
    let r := recordAt v f.a
    (i.wf = true → once v h → v.atomOpen = false →
      (recValid r launch (s.ctx v.slot).cores = true →
        ((s.core c).credits = 0 → exec i s = .next (s.onBand c n fun b => goes (setBp (f.dst.toNat - 8) true b)))
        ∧ ((s.core c).credits ≠ 0 → v.slot < 256 → ∃ t k, exec i s = .next t
          ∧ t.band c n = some (goes (setBp (f.dst.toNat - 8) false b)) ∧ (t.core c).credits = (s.core c).credits - 1
          ∧ aget (t.part (v.slot / 16)).tasks k.slot = some k ∧ (t.part (v.slot / 16)).enqs = (s.part (v.slot / 16)).enqs ++ [k.slot]
          ∧ k.record = r ∧ k.isLaunch = launch ∧ k.st = .pending ∧ k.ctx.toNat = v.slot % 16 ∧ memSame s t))
      ∧ (recValid r launch (s.ctx v.slot).cores = false → ∀ m : Word, taking v h m →
          exec i s = .next (s.bandFault c n .taskInvalid m 0 0)))
    ∧ (once v h → v.atomOpen = false →
        let k := v.breg (f.a.toNat - 128)
        let d := v.breg (f.b.toNat - 128)
        (k.toNat < 256 → -2 ^ 31 ≤ d.toInt → d.toInt < 2 ^ 31 → exec (.laneDdec h f) s =
          .next (({ s with nextId := s.nextId + 1, decs := s.decs ++ [⟨c, s.nextId, v.slot, k.toNat, d.toInt⟩] } : State).onBand c n goes))
        ∧ ((256 ≤ k.toNat ∨ d.toInt < -2 ^ 31 ∨ 2 ^ 31 ≤ d.toInt) → ∀ m : Word, taking v h m →
          exec (.laneDdec h f) s = .next (s.bandFault c n .depArg m 0 0))
        ∧ (f.xt = 4 → k ≠ 0 → k.toNat < 64 → exec (.laneDdecCancel h f) s =
          .next (({ s with nextId := s.nextId + 1, cancels := s.cancels ++ [⟨c, s.nextId, v.slot, 4, k.toNat, 0⟩] } : State).onBand c n goes))
        ∧ (f.xt = 4 → (k = 0 ∨ 64 ≤ k.toNat) → ∀ m : Word, taking v h m →
          exec (.laneDdecCancel h f) s = .next (s.bandFault c n .depArg m 0 0)))
    ∧ (¬ once v h → exec i s = .next (s.onBand c n goes) ∧ exec (.laneDdec h f) s = .next (s.onBand c n goes)
        ∧ exec (.laneDdecCancel h f) s = .next (s.onBand c n goes))

/-- R116, R117, R401: TRAP, BKPT, CSRR and CSRW of a band. -/
def Obligations.LaneTrapsAndRegisters : Prop :=
  ∀ h (f : IForm) s c n b v (m : Word), laneOn s c n b v → taking v h m →
    let num := f.imm.toNat % 4096
    let csr : Option Word := if num = 0 then some v.mode else if num = 1 then some v.flag
      else if num = 2 then some (BitVec.ofNat 64 (c % 64 + n / 16 % 8 * 2 ^ 8 + n % 16 * 2 ^ 12 + v.part.toNat * 2 ^ 16 + v.ctx.toNat % 16 * 2 ^ 20))
      else if num = 3 then some (BitVec.ofNat 64 s.cycle) else none
    (m ≠ 0 → exec (.laneTrap h f) s = .next (s.bandFault c n .trap m (BitVec.ofNat 64 f.imm.toNat) 0))
    ∧ (m = 0 → exec (.laneTrap h f) s = .next (s.onBand c n goes))
    ∧ ((m = 0 ∨ (s.part v.part.toNat).debug = 0) → exec (.laneBkpt h f) s = .next (s.onBand c n goes))
    ∧ (m ≠ 0 → (s.part v.part.toNat).debug ≠ 0 → (b.st = .issuing ∨ b.st = .waiting ∨ b.st = .ready) →
        ∃ t b', exec (.laneBkpt h f) s = .next t ∧ t.band c n = some b' ∧ b'.st = .halted ∧ b'.halt = .debug ∧ b'.pc = b.pc + 8
          ∧ (t.core c).watch.stops = (s.core c).watch.stops ++ [⟨.band c n, .bkptHit, BitVec.ofNat 64 (f.imm.toNat % 65536), m, none, some v.pc⟩])
    ∧ (csr = none → exec (.laneCsrr h f) s = .next (s.bandFault c n .illegalOp m 0 0))
    ∧ (2 ≤ num → exec (.laneCsrw h f) s = .next (s.bandFault c n .illegalOp m 0 0))
    ∧ (f.dst.toNat ≤ 239 → ready1 b v f.dst → c < 64 → n < 128 →
        ∀ x, csr = some x →
          (byteV f.dst = false → once v h → exec (.laneCsrr h f) s = .next (s.onBand c n fun b => goes (b.setB (f.dst.toNat - 128) x)))
          ∧ (byteV f.dst = false → ¬ once v h → exec (.laneCsrr h f) s = .next (s.onBand c n goes))
          ∧ (byteV f.dst = true → ∃ t b', exec (.laneCsrr h f) s = .next t ∧ onlyBand s t c n b' ∧ movedOn b b' ∧ regsOnly b b'
            ∧ b'.b = b.b ∧ b'.p = b.p ∧ b'.bp = b.bp ∧ b'.flag = b.flag ∧ (∀ st, takes v h st → b'.vreg f.dst.toNat st = some x)
            ∧ ∀ k, (∀ st, takes v h st → k ≠ 64 * f.dst.toNat + st) → aget b'.v k = aget b.v k))
    ∧ (f.a.toNat ≤ 239 → ready1 b v f.a →
        ∀ x, (byteV f.a = false ∧ once v h ∧ x = v.breg (f.a.toNat - 128))
              ∨ (byteV f.a = true ∧ ∃ st, takes v h st ∧ (∀ k, takes v h k → st ≤ k) ∧ x = s.vval v 0 f.a.toNat st) →
          (num = 0 → exec (.laneCsrw h f) s = .next (s.onBand c n fun b => goes { b with mode := x &&& 0xF }))
          ∧ (num = 1 → exec (.laneCsrw h f) s = .next (s.onBand c n fun b => goes { b with flag := b.flag &&& ~~~x })))

/-- R87, R112, R173, R346: a band fault halts the band at its instruction, writes one record in the context's ring and raises FAULT;
a band that runs a routine takes its whole invocation with it. -/
def Obligations.BandFaultTaken : Prop :=
  ∀ (s : State) c n (b : Band) k (mask va pte : Word), c < 64 → s.band c n = some b → (b.st = .issuing ∨ b.st = .ready ∨ b.st = .waiting) → b.slot < 256 →
    let t := s.bandFault c n k mask va pte
    ∃ b', t.band c n = some b' ∧ b'.st = .halted ∧ b'.halt = .fault ∧ b'.faultMask = mask ∧ b'.faultPc = b.pc ∧ b'.faultVa = va
      ∧ b'.pc = b.pc ∧ b'.v = b.v ∧ b'.b = b.b ∧ b'.p = b.p ∧ b'.bp = b.bp ∧ b'.live = b.live ∧ b'.stack = b.stack ∧ b'.flag = b.flag
      ∧ (t.ctx b.slot).frecNext = ((s.ctx b.slot).frecNext + 1) % 64
      ∧ (∃ r : FRec, r.kind = k ∧ r.core.toNat = c ∧ r.slice.toNat = n / 16 % 8 ∧ r.band.toNat = n % 16 ∧ r.mask = mask ∧ r.pc = b.pc
          ∧ r.vaddr = va ∧ r.pte = pte ∧ r.seqf = false
          ∧ ∀ hm, t.home hm = (s.homeWrite (baseHome (s.ctx b.slot).frec)
              (baseFrame (s.ctx b.slot).frec * 4096 + 64 * ((s.ctx b.slot).frecNext % 64)) ((r.words b.slot).flatMap (bytesOfNat 8))).home hm)
      ∧ (∀ e, e ≠ c → t.core e = s.core e) ∧ (t.core c).seq = (s.core c).seq ∧ (t.core c).tile = (s.core c).tile
      ∧ (b.inv = none → ∀ m, m ≠ n → t.band c m = s.band c m)

/-- R172, R203, R226, R236, R237, R239, R385: queue binding, joint arrival and nested invocation. -/
def Obligations.LaneQueuesAndInvocations : Prop :=
  Sys2Proof.Claims.LaneQueueBinding ∧ Sys2Proof.Claims.LaneJointArrival ∧ Sys2Proof.Claims.LaneNestedInvocation

namespace Sys2Proof.Claims

/-! ### Words for the policy engines -/

/-- The current policy engine runs the invocation `e`. -/
def engineOn (s : State) (e : Engine) : Prop := s.engineCur < 4 ∧ s.engine = some e

/-- A policy register. -/
def kreg (e : Engine) (r : BitVec 4) : Word := (e.k[r.toNat]?).getD 0

/-- The conditions of a policy CMP (R89). -/
def polHolds (cc : BitVec 3) (x y : Word) : Prop :=
  (cc = 0 ∧ x.toNat = y.toNat) ∨ (cc = 1 ∧ x.toNat ≠ y.toNat) ∨ (cc = 2 ∧ x.toNat < y.toNat) ∨ (cc = 3 ∧ y.toNat ≤ x.toNat)
  ∨ (cc = 4 ∧ x.toInt < y.toInt) ∨ (5 ≤ cc.toNat ∧ y.toInt ≤ x.toInt)

/-- A word of bits. -/
def wordBits (f : Nat → Bool) : Word := BitVec.ofNat 64 (bitsNum 64 f)

/-- The policy instructions that write a register: destination, cost, result (R348, R349). -/
def polForm : Instr → Option (BitVec 4 × (Engine → Word))
  | .polLdi d imm => some (d, fun _ => w64 imm.toInt)
  | .polMov d a => some (d, fun e => kreg e a)
  | .polAdd d a b => some (d, fun e => w64 ((kreg e a).toInt + (kreg e b).toInt))
  | .polAddImm d a imm => some (d, fun e => w64 ((kreg e a).toInt + imm.toInt))
  | .polSub d a b => some (d, fun e => w64 ((kreg e a).toInt - (kreg e b).toInt))
  | .polSubImm d a imm => some (d, fun e => w64 ((kreg e a).toInt - imm.toInt))
  | .polAnd d a b => some (d, fun e => wordBits fun i => (kreg e a).getLsbD i && (kreg e b).getLsbD i)
  | .polAndImm d a imm => some (d, fun e => wordBits fun i => (kreg e a).getLsbD i && imm.getLsbD i)
  | .polOr d a b => some (d, fun e => wordBits fun i => (kreg e a).getLsbD i || (kreg e b).getLsbD i)
  | .polOrImm d a imm => some (d, fun e => wordBits fun i => (kreg e a).getLsbD i || imm.getLsbD i)
  | .polXor d a b => some (d, fun e => wordBits fun i => (kreg e a).getLsbD i != (kreg e b).getLsbD i)
  | .polXorImm d a imm => some (d, fun e => wordBits fun i => (kreg e a).getLsbD i != imm.getLsbD i)
  | .polShl d a b => some (d, fun e => w64 ((kreg e a).toNat * 2 ^ ((kreg e b).toNat % 64) : Nat))
  | .polShlImm d a n => some (d, fun e => w64 ((kreg e a).toNat * 2 ^ n.toNat : Nat))
  | .polShr d a b => some (d, fun e => w64 ((kreg e a).toNat / 2 ^ ((kreg e b).toNat % 64) : Nat))
  | .polShrImm d a n => some (d, fun e => w64 ((kreg e a).toNat / 2 ^ n.toNat : Nat))
  | .polMin d a b => some (d, fun e => w64 (min (kreg e a).toNat (kreg e b).toNat : Nat))
  | .polMinImm d a imm => some (d, fun e => w64 (min (kreg e a).toNat imm.toNat : Nat))
  | .polMax d a b => some (d, fun e => w64 (max (kreg e a).toNat (kreg e b).toNat : Nat))
  | .polMaxImm d a imm => some (d, fun e => w64 (max (kreg e a).toNat imm.toNat : Nat))
  | .polSel d a b c => some (d, fun e => if kreg e c = 0 then kreg e b else kreg e a)
  | .polCnt d a => some (d, fun e => w64 ((List.range 64).filter fun i => (kreg e a).getLsbD i).length)
  | _ => none

/-- The engine has written a register, gone on and counted a cost. -/
def wrote (e : Engine) (d : BitVec 4) (x : Word) (cost : Nat) : Engine :=
  { e with k := e.k.setIfInBounds d.toNat x, pc := e.pc + 1, cost := e.cost + cost }
/-- The engine goes to an index with its loops. -/
def wentTo (e : Engine) (pc : Nat) (loops : List (Nat × Nat)) : Engine := { e with pc := pc, loops := loops, cost := e.cost + 1 }

/-- The row that SCAN gives (R352): selected, with the least or greatest field, the lowest of those; all ones with none selected. -/
def scanned (rows : List (List Nat)) (mask : Word) (f : Nat) (mx : Bool) (x : Word) : Prop :=
  let on := fun r => r < rows.length ∧ r < 64 ∧ mask.getLsbD r = true
  let v := fun r => (rows.getD r []).getD f 0
  ((¬ ∃ r, on r) ∧ x = 0xFFFFFFFFFFFFFFFF)
  ∨ (∃ r, on r ∧ x = BitVec.ofNat 64 r ∧ (∀ q, on q → if mx then v q ≤ v r else v r ≤ v q) ∧ ∀ q < r, on q → v q ≠ v r)

end Sys2Proof.Claims

/-- R88, R348, R349: the register operations of the policy write one register, go on and cost one sched cycle. -/
def Sys2Proof.Claims.PolicyRegisterOperations : Prop :=
  ∀ s e, engineOn s e →
    (∀ i d f, polForm i = some (d, f) → exec i s = .next (s.setEngine (some (wrote e d (f e) 1))))
    ∧ ∀ d a b cc, (polHolds cc (kreg e a) (kreg e b) → exec (.polCmp d a b cc) s = .next (s.setEngine (some (wrote e d 1 1))))
        ∧ (¬ polHolds cc (kreg e a) (kreg e b) → exec (.polCmp d a b cc) s = .next (s.setEngine (some (wrote e d 0 1))))

/-- R350 to R352: control flow, LDV and SCAN. -/
def Sys2Proof.Claims.PolicyControlAndViews : Prop :=
  ∀ s e, engineOn s e →
    let goto := fun (i : Instr) (pc : Nat) (loops : List (Nat × Nat)) => exec i s = .next (s.setEngine (some (wentTo e pc loops)))
    goto .polNop (e.pc + 1) e.loops
    ∧ (∀ a off, (kreg e a = 0 → goto (.polBf a off) (e.pc + off.toNat) e.loops) ∧ (kreg e a ≠ 0 → goto (.polBf a off) (e.pc + 1) e.loops))
    ∧ (∀ off, goto (.polJf off) (e.pc + off.toNat) e.loops)
    ∧ (∀ n, goto (.polLoop n) (e.pc + 1) ((n.toNat, e.pc + 1) :: e.loops))
    ∧ (∀ n st l, e.loops = (n, st) :: l →
        (2 ≤ n → goto .polEndl st ((n - 1, st) :: l)) ∧ (n ≤ 1 → goto .polEndl (e.pc + 1) l))
    ∧ (∀ d a (t : BitVec 3) (f : BitVec 5), t.toNat ≤ 4 → exec (.polLdv d a t f) s = .next (s.setEngine (some (wrote e d
        (BitVec.ofNat 64 (((e.view.getD t.toNat []).getD (if t.toNat ≤ 1 then (kreg e a).toNat else 0) []).getD f.toNat 0)) 2))))
    ∧ (∀ d a (t : BitVec 3) (f : BitVec 5), t.toNat ≤ 4 →
        (∃ x, scanned (e.view.getD t.toNat []) (kreg e a) f.toNat false x ∧
          exec (.polScanMin d a t f) s = .next (s.setEngine (some (wrote e d x 8))))
        ∧ ∃ x, scanned (e.view.getD t.toNat []) (kreg e a) f.toNat true x ∧
          exec (.polScanMax d a t f) s = .next (s.setEngine (some (wrote e d x 8))))

/-- R341, R350, R353: DEC and END free the engine and hand one decision to the scheduler block, whose step comes next. -/
def Obligations.PolicyDecisionsAreHandedOver : Prop :=
  ∀ s e, engineOn s e → e.part < 16 →
    let ends := fun (i : Instr) (k : BitVec 4) (a b : Word) (imm : BitVec 14) => ∃ t r q, exec i s = .next t
      ∧ t.engines = s.engines.setIfInBounds s.engineCur none
      ∧ (t.part e.part).decided = some ⟨{ e.req with ctx := q }, k, a, b, imm, false, false, false, false⟩
      ∧ ((e.req.sl ≠ .dispatch ∨ k ≠ 1) ∧ (e.req.sl ≠ .steal ∨ k ≠ 2) → q = e.req.ctx)
      ∧ (e.req.sl = .dispatch → k = 1 → a.toNat < 8 → ∀ n, ((e.view.getD 5 []).getD 0 []).getD a.toNat 0 = n + 1 → q = some (BitVec.ofNat 4 n))
      ∧ t.agenda = .event (decisionStep k.toNat) r :: s.agenda ∧ r.part = e.part
      ∧ { t with engines := s.engines, parts := s.parts, agenda := s.agenda } = s
      ∧ ∀ p, p ≠ e.part → t.part p = s.part p
    (∀ a b k imm, ends (.polDec a b k imm) k (kreg e a) (kreg e b) imm) ∧ ends .polEnd 0 0 0 0

/-- R336 to R338: the control port's commands on a partition's policy slot, each with its status. -/
def Sys2Proof.Claims.PolicySlotCommands : Prop :=
  ∀ s p, s.req.part = p → p < 16 → s.fwStatus = .ok →
    let sl := (s.part p).slot
    let v := s.req.value
    let put := fun (i : Instr) (sl : PSlot) => exec i s = .next ((s.onPart p fun q => { q with slot := sl }).answer .ok)
    let replies := fun (i : Instr) (st : Status) => exec i s = .next (s.answer st)
    (sl.shadow ≠ .checking → sl.st ≠ .retired → put .policyShadowWrite
      { sl with words := aput sl.words (s.req.addr % 512) (BitVec.ofNat 32 v), shadow := .loaded, st := if sl.st = .absent then .loaded else sl.st })
    ∧ (sl.shadow = .checking → replies .policyShadowWrite .policyBusy)
    ∧ (∀ i ∈ [Instr.policyCheck, .policySwap, .policyDisable, .policyRetire, .policyScrub],
        (2 ^ 26 ≤ v % 2 ^ 64 ∨ bf v 4 12 ≠ 0 → replies i .policyCmd))
    ∧ (sl.shadow = .checking → (v = 1 → replies .policyCheck .policyBusy) ∧ (v = 2 → replies .policySwap .policyBusy)
        ∧ (v = 3 → replies .policyDisable .policyBusy) ∧ (v = 4 → replies .policyRetire .policyBusy) ∧ (v = 5 → replies .policyScrub .policyBusy))
    ∧ (∀ n < 512, v = 1 + n * 2 ^ 16 → sl.shadow ≠ .checking →
        (sl.st ≠ .retired → sl.shadow ≠ .empty → put .policyCheck { sl with shadow := .checking, slen := n })
        ∧ (sl.st = .retired ∨ sl.shadow = .empty → replies .policyCheck .partitionBusy))
    ∧ (v = 2 → sl.shadow = .checked → (sl.st = .checked ∨ sl.st = .active ∨ sl.st = .disabled) → put .policySwap
        { sl with st := .active, shadow := .empty, active := (List.range (sl.slen + 1)).map fun i => (aget sl.words i).getD 0,
                  alen := sl.slen, words := [], ovrn := 0, ring := [] })
    ∧ (v = 2 → sl.shadow ≠ .checked → sl.shadow ≠ .checking → replies .policySwap .policyUnchecked)
    ∧ (v = 3 → sl.shadow ≠ .checking → (sl.st = .active → exec .policyDisable s =
          .next (((s.onPart p fun q => { q with slot := { sl with st := .disabled } }).raiseVector p 1 none).answer .ok))
        ∧ (sl.st ≠ .active → replies .policyDisable .partitionBusy))
    ∧ (v = 4 → sl.shadow ≠ .checking → (sl.st ≠ .retired → s.partBusy p = false → put .policyRetire
          { sl with st := .retired, shadow := .empty, active := [], words := [] })
        ∧ (s.partBusy p = true → replies .policyRetire .partitionBusy))
    ∧ (v = 5 → sl.shadow ≠ .checking → (sl.st = .retired → put .policyScrub PSlot.reset)
        ∧ (sl.st ≠ .retired → replies .policyScrub .partitionBusy))

/-- R338, R341, R358, R359: a check ends with the first failure or none; an invocation starts on a free engine with the active program
and zero registers; one that would pass its budget of 512 sched cycles is abandoned and the default policy decides. -/
def Sys2Proof.Claims.PolicyChecksAndInvocations : Prop :=
  ∀ s,
    (∀ p, s.req.part = p → p < 16 → let sl := (s.part p).slot
      let put := fun (sl : PSlot) => exec .policyCheckDone s = .next (s.onPart p fun q => { q with slot := sl })
      (sl.shadow ≠ .checking → exec .policyCheckDone s = .next s)
      ∧ (sl.shadow = .checking → (∀ i c, checkProgram sl.words (sl.slen + 1) = some (i, c) →
            put { sl with shadow := .rejected, cfail := c, cidx := i })
        ∧ (checkProgram sl.words (sl.slen + 1) = none →
            put { sl with shadow := .checked, st := if sl.st = .loaded then .checked else sl.st })))
    ∧ (∀ p r n, p < 16 → (∀ q < 16, q ≠ p → (s.part q).sluices = []) → (s.part p).sluices = [r] → (s.part p).inFlight = false →
        (s.part p).decided = none → s.loggedDecision p r = none →
        ((s.part p).slot.st = .active → n < 4 → s.engines[n]? = some none → (∀ m < n, ∃ e, s.engines[m]? = some (some e)) →
          ∃ t e, exec .policyInvocationStart s = .next t ∧ t.engines = s.engines.setIfInBounds n (some e)
            ∧ e.part = p ∧ e.req = r ∧ e.prog = (s.part p).slot.active ∧ e.k = Vector.replicate 16 0 ∧ e.pc = 0 ∧ e.cost = 0 ∧ e.loops = []
            ∧ (t.part p).sluices = [] ∧ (t.part p).inFlight = true ∧ (t.part p).slot.invc = (s.part p).slot.invc + 1 ∧ t.cores = s.cores)
        ∧ ((s.part p).slot.st ≠ .active → ∃ t d, exec .policyInvocationStart s = .next t ∧ (t.part p).decided = some d ∧ d.req = r
            ∧ d.fb = true ∧ d.ovr = false ∧ t.engines = s.engines ∧ (t.part p).inFlight = true ∧ (t.part p).sluices = []))
    ∧ (∀ n e, s.req.n = n → n < 4 → s.engines[n]? = some (some e) → e.part < 16 →
        (e.overBudget = true → ∃ t d, exec .policyOverrun s = .next t ∧ t.engines = s.engines.setIfInBounds n none
          ∧ (t.part e.part).decided = some d ∧ d.req = e.req ∧ d.fb = true ∧ d.ovr = true
          ∧ (t.part e.part).slot.ovrn = min 15 ((s.part e.part).slot.ovrn + 1))
        ∧ (e.overBudget = false → exec .policyOverrun s = .next { s with engineCur := n }))
    ∧ (∀ e i, (e.prog[e.pc]?).bind decodePol = some i → (Engine.overBudget e = true ↔ 512 < e.cost + polCost i))

/-- R88, R348, R349, R350, R351, R352: the register operations, control flow and views of a policy. -/
def Obligations.PolicyRegistersAndControl : Prop :=
  Sys2Proof.Claims.PolicyRegisterOperations ∧ Sys2Proof.Claims.PolicyControlAndViews

/-- R336, R337, R338, R341, R358, R359: policy slots, admission and invocations. -/
def Obligations.PolicySlots : Prop :=
  Sys2Proof.Claims.PolicySlotCommands ∧ Sys2Proof.Claims.PolicyChecksAndInvocations

namespace Sys2Proof.Claims

/-! ### Words for the scheduler block -/

/-- The cores of a mask, in rising order. -/
def coresOf (m : Word) : List Nat := (List.range 64).filter fun c => m.getLsbD c

/-- A core comes before another in a round that begins at `from_` (R324). -/
def roundBefore (from_ d c : Nat) : Prop := (from_ ≤ d ∧ c < from_) ∨ (from_ ≤ d ∧ from_ ≤ c ∧ d < c) ∨ (d < from_ ∧ c < from_ ∧ d < c)

/-- A decision `d` waits to be applied in partition `p`, is permitted, and concerns no other context than `x`, which is not in recovery and
logs nothing (R341, R354, R355). -/
def decides (s : State) (p : Nat) (d : Decided) (x : Nat) : Prop :=
  s.req.part = p ∧ p < 16 ∧ (s.part p).decided = some d ∧ s.decisionOk p d = true ∧ (∀ y, d.req.ctx = some y → y.toNat = x)
  ∧ x < 16 ∧ (s.ctx (16 * p + x)).st ≠ .recovering ∧ (s.ctx (16 * p + x)).logging = false ∧ (∀ r, d.req.record = some r → r.kind ≠ .hang)

/-- The decision has been applied: the partition's next invocation may start, and the context has counted it (R341, R361). -/
def applied (s u : State) (p x : Nat) : Prop :=
  (u.part p).decided = none ∧ (u.part p).inFlight = false ∧ (u.ctx (16 * p + x)).dsn = (s.ctx (16 * p + x)).dsn + 1

end Sys2Proof.Claims

/-- R15, R324, R326, R328, R329: credits go round the cores; what a core sends reaches the scheduler in the order of sending; the oldest enqueued task gets its indices and goes READY or BLOCKED; a decrement
reaches its counter; a finished task lowers nothing twice and raises COMPLETE. -/
def Obligations.SchedulerTasks : Prop :=
  ∀ s p, s.req.part = p → p < 16 →
    (let q := s.part p
     let held := ((coresOf q.cores).map fun c => (s.core c).credits).sum
     (8192 ≤ q.tasks.length + held → exec .creditGrant s = .next s)
     ∧ (q.tasks.length + held < 8192 → ∀ c ∈ coresOf q.cores, (s.core c).credits < 4 →
        (∀ d ∈ coresOf q.cores, roundBefore q.creditNext d c → 4 ≤ (s.core d).credits) →
        exec .creditGrant s = .next ((s.onCore c fun k => { k with credits := k.credits + 1 }).onPart p fun q => { q with creditNext := c + 1 })))
    ∧ ((s.part p).enqs = [] → exec .taskProcess s = .next s)
    ∧ (∀ n l t lc, (s.part p).enqs = n :: l → aget (s.part p).tasks n = some t → t.st = .pending → t.isLaunch = false →
        s.schedWaits t.lastCore t.order = false →
        let x := 16 * p + t.ctx.toNat
        aget (s.ctx x).launches t.launch.toNat = some lc →
        (lc.st.active = false → ∃ u, exec .taskProcess s = .next u ∧ u.cores = s.cores
          ∧ (u.ctx x).frecNext = ((s.ctx x).frecNext + 1) % 64 ∧ (u.part p).enqs = (l.filter fun m => m ≠ n)
          ∧ ∃ r ∈ (u.part p).sluices, r.sl = .fault ∧ (r.record.map fun f => f.kind) = some .taskLaunch)
        ∧ (lc.st.active = true → tf t.record 223 1 = 0 → tf t.record 207 1 = 0 →
          ∃ u k, exec .taskProcess s = .next u ∧ aget (u.part p).tasks n = some k ∧ k.first = lc.nextIndex ∧ k.record = t.record
            ∧ (aget (u.ctx x).launches t.launch.toNat).map (fun l => l.nextIndex) = some (lc.nextIndex + tf t.record 360 24)
            ∧ (u.part p).enqs = (l.filter fun m => m ≠ n)
            ∧ (tf t.record 239 1 = 1 ∧ 0 < (s.dep x (tf t.record 224 8)).count → k.st = .blocked ∧ (u.part p).queues = (s.part p).queues)
            ∧ (tf t.record 239 1 = 0 ∨ (s.dep x (tf t.record 224 8)).count ≤ 0 → k.st = .ready
              ∧ (u.part p).queues[tf t.record 337 3]? = some (((s.part p).queues[tf t.record 337 3]?).getD [] ++ [n]))))
    ∧ (∀ n l t, (s.part p).enqs = n :: l → aget (s.part p).tasks n = some t → s.schedWaits t.lastCore t.order = true →
        exec .taskProcess s = .next s)
    ∧ (∀ d, s.decs[s.req.n]? = some d → s.schedWaits d.core d.num = true → exec .depCounterDecrement s = .next s)
    ∧ (∀ d, s.decs[s.req.n]? = some d → d.ctx < 256 → s.schedWaits d.core d.num = false →
        let o := s.dep d.ctx d.counter
        let v := max (-2 ^ 31) (min (2 ^ 31 - 1) (o.count - d.amount))
        ∃ u, exec .depCounterDecrement s = .next u ∧ u.decs = s.decs.eraseIdx s.req.n ∧ u.cores = s.cores
          ∧ u.dep d.ctx d.counter = ⟨v, o.ovf || v != o.count - d.amount⟩
          ∧ (∀ n, n ≠ d.counter → u.dep d.ctx n = s.dep d.ctx n) ∧ (0 < v → u.parts = s.parts))
    ∧ (s.decs[s.req.n]? = none → exec .depCounterDecrement s = .next s)
    ∧ (∀ m, s.cancels[s.req.n]? = some m → s.schedWaits m.core m.num = true → exec .cancelArrive s = .next s)
    ∧ (∀ m, s.cancels[s.req.n]? = some m → m.ctx < 256 → 2 ≤ m.level → m.level ≤ 4 → s.schedWaits m.core m.num = false →
        ((s.part (m.ctx / 16)).tasks.map fun t => t.1).Nodup →
        ∃ u, exec .cancelArrive s = .next u ∧ u.cancels = s.cancels.eraseIdx s.req.n
          ∧ (∀ n t, aget (s.part (m.ctx / 16)).tasks n = some t →
            aget (u.part (m.ctx / 16)).tasks n = if t.ctx.toNat = m.ctx % 16 ∧ t.carries m.level m.id = true then none else some t))
    ∧ (∀ t, aget (s.part p).tasks s.req.n = some t →
        let x := 16 * p + t.ctx.toNat
        ((t.finished = false ∨ t.completed = true ∨ s.taskDrained p s.req.n x = false) → exec .taskCompletionSequence s = .next s)
        ∧ (t.finished = true → t.completed = false → s.taskDrained p s.req.n x = true → tf t.record 223 1 = 0 → tf t.record 207 1 = 0 →
          ∃ u, exec .taskCompletionSequence s = .next u ∧ aget (u.part p).tasks s.req.n = some { t with completed := true }
            ∧ (u.part p).queues = (s.part p).queues ∧ ∃ r ∈ (u.part p).sluices, r.sl = .complete ∧ r.task = some s.req.n))

/-- R132 to R134, R340, R107: a start-vector launch is placed once its cores are free; a core's list starts its first entry; a unit that has
ended and drained retires; a save ends once what leaves the core has come to rest. -/
def Obligations.SchedulerUnits : Prop :=
  ∀ s p x c, s.req.part = p → p < 16 → s.req.ctx = x → x < 16 → s.req.core = c → c < 64 →
    (∀ l v, aget (s.ctx (16 * p + x)).launches s.req.n = some l → l.vector = some v → l.st = .pending →
        let free := fun c => (s.core c).unit = none ∧ (s.core c).failed = false ∧ ∀ b ∈ (s.core c).bands, b.2.slot = 16 * p + x
        ((∃ e ∈ v, ¬ free e.1) → exec .launchPlaceStartVector s = .next s)
        ∧ ((∀ e ∈ v, free e.1 ∧ e.1 < 64) → (v.map fun e => e.1).Nodup →
          ∃ u, exec .launchPlaceStartVector s = .next u
            ∧ (aget (u.ctx (16 * p + x)).launches s.req.n).map (fun l => l.st) = some .running
            ∧ (∀ e ∈ v, ((u.core e.1).unit.map fun w => (w.part.toNat, w.ctx.toNat, w.launch, w.task, w.index)) = some (p, x, l.id, none, e.1)
                ∧ (u.core e.1).seq.phase = .run ∧ (u.core e.1).seq.pc = e.2 ∧ (u.core e.1).seq.s[0]? = some (some 0)
                ∧ (u.core e.1).seq.s[3]? = some (some (BitVec.ofNat 64 e.1)) ∧ (u.core e.1).seq.c[0]? = some (some true))
            ∧ (∀ d, (∀ e ∈ v, e.1 ≠ d) → u.core d = s.core d)))
    ∧ (∀ e rest t n, (s.core c).list = e :: rest → (s.core c).owner = none → (s.part p).cores.getLsbD c = true →
        (∀ q < p, (s.part q).cores.getLsbD c = false) → e.ctx.toNat = x → e.saved = false → e.kind = .seqUnit → e.cores = [c] →
        e.task = some n → aget (s.part p).tasks n = some t → (s.core c).unit = none → (s.core c).failed = false →
        s.freezes c = [] → s.vectorAhead p c = false →
        ∃ u, exec .localListStart s = .next u ∧ (u.core c).list = rest
          ∧ ((u.core c).unit.map fun w => (w.part.toNat, w.ctx.toNat, w.launch, w.task, w.index)) = some (p, x, t.launch, some t.slot, e.unit)
          ∧ (u.core c).seq.phase = .run ∧ (u.core c).seq.pc.toNat = tf t.record 0 64)
    ∧ ((s.core c).list = [] → (s.core c).returning = [] → exec .localListStart s = .next s)
    ∧ (∀ l e, (s.core c).list = [] → (s.core c).returning = l ++ [e] → s.corePart c = some p → (s.core c).failed = false → s.freezes c = [] →
        s.vectorAhead p c = false → ∃ u, exec .localListStart s = .next u ∧ (u.core c).list = [e] ∧ (u.core c).returning = l
          ∧ (u.core c).unit = (s.core c).unit ∧ (u.core c).bands = (s.core c).bands ∧ ∀ d, d ≠ c → u.core d = s.core d)
    ∧ (∀ u, (s.core c).unit = some u →
        (((s.core c).seq.phase ≠ .ended ∨ s.unitMarked c u = false ∨ (s.core c).drained = false) → exec .unitRetire s = .next s)
        ∧ ((s.core c).seq.phase = .ended → s.unitMarked c u = true → (s.core c).drained = true →
          ∃ t, exec .unitRetire s = .next t ∧ (t.core c).unit = none ∧ (t.core c).seq.phase = .idle ∧ (t.core c).tiles = []
            ∧ (t.core c).bands = (s.core c).bands ∧ ∀ d, d ≠ c → t.core d = s.core d))
    ∧ ((s.core c).unit = none → exec .unitRetire s = .next s)
    ∧ (((s.ctx (16 * p + x)).freezing.find? fun f => f.1 = c) = none → exec .coreSaveComplete s = .next s)
    ∧ (∀ f u, ((s.ctx (16 * p + x)).freezing.find? fun f => f.1 = c) = some f → (s.core c).bands = [] → (s.core c).seqLeaves (16 * p + x) f.2.1 = true →
        (s.core c).unit = some u →
        ((s.core c).atRest = false → exec .coreSaveComplete s = .next s)
        ∧ ((s.core c).atRest = true → s.pens = [] → ∃ t, exec .coreSaveComplete s = .next t ∧ (t.core c).unit = none ∧ (t.core c).seq.phase = .idle
          ∧ (t.core c).list = (s.core c).list
          ∧ (t.core c).returning = (s.core c).returning ++ [⟨.seqUnit, u.task, u.index, [c], BitVec.ofNat 8 x, true⟩]
          ∧ ((aget (t.ctx (16 * p + x)).images (logical (s.ctx (16 * p + x)).cores c)).bind fun im => im.unit) = some u))

/-- R341, R355, R361: a decision that is not permitted is replaced by the default policy's; one of another kind is left alone. -/
def Sys2Proof.Claims.DecisionsAreChecked : Prop :=
  ∀ s p d, s.req.part = p → p < 16 → (s.part p).decided = some d → d.kind.toNat ≤ 11 →
    let i := decisionStep d.kind.toNat
    (s.decisionOk p d = false → d.logged = false → ∃ u e, exec i s = .next u ∧ (u.part p).decided = some e ∧ e.req = d.req ∧ e.fb = true
      ∧ e.rej = true ∧ e.ovr = d.ovr ∧ u.cores = s.cores ∧ u.ctxs = s.ctxs ∧ memSame s u)
    ∧ (∀ k, k ≤ 11 → k ≠ d.kind.toNat → exec (decisionStep k) s = .next s)
    ∧ (∀ k sl, sluiceOk k sl = true ↔ k = 0 ∨ k = 10 ∨ (k = 1 ∧ (sl = .dispatch ∨ sl = .complete)) ∨ (k = 2 ∧ sl = .steal)
        ∨ (k = 3 ∧ (sl = .preempt ∨ sl = .dispatch)) ∨ (4 ≤ k ∧ k ≤ 11 ∧ k ≠ 10 ∧ sl = .fault))

/-- R354, R340: PLACE appends one unit of a queue's head to the named core's list, STEAL moves the newest entry of one list to another,
PREEMPT freezes the units below the threshold. -/
def Sys2Proof.Claims.DecisionsOnLists : Prop :=
  ∀ s p d x, decides s p d x →
    (d.kind = 1 → d.req.sl = .dispatch → ∀ t c, (s.part p).head d.opa.toNat = some t → aget (s.part p).tasks t.slot = some t → t.ctx.toNat = x →
        recKind t.record = 1 → d.opb = BitVec.ofNat 64 (2 ^ c) → c < 64 →
        ∃ u, exec .decisionPlace s = .next u ∧ applied s u p x
          ∧ (u.core c).list = (s.core c).list ++ [⟨.seqUnit, some t.slot, t.first + t.placed, [c], BitVec.ofNat 8 x, false⟩]
          ∧ aget (u.part p).tasks t.slot = some { t with placed := t.placed + 1, st := if t.placed + 1 = recUnits t.record then .running else .placed }
          ∧ (∀ e, e ≠ c → u.core e = s.core e)
          ∧ (t.placed + 1 = recUnits t.record → ∀ l ∈ (u.part p).queues.toList, t.slot ∉ l)
          ∧ (t.placed + 1 ≠ recUnits t.record → (u.part p).queues = (s.part p).queues))
    ∧ (d.kind = 2 → ∀ src dst e, d.opa.toNat = src → d.opb = BitVec.ofNat 64 (2 ^ dst) → src < 64 → dst < 64 → src ≠ dst →
        (s.core src).newest = some e → e.cores = [src] →
        ∃ u, exec .decisionSteal s = .next u ∧ (u.core src).list = ((s.core src).list.filter fun y => y ≠ e)
          ∧ (u.core dst).list = (s.core dst).list ++ [{ e with cores := [dst] }] ∧ (u.part p).decided = none
          ∧ ∀ c, c ≠ src → c ≠ dst → u.core c = s.core c)
    ∧ (d.kind = 3 → d.req.sl = .preempt → d.req.ctx = some (BitVec.ofNat 4 x) → ∀ y < 16,
        (((aget (s.ctx (16 * p + y)).images (logical (s.ctx (16 * p + y)).cores d.opa.toNat)).bind fun m => m.unit) = none) →
        ∃ u, exec .decisionPreempt s = .next u ∧ applied s u p x ∧ u.cores = s.cores
          ∧ let c := d.opa.toNat
            let lo := d.imm.toNat % 16
            let gone := (s.core c).seqLeaves (16 * p + y) lo = true ∨ ∃ b ∈ (s.core c).bands, (s.core c).bandLeaves (16 * p + y) lo b.2 = true
            (gone → (c, lo, s.cycle) ∈ (u.ctx (16 * p + y)).freezing)
            ∧ (¬ gone → (u.ctx (16 * p + y)).freezing = (s.ctx (16 * p + y)).freezing))

/-- R121, R138, R174, R190, R214, R293, R354, R356: KEEP, KILLSTRAND, RESTART, PARK, REPLAY and ESCALATE for the agent or context of a fault. -/
def Sys2Proof.Claims.DecisionsOnAgents : Prop :=
  ∀ s p d x, decides s p d x → d.req.sl = .fault → d.req.ctx = some (BitVec.ofNat 4 x) →
    (∀ r c n b, d.req.record = some r → d.req.who = .band c n → c < 64 → s.band c n = some b → b.inv = none → b.slot = 16 * p + x →
      (d.kind = 0 → (b.st = .halted ∨ b.st = .parked) → r.isFetch = false → r.kind ≠ .ueStrand → r.kind ≠ .ueSeq → b.pc = r.pc →
        ∃ u b', exec .decisionKeep s = .next u ∧ applied s u p x ∧ u.band c n = some b' ∧ b'.pc = b.pc + 8 ∧ b'.st = .ready ∧ b'.halt = .none
          ∧ b'.unfinished = none ∧ b'.v = b.v ∧ b'.b = b.b ∧ b'.live = b.live ∧ ∀ e, e ≠ c → u.core e = s.core e)
      ∧ (d.kind = 4 → b.unfinished = none → b.wait = .none → b.st = .halted →
        ∃ u b', exec .decisionKillstrand s = .next u ∧ applied s u p x ∧ u.band c n = some b' ∧ b'.live = b.live &&& ~~~d.opb
          ∧ b'.dead = b.dead ||| d.opb ∧ b'.st = .ready ∧ b'.pc = b.pc ∧ b'.v = b.v
          ∧ (∀ e ∈ b'.stack, e.mask &&& d.opb = 0) ∧ ∀ e, e ≠ c → u.core e = s.core e))
    ∧ (∀ r c f, d.kind = 0 → d.req.record = some r → d.req.who = .seq c → c < 64 → (s.core c).seq.fault = some f → f.erec = d.req.recAddr →
        (s.core c).runs (16 * p + x) = true → r.kind ≠ .ueStrand → r.kind ≠ .ueSeq →
        (s.core c).seq.tvec ≠ 0 → d.req.handler = false →
        ∃ u, exec .decisionKeep s = .next u ∧ applied s u p x ∧ (u.core c).seq.pc = (s.core c).seq.tvec ∧ (u.core c).seq.epc = f.epc
          ∧ (u.core c).seq.ecause.toNat = r.kind.code ∧ (u.core c).seq.erec = d.req.recAddr ∧ (u.core c).seq.handler = true
          ∧ (u.core c).seq.phase = .run ∧ (u.core c).seq.s = (s.core c).seq.s)
    ∧ (∀ c i, d.kind = 5 → s.recordInv d.req.who = some (c, i) → s.agentStands (16 * p + x) d.req = true → c < 64 → (s.core c).inv i.id = some i →
        ∃ u j rest, exec .decisionRestart s = .next u ∧ applied s u p x ∧ (u.core c).invs = j :: rest ∧ j.id = i.id ∧ j.st = .queued ∧ j.bands = []
          ∧ j.handles = i.handles ∧ (∀ b ∈ (u.core c).bands, (s.core c).serves b.2 i.id = false) ∧ ∀ e, e ≠ c → u.core e = s.core e)
    ∧ (d.kind = 6 → (∀ c, d.req.who ≠ .array c) → ∃ u, exec .decisionPark s = .next u ∧ applied s u p x ∧ u.cores = s.cores ∧ memSame s u)
    ∧ (∀ c r, d.kind = 6 → d.req.who = .array c → d.req.record = some r → c < 64 → r.kind = .pageUnmapped → (s.core c).runs (16 * p + x) = true →
        (s.core c).arr.fault = some .operand → ∃ u, exec .decisionPark s = .next u ∧ applied s u p x ∧ (u.core c).arr.fault = none
          ∧ (u.core c).arr.stream = none ∧ (u.core c).seq = (s.core c).seq ∧ ∀ e, e ≠ c → u.core e = s.core e)
    ∧ (d.kind = 9 → ((s.ctx (16 * p + x)).st = .running ∨ (s.ctx (16 * p + x)).st = .preempted) →
        ∃ u, exec .decisionReplay s = .next u ∧ (u.part p).decided = none
          ∧ (u.ctx (16 * p + x)).st = (if (s.ctx (16 * p + x)).rsafe then .recovering else .failed))
    ∧ (d.kind = 10 → (s.ctx (16 * p + x)).st ∉ [CState.empty, .retired, .failed] →
        ∃ u, exec .decisionEscalate s = .next u ∧ (u.part p).decided = none ∧ (u.ctx (16 * p + x)).st = .failed
          ∧ (u.part p).vecs.getLsbD 0 = true)

/-- R273, R357: MAP gives an unmapped page a frame and resumes the agent, MIGRATE starts a page's move to another frame, REMAP gives a
page a zeroed frame. -/
def Sys2Proof.Claims.DecisionsOnPages : Prop :=
  ∀ s p d x r t tensor page eh ea e, decides s p d x → d.req.sl = .fault → d.req.ctx = some (BitVec.ofNat 4 x) → d.req.record = some r →
    s.recordPage (16 * p + x) r = some (t, tensor, page, some (eh, ea, e)) → (∀ c < 64, (s.core c).tlb = []) → d.opb ≠ 0 →
    let home := d.imm.toNat
    let f := d.opb.toNat
    let n := tlrPage t / 4096
    home ≤ 1 → eh ≤ 1 → (s.part p).framesIn home f n = true →
    (d.kind = 7 → leafV e = false → leafVst e ≠ 1 → leafVst e ≠ 2 →
      ∃ u, exec .decisionMap s = .next u ∧ applied s u p x
        ∧ u.home eh = (s.home eh).writeBytes ea (bytesOfNat 8 (2 ^ 63 + home * 2 ^ 61 + (d.opa.toNat / 2 % 2) * 2 ^ 47
            + (d.opa.toNat / 4 % 2) * 2 ^ 46 + (d.opa.toNat % 2) * 2 ^ 45 ||| f))
        ∧ (∀ h, h ≤ 1 → h ≠ eh → u.home h = s.home h)
        ∧ ∀ c k b, d.req.who = .band c k → s.band c k = some b → b.slot = 16 * p + x → b.st = .parked → ∃ b', u.band c k = some b' ∧ b'.st = .ready ∧ b'.pc = b.pc)
    ∧ (d.kind = 8 → leafV e = true →
      ∃ u m, exec .decisionMigrate s = .next u ∧ applied s u p x ∧ u.migs = s.migs ++ [m] ∧ m.ctx = 16 * p + x ∧ m.tensor = tensor ∧ m.page = page
        ∧ u.home eh = (s.home eh).writeBytes ea (bytesOfNat 8 (e.toNat % 2 ^ 63 ||| 2 ^ 40)))
    ∧ (d.kind = 11 → leafV e = false → leafVst e = 2 →
      ∃ u, exec .decisionRemap s = .next u ∧ applied s u p x
        ∧ u.home eh = (if home = eh then (s.home eh).zeroRange (f * 4096) ((f + n) * 4096) else s.home eh).writeBytes ea
            (bytesOfNat 8 (2 ^ 63 ||| home * 2 ^ 61 ||| (e.toNat &&& 31 * 2 ^ 43) ||| f)))

/-- R362: in recovery a sluice takes the next logged decision where its sluice matches, else the policy runs live for the rest. -/
def Sys2Proof.Claims.LoggedDecisionsAreTaken : Prop :=
  ∀ s p i r e x, s.req.part = p → p < 16 → (s.part p).next = some (i, r) → s.nextRecord x = some e →
    (match r.sl with
      | .dispatch => ∃ n t, (s.part p).topQueue = some n ∧ (s.part p).head n = some t ∧ x = t.slotOf p
      | .steal => ∃ y : BitVec 4, ((List.range 16).find? fun j => s.stealsFor p j r.core) = some y.toNat ∧ x = 16 * p + y.toNat
      | _ => ∃ y, r.ctx = some y ∧ x = 16 * p + y.toNat) →
    let w := natOfBytes (e.payload.take 8)
    let code := match r.sl with | .dispatch => 0 | .steal => 1 | .preempt => 2 | .fault => 3 | .complete => 4
    let other := r.sl = .dispatch ∧ w % 16 = 1 ∧ ∃ t, (s.part p).head (w / 2 ^ 48 % 2 ^ 16) = some t ∧ t.slotOf p ≠ x
    (w / 16 % 8 ≠ code ∨ other → exec .sluiceReplayDecision s = .next (s.onCtx x fun k => { k with replayLive := true }))
    ∧ (w / 16 % 8 = code → ¬ other → ∃ u d, exec .sluiceReplayDecision s = .next u ∧ (u.part p).decided = some d
        ∧ d.req = { r with ctx := some (BitVec.ofNat 4 x) } ∧ d.logged = true
        ∧ d.kind.toNat = w % 16 ∧ d.opb.toNat = natOfBytes (e.payload.drop 8) % 2 ^ 64 ∧ d.opa.toNat = w / 2 ^ 48 % 2 ^ 16
        ∧ (u.part p).sluices = (s.part p).sluices.eraseIdx i
        ∧ (x < 256 → (u.ctx x).replay = (s.ctx x).replay.erase e))

/-- R162, R169, R170, R174, R217: gangs form when their slots are free, invocations end when their bands are done, bands are freed. -/
def Obligations.RoutinesRun : Prop :=
  ∀ s c, s.req.core = c → c < 64 →
    (∀ u i, (s.core c).unit = some u → (s.core c).nextInv = some i → s.freezes c = [] →
      let need := bindF i.entry 104 3
      let slots := (s.core c).pickSlots (bindVregs i.entry) need
      ((i.snapPending = true ∨ slots.length < need) → exec .gangForm s = .next s)
      ∧ (i.snapPending = false → slots.length = need → slots.Nodup → (∀ n ∈ slots, aget (s.core c).bands n = none) → (s.core c).inv i.id = some i →
        ∃ t, exec .gangForm s = .next t ∧ (∀ d, d ≠ c → t.core d = s.core d)
          ∧ ((t.core c).inv i.id).map (fun j => (j.st, j.formed, j.bands)) = some (.running, true, slots)
          ∧ (i.parent = none → ∀ k g, k < bindTiles i.entry → i.tregs[k]? = some g → bindDir i.entry k = 2 → ((t.core c).entry g.toNat).st = .writing)
          ∧ ∀ k n, slots[k]? = some n → ∃ b, t.band c n = some b ∧ b.st = .loading ∧ b.of = .gang i.id k ∧ b.live = 0xFFFFFFFFFFFFFFFF
              ∧ b.pc.toNat = bindF i.entry 192 64 ∧ b.vregs = bindVregs i.entry ∧ b.breg 8 = BitVec.ofNat 64 i.id
              ∧ b.breg 9 = BitVec.ofNat 64 (k + 256 * need)))
    ∧ (∀ i, (s.core c).inv s.req.n = some i →
      (i.snapPending = false → exec .snapCopyRetire s = .next s)
      ∧ (i.snapPending = true → ∃ t, exec .snapCopyRetire s = .next t ∧ ((t.core c).inv i.id).map (fun j => j.snapPending) = some false
          ∧ (t.core c).bands = (s.core c).bands ∧ (∀ d, d ≠ c → t.core d = s.core d))
      ∧ ((s.core c).invOver i = false → exec .invocationEnd s = .next s)
      ∧ ((s.core c).invOver i = true → ∃ t, exec .invocationEnd s = .next t ∧ (t.core c).invs = ((s.core c).invs.filter fun v => v.id ≠ i.id)
          ∧ (t.core c).tile = (s.core c).tile ∧ (∀ d, d ≠ c → t.core d = s.core d)
          ∧ (i.parent = none → ∀ k g, k < bindTiles i.entry → i.tregs[k]? = some g → bindDir i.entry k = 2 →
              (∀ j, j ≠ k → i.tregs[j]? ≠ some g) → ((t.core c).entry g.toNat).st = .ready)))
    ∧ (∀ b, s.band c s.req.n = some b →
      ((b.st ≠ .done ∨ b.acc ≠ [] ∨ b.staging ≠ []) → exec .bandFree s = .next s)
      ∧ (b.st = .done → b.acc = [] → b.staging = [] → ((s.core c).bands.map fun e => e.1).Nodup → ∃ t, exec .bandFree s = .next t
          ∧ t.band c s.req.n = none ∧ (∀ m, m ≠ s.req.n → t.band c m = s.band c m) ∧ (∀ d, d ≠ c → t.core d = s.core d)))

/-- R341, R355, R361, R362: decisions are checked, and recovery takes the logged ones. -/
def Obligations.DecisionsAreTaken : Prop :=
  Sys2Proof.Claims.DecisionsAreChecked ∧ Sys2Proof.Claims.LoggedDecisionsAreTaken

/-- R121, R138, R174, R190, R214, R273, R293, R340, R354, R356, R357: what a decision does. -/
def Obligations.DecisionsApply : Prop :=
  Sys2Proof.Claims.DecisionsOnLists ∧ Sys2Proof.Claims.DecisionsOnAgents ∧ Sys2Proof.Claims.DecisionsOnPages

namespace Sys2Proof.Claims

/-! ### Words for the engines of a core -/

/-- A FAULT sluice for context slot `x` waits with a record of a kind for an agent (R339, R346). -/
def faultRaised (u : State) (x : Nat) (who : Agent) (k : FKind) : Prop :=
  ∃ r ∈ (u.part (x / 16)).sluices, r.sl = .fault ∧ r.who = who ∧ (r.record.map fun f => f.kind) = some k

/-- The event of a copy channel's head `m` before `rest` on core `c` ends with a fault of a kind: the record is written, a fill's entry goes
ALLOC, the command leaves its channel, other cores stay (R180). -/
def copyFails (s : State) (c ch : Nat) (m : CopyCmd) (rest : List CopyCmd) (i : Instr) (k : FKind) : Prop :=
  ∃ u, exec i s = .next u ∧ faultRaised u m.ctx (.chan c ch) k ∧ (u.ctx m.ctx).frecNext = ((s.ctx m.ctx).frecNext + 1) % 64
    ∧ (∀ t, m.op = .cin → m.treg = some t → ((u.core c).entry t.toNat).st = .alloc)
    ∧ (∀ x ∈ (u.core c).chan ch, x ∈ rest) ∧ ∀ d, d ≠ c → u.core d = s.core d

/-- The device with another command at a channel's head. -/
def newHead (s : State) (c ch : Nat) (m : CopyCmd) (rest : List CopyCmd) : State :=
  s.setCore c { s.core c with chans := (s.core c).chans.setIfInBounds ch (m :: rest) }

/-- The device with another array on core `c`. -/
def arrNow (s : State) (c : Nat) (a : ArrayS) : State := s.setCore c { s.core c with arr := a }

/-- Before this entry stands none that holds it up: no other entry of its kind, no fence, none of the kinds `ops`, and every stream has entered. -/
def free1st (l : List ArrCmd) (op : ArrOp) (ops : List ArrOp) : Prop :=
  ∀ x ∈ l, (x.op = op → op = .mul ∧ x.entered = true) ∧ x.op ≠ .fence ∧ x.op ∉ ops ∧ (x.op = .mul → op = .ldw ∨ x.entered = true)

end Sys2Proof.Claims

/-- R179 to R181, R268: a queued copy at its channel's head reads its TLR when it starts, and fails with the first check that does not hold. -/
def Sys2Proof.Claims.CopyStart : Prop :=
  ∀ s c ch m rest, s.req.core = c → s.req.n = ch → c < 64 → ch < 4 → m.ctx < 256 → (s.core c).chan ch = m :: rest → m.st = .queued →
    s.cmdHeld c ch m = false → s.copyAfterLoads m = false →
    let i := Instr.copyCommandStart
    let fails := copyFails s c ch m rest i
    (m.op = .cxc → exec i s = .next (newHead s c ch { m with st := .waitDest } rest))
    ∧ (m.op = .push →
        (∀ r, s.checkTensor (some c) m.ctx m.base 512 = .ok r → exec i s = .next (newHead s c ch { m with st := .moving, tlr := r } rest))
        ∧ ∀ k, s.checkTensor (some c) m.ctx m.base 512 = .error k → fails k)
    ∧ (m.op = .cin ∨ m.op = .cout →
        (∀ k, s.tlr (some c) m.ctx (cdTensor m.desc) = .error k → fails k)
        ∧ ∀ r, s.tlr (some c) m.ctx (cdTensor m.desc) = .ok r →
          let fmtOk := (m.cv = true ∧ tlrFmt r ∈ [8, 9, 10, 11] ∧ hFmt m.handle ∈ [8, 9, 10, 11]) ∨ (m.cv = false ∧ tlrFmt r = hFmt m.handle)
          (¬ fmtOk → fails .copyFormat)
          ∧ (fmtOk → cdInside r m.desc = false → fails .copyBounds)
          ∧ (fmtOk → cdInside r m.desc = true → tlrSp r ≠ m.sp → fails .copySparse)
          ∧ (fmtOk → cdInside r m.desc = true → tlrSp r = m.sp →
              ∀ g, (if m.sp = true then s.tlr (some c) m.ctx (cdTensor m.desc + 1) = .ok g ∧ tlrFmt g = 1 else g = 0) →
              let bad := s.metaBad [] [] (s.metaScan c { m with tlr := r, mtlr := g }).1
              (bad = true → fails .copyMeta)
              ∧ (bad = false → exec i s = .next (newHead s c ch { m with st := .moving, tlr := r, mtlr := g } rest))))

/-- R162, R179, R184: a moving copy whose elements all lie in local homes completes: a fill's tile goes READY with the elements, the last
element among them; what CPYOUT and a push write stands in memory. -/
def Sys2Proof.Claims.CopyComplete : Prop :=
  ∀ s c ch m rest, s.req.core = c → s.req.n = ch → c < 64 → ch < 4 → m.ctx < 256 → (s.core c).chan ch = m :: rest → m.st = .moving →
    m.remote = [] → m.acks = [] → m.sp = false → m.start ≤ m.count →
    let i := Instr.copyCommandComplete
    let goesTo := fun (k : AKind) (e h a : Nat) => ∃ p ∈ m.parts e, s.translate (some c) m.ctx p.1 p.2.1 p.2.2.1 k = .ok (.home h a)
    let local_ := fun (k : AKind) => ∀ e, m.start ≤ e → e < m.count → ∃ h a, goesTo k e h a
    let gone := fun (u : State) => (∀ x ∈ (u.core c).chan ch, x ∈ rest) ∧ ∀ d, d ≠ c → u.core d = s.core d
    let at_ := m.tileAt m.start
    let nb := (m.width + 7) / 8
    (m.op = .cin → local_ .read → ∃ u, exec i s = .next u ∧ gone u
        ∧ (∀ t, m.treg = some t → ((u.core c).entry t.toNat).st = .ready)
        ∧ (m.start + 1 = m.count → m.cv = false → fmtWidth (hFmt m.handle) = m.width → (s.core c).tile.wf = true →
            ∀ p ∈ m.parts m.start, ∀ h a, s.translate (some c) m.ctx p.1 p.2.1 p.2.2.1 .read = .ok (.home h a) →
            u.tileElem (u.core c) m.handle at_.1 at_.2 = bf (s.homeNat h a nb) p.2.2.2 m.width))
    ∧ (m.op = .cout ∨ m.op = .push → local_ .write → m.width ≠ 4 → ∃ u, exec i s = .next u ∧ gone u
        ∧ (m.start + 1 = m.count → ∀ p ∈ m.parts m.start, ∀ h a t, h ≤ 1 →
            s.translate (some c) m.ctx p.1 p.2.1 p.2.2.1 .write = .ok (.home h a) → (s.home h).wf = true →
            (s.core c).tlb.find? (fun e => e.ctx = m.ctx && e.tensor = tensorOf p.2.1 && e.page = offsetOf p.2.1 / tlrPage p.1) = some t →
            t.dSet = true →
            natOfBytes ((u.home h).readBytes (u.freeByte h) a nb)
              = (if m.data = [] then s.tileElem (s.core c) m.handle at_.1 at_.2 else (m.data.getD m.start 0).toNat) % 2 ^ (8 * nb)))

/-- R180, R182, R185, R283: a moving copy fails with a refused request or a poisoned page; a tile-to-tile transfer begins once its
destination is an ALLOC entry of the same shape, and puts its elements there; a drain marker completes at its channel's head. -/
def Sys2Proof.Claims.CopyEnds : Prop :=
  ∀ s c ch m rest, s.req.core = c → s.req.n = ch → c < 64 → ch < 4 → m.ctx < 256 → (s.core c).chan ch = m :: rest →
    let d := m.dest.toNat % 64
    let r := m.dest.toNat / 256 % 64
    let h := s.handleOf d r
    let mine := (s.ctx m.ctx).cores.getLsbD d = true ∧ (s.core d).runs m.ctx = true
    let fits := hFmt h = hFmt m.handle ∧ (if m.tr then hRows h = hCols m.handle ∧ hCols h = hRows m.handle
      else hRows h = hRows m.handle ∧ hCols h = hCols m.handle)
    (m.st = .moving →
      (∀ k, s.someRefused (m.remote ++ m.acks) = some k → copyFails s c ch m rest .copyFail k)
      ∧ (m.op = .cin → m.sp = false → m.remote = [] → m.acks = [] → m.start < m.count → ∀ p ∈ m.parts m.start, ∀ e,
          s.translate (some c) m.ctx p.1 p.2.1 p.2.2.1 .read = .poison e → copyFails s c ch m rest .copyFail .pagePoisoned)
      ∧ (m.op = .cxc → (∀ x ∈ (s.core d).ranges, x.owner ≠ .arrive c m.id) → copyFails s c ch m rest .copyCommandComplete .xcRefused)
      ∧ (m.op = .cxc → (∃ x ∈ (s.core d).ranges, x.owner = .arrive c m.id) → ∃ u, exec .copyCommandComplete s = .next u ∧ ((u.core d).entry r).st = .ready ∧ (∀ x ∈ (u.core c).chan ch, x ∈ rest)
          ∧ (m.count = 1 → hFmt m.base = hFmt m.handle → fmtWidth (hFmt m.base) ≠ 0 → (s.core d).tile.wf = true →
              u.tileElem (u.core d) m.base 0 0 = s.tileElem (s.core c) m.handle 0 0)))
    ∧ (m.st ≠ .moving → exec .copyFail s = .next s ∧ exec .copyCommandComplete s = .next s)
    ∧ (m.st = .waitDest →
        (¬ mine → copyFails s c ch m rest .cpyxcTransferBegin .xcRefused)
        ∧ (mine → ((s.core d).entry r).st ≠ .alloc → exec .cpyxcTransferBegin s = .next s)
        ∧ (mine → ((s.core d).entry r).st = .alloc → (s.core d).ranges.length < 32 → ¬ fits → copyFails s c ch m rest .cpyxcTransferBegin .xcShape)
        ∧ (mine → ((s.core d).entry r).st = .alloc → (s.core d).ranges.length < 32 → fits → ∃ u, exec .cpyxcTransferBegin s = .next u
            ∧ ((u.core d).entry r).st = .filling ∧ (u.core d).ranges = (s.core d).ranges ++ [⟨hBase h, hEnd h, .arrive c m.id⟩]
            ∧ (u.core c).chan ch = { m with st := .moving, base := h } :: rest ∧ ∀ e, e ≠ c → e ≠ d → u.core e = s.core e))
    ∧ (m.op = .marker → ∃ u, exec .drainMarkerComplete s = .next u ∧ (∀ x ∈ (u.core c).chan ch, x ∈ rest)
        ∧ ∀ n b, s.band c n = some b → b.wait = .marker m.id → (∀ q < 4, ∀ x ∈ if q = ch then rest else (s.core c).chan q, x.id ≠ m.id) →
            ∃ b', u.band c n = some b' ∧ b'.wait = .none)
    ∧ (m.op ≠ .marker → exec .drainMarkerComplete s = .next s)

/-- R178 to R186: how a copy command starts, moves, fails and completes. -/
def Obligations.CopyChannelsRun : Prop :=
  Sys2Proof.Claims.CopyStart ∧ Sys2Proof.Claims.CopyComplete ∧ Sys2Proof.Claims.CopyEnds

/-- R191 to R194, R201: weights go from a tile into the shadow latch, and a swap makes them live. -/
def Sys2Proof.Claims.ArrayWeights : Prop :=
  ∀ s c l1 q l2, s.req.core = c → c < 64 → (s.core c).arr.queue = l1 ++ q :: l2 → (s.core c).arr.fault = none → (s.core c).arr.disabled.length ≤ 8 →
    let a := (s.core c).arr
    (q.op = .ldw → free1st l1 .ldw [.swap] → q.started = false → s.seqHeld c = false →
      ∃ l, exec .mxldwStart s = .next (arrNow s c { a with shadowSt := .filling, queue := l }) ∧ { q with started := true } ∈ l
        ∧ (l.map fun x => (x.num, x.op)) = (a.queue.map fun x => (x.num, x.op)))
    ∧ (q.op = .ldw → free1st l1 .ldw [] → q.started = true → a.shadowSt = .filling → (s.core c).held (hBase q.handle) (hEnd q.handle) = false →
      ∃ u, exec .weightLoadComplete s = .next u ∧ (u.core c).arr.shadowSt = .full ∧ (u.core c).arr.live = a.live
        ∧ (let w := (u.core c).arr.shadow
           w.valid = true ∧ w.undef = false ∧ w.fmt = hFmt q.handle ∧ w.scales = q.scales
           ∧ ∀ i < mxK (mxClass (hFmt q.handle)), ∀ j < 256,
             let r0 := q.word.toNat % 1024 + i
             let c0 := q.word.toNat / 65536 % 4096 + j
             w.at i j = if r0 < hRows q.handle ∧ c0 < hCols q.handle then s.tileElem (s.core c) q.handle r0 c0 else 0)
        ∧ (u.core c).tiles = ((s.core c).dropCompute q.treg.toNat).tiles ∧ (u.core c).tile = (s.core c).tile
        ∧ ∀ d, d ≠ c → u.core d = s.core d)
    ∧ (q.op = .swap → free1st l1 .swap [.ldw] → a.shadowSt = .full →
      ∃ u, exec .mxswapPerform s = .next u ∧ (u.core c).arr.live = a.shadow ∧ (u.core c).arr.shadowSt = .empty
        ∧ (u.core c).arr.shadow.valid = false ∧ (∀ x ∈ (u.core c).arr.queue, x ∈ a.queue ∧ ¬ (x.op = .swap ∧ x.num = q.num))
        ∧ ∀ d, d ≠ c → u.core d = s.core d)

/-- R52, R187, R196, R197: a stream's first and last rows enter with the sums of R52, its tile source releases with the last. -/
def Sys2Proof.Claims.ArrayRowsEnter : Prop :=
  ∀ s c l1 q l2, s.req.core = c → c < 64 → (s.core c).arr.queue = l1 ++ q :: l2 → (s.core c).arr.fault = none → q.op = .mul →
    (∀ x ∈ l1 ++ l2, x.op = .mul → x.num ≠ q.num) → (s.core c).resultsHeld = false →
    let a := (s.core c).arr
    let K := mxK (mxClass a.live.fmt)
    let entered := fun (u : State) (i : Nat) => ∃ r, (u.core c).arr.pipe = a.pipe ++ [r] ∧ r.num = q.num ∧ r.row = i ∧ r.left = false
      ∧ r.dst = (if q.acc then .bank (q.word.toNat / 256 % 2) (q.word.toNat / 512 % 8) q.z else .fin q.pair)
      ∧ (a.live.undef = false → ∀ j < 256, r.vals[j]? = some (arraySum (hFmt q.handle)
          ((List.range K).map fun k => if i < hRows q.handle ∧ k < hCols q.handle then s.tileElem (s.core c) q.handle i k else 0)
          a.live (q.word.toNat % 256) j))
    (q.ten = false → (s.core c).held (hBase q.handle) (hEnd q.handle) = false →
      (free1st l1 .mul [.swap] → q.entered = false → a.stream = none → a.disabled.length ≤ 8 → a.live.valid = true → s.seqHeld c = false →
        a.entering = [] → (q.acc = true ∨ ∃ e t, a.epi = e :: t ∧ e.isFence = false ∧ e.pair = q.pair) →
        ∃ u, exec .streamEnter s = .next u ∧ (u.core c).arr.stream = some ⟨q.num, 1, false, 0⟩ ∧ entered u 0 ∧ (u.core c).tile = (s.core c).tile
          ∧ (u.core c).arr.live = a.live ∧ ∀ d, d ≠ c → u.core d = s.core d)
      ∧ (∀ w, a.stream = some ⟨q.num, 63, false, w⟩ →
        ∃ u, exec .streamLastRow s = .next u ∧ (u.core c).arr.stream = none ∧ entered u 63
          ∧ (u.core c).arr.queue = l1 ++ { q with entered := true } :: l2
          ∧ (u.core c).tiles = ((s.core c).dropCompute q.treg.toNat).tiles ∧ ∀ d, d ≠ c → u.core d = s.core d))
    ∧ (q.ten = true → ∀ n r w k va pte, a.stream = some ⟨q.num, n, false, r⟩ →
        (s.core c).unit = some w → ctxSlot w.part w.ctx.toNat < 256 →
        s.rowFault c q.num (s.rowScan c (s.core c).unitCtx r q.desc n K) = some (k, va, pte) →
        ∃ u, exec .streamOperandFault s = .next u ∧ (u.core c).arr.fault = some .operand ∧ (u.core c).arr.stream = some ⟨q.num, n, true, r⟩
          ∧ (u.core c).arr.rowprog = BitVec.ofNat 64 (q.num * 2 ^ 32 ||| 0x80 ||| n) ∧ faultRaised u (s.core c).unitCtx (.array c) k)

/-- R187, R197, R198, R204: the oldest row leaves the array, and lands in its bank or in a band's RESULT queue. -/
def Sys2Proof.Claims.ArrayRowsLeave : Prop :=
  ∀ s c l1 r l2, s.req.core = c → c < 64 → (s.core c).arr.pipe = l1 ++ r :: l2 →
    let a := (s.core c).arr
    ((∀ x ∈ l1, x.left = true) → r.left = false →
      ((∀ i rs, r.dst ≠ .queues i rs) → exec .streamRowResult s = .next (arrNow s c { a with pipe := l1 ++ { r with left := true } :: l2 }))
      ∧ (∀ i rs k n b, r.dst = .queues i rs → rs[r.row % rs.length]? = some k → (s.core c).gangBand i k = some (n, b) → s.band c n = some b →
          (b.resultQ.length ≤ 6 → ∃ u e0 e1, exec .streamRowResult s = .next u ∧ (u.core c).arr.pipe = l1 ++ l2
            ∧ u.band c n = some { b with resultQ := b.resultQ ++ [e0, e1] } ∧ e0.length = 64 ∧ e1.length = 64
            ∧ (∀ st < 64, e0[st]? = some (BitVec.ofNat 64 (r.vals.getD (2 * st) 0 ||| r.vals.getD (2 * st + 1) 0 * 2 ^ 32))
                ∧ e1[st]? = some (BitVec.ofNat 64 (r.vals.getD (128 + 2 * st) 0 ||| r.vals.getD (128 + 2 * st + 1) 0 * 2 ^ 32)))
            ∧ ∀ d, d ≠ c → u.core d = s.core d)
          ∧ (7 ≤ b.resultQ.length → exec .streamRowResult s = .next s)))
    ∧ (∀ b blk z, r.left = true → r.dst = .bank b blk z → (∀ x ∈ l1, x.left = false ∨ ∀ b blk z, x.dst ≠ .bank b blk z) → b ≤ 1 →
        (a.bank b).wf = true → r.vals.length = 256 →
        ∃ u, exec .accBankWrite s = .next u ∧ (u.core c).arr.pipe = l1 ++ l2 ∧ (u.core c).arr.bank (1 - b) = a.bank (1 - b)
          ∧ (∀ j < 256, u.bankElem (u.core c).arr b (64 * blk + r.row) j =
              let old := s.bankElem a b (64 * blk + r.row) j
              let v := r.vals.getD j 0
              (if z then v else if r.isInt then (old + v) % 2 ^ 32 else arrAdd old v) % 2 ^ 32)
          ∧ (∀ x, (x < 1024 * (64 * blk + r.row) ∨ 1024 * (64 * blk + r.row) + 1024 ≤ x) → ((u.core c).arr.bank b).read x = (a.bank b).read x)
          ∧ (∀ x ∈ (u.core c).arr.queue, x ∈ a.queue) ∧ ∀ d, d ≠ c → u.core d = s.core d)

/-- R203, R237, R238: a joint operation enters at a multiple of its class's II once every named band has arrived with its operands; they are
consumed as the rows enter: the first row, with the sums of R52, and then one row an event. -/
def Sys2Proof.Claims.JointEnters : Prop :=
  ∀ s c j (bs : List (Nat × Band)), s.req.core = c → c < 64 → (s.core c).arr.joint = some j →
    let a := (s.core c).arr
    let ty := j.ty.toNat
    let cls := mxClass ty
    let named := (List.range 6).filter fun r => j.desc.getLsbD r
    let n := named.length
    let rho := if cls = 4 then 1 else 2
    let share := fun (m : Nat) => (64 / rho + n - 1 - m) / n
    bs.length = n → (∀ m b, bs[m]? = some b → (s.core c).gangBand j.inv (named.getD m 0) = some b ∧ share m ≤ b.2.mmjQ.length
      ∧ s.band c b.1 = some b.2) → (bs.map fun b => b.1).Nodup → n ≤ j.arrived.length →
    s.cycle % (if cls = 4 then 256 else 64) = 0 → a.stream = none → a.streamReady = none → a.fault = none → a.live.valid = true →
    mxClass a.live.fmt = cls → a.entering = [] → (s.core c).resultsHeld = false →
    ∃ u e es, exec .jointOpEnter s = .next u ∧ (u.core c).arr.joint = none ∧ (u.core c).arr.pipe = a.pipe ++ [e.1] ∧ (u.core c).arr.entering = es
      ∧ (e :: es).length = 64
      ∧ (∀ i x, (e :: es)[i]? = some x → let r := x.1
          x.2 = (if i % rho = rho - 1 then some (j.inv, named.getD (i / rho % n) 0) else none) ∧ r.row = i ∧ r.left = false ∧ r.num = 0
          ∧ r.dst = (if j.desc.getLsbD 16 then .bank (j.desc.toNat / 2 ^ 17 % 2) (j.desc.toNat / 2 ^ 18 % 8) (j.desc.getLsbD 21) else .queues j.inv named)
          ∧ (a.live.undef = false → ∀ k < 256, r.vals[k]? = some (arraySum ty
              (jointRow ty ((((bs[i / rho % n]?).map fun b => b.2.mmjQ.getD (i / rho / n) []).getD [])) i) a.live (j.desc.toNat / 256 % 256) k)))
      ∧ (∀ m (b : Nat × Band), bs[m]? = some b → u.band c b.1 = some { b.2 with mmjQ := b.2.mmjQ.drop (if cls = 4 ∧ m = 0 then 1 else 0) })
      ∧ ∀ d, d ≠ c → u.core d = s.core d

/-- R203, R238: the next row of a joint operation enters, and an operand entry is consumed with its last row; none enters while result rows wait
for a full queue. -/
def Sys2Proof.Claims.JointGoesOn : Prop :=
  ∀ s c r (used : Option (Nat × Nat)) t, s.req.core = c → c < 64 → (s.core c).arr.entering = (r, used) :: t → (s.core c).arr.fault = none →
    let a := (s.core c).arr
    ((s.core c).resultsHeld = true → exec .jointOpEnter s = .next s)
    ∧ ((s.core c).resultsHeld = false → ∃ u, exec .jointOpEnter s = .next u ∧ (u.core c).arr = { a with pipe := a.pipe ++ [r], entering := t }
        ∧ (∀ i k n b, used = some (i, k) → (s.core c).gangBand i k = some (n, b) → s.band c n = some b →
            u.band c n = some { b with mmjQ := b.mmjQ.drop 1 })
        ∧ (used = none → (u.core c).bands = (s.core c).bands) ∧ ∀ d, d ≠ c → u.core d = s.core d)

/-- R187 to R205, R237, R238: the array takes weights and rows and gives results, alone and jointly; an uncorrectable error invalidates both
latches, makes the array FAULTED, sets HEALTH.UEF and, with the ninth disabled row, REPLACE and DEGR. -/
def Obligations.ArrayRuns : Prop :=
  Sys2Proof.Claims.ArrayWeights ∧ Sys2Proof.Claims.ArrayRowsEnter ∧ Sys2Proof.Claims.ArrayRowsLeave ∧ Sys2Proof.Claims.JointEnters
  ∧ Sys2Proof.Claims.JointGoesOn
  ∧ ∀ s c, s.req.core = c → c < 64 → let a := (s.core c).arr
    (8 < a.disabled.length → exec .ueArray s = .next (arrNow s c { a with disabled :=
        if s.req.n = 0 ∨ 264 < s.req.n ∨ s.req.n - 1 ∈ a.disabled then a.disabled else a.disabled ++ [s.req.n - 1] }))
    ∧ (a.disabled.length ≤ 8 → ∃ u, exec .ueArray s = .next u ∧ (u.core c).arr.live.valid = false ∧ (u.core c).arr.shadow.valid = false
        ∧ (u.core c).arr.shadowSt = .empty ∧ (u.core c).arr.fault = some .ue ∧ u.health.getLsbD 70 = true
        ∧ (let n := s.req.n
           (n = 0 ∨ 264 < n ∨ n - 1 ∈ a.disabled → (u.core c).arr.disabled = a.disabled)
           ∧ (0 < n → n ≤ 264 → n - 1 ∉ a.disabled → (u.core c).arr.disabled = a.disabled ++ [n - 1]
              ∧ (a.disabled.length = 8 → u.health.getLsbD 64 = true ∧ u.health.getLsbD 65 = true)))
        ∧ (∀ w, (s.core c).unit = some w → ctxSlot w.part w.ctx.toNat < 256 → faultRaised u (s.core c).unitCtx (.array c) .ueArray)
        ∧ ∀ d, d ≠ c → u.core d = s.core d)

/-- R207 to R212: the epilogue's head starts, writes one output row at a time from its bank or its stream, and retires: the tile goes READY
and the status bits are merged into the parameter block. -/
def Obligations.EpilogueRuns : Prop :=
  ∀ s c e t, s.req.core = c → c < 64 → (s.core c).arr.epi = e :: t → e.isFence = false →
    let a := (s.core c).arr
    let clear := fun (h : Word) => (s.core c).held (hBase h) (hEnd h) = false
    let bit := fun (n : Nat) => e.block.getLsbD n
    let field := fun (lo n : Nat) => e.block.toNat / 2 ^ lo % 2 ^ n
    let row := fun (u : State) (isInt : Bool) (vals : Nat → Nat) =>
      (∀ d, d ≠ c → u.core d = s.core d)
      ∧ (∃ st, (u.core c).arr.epi = { e with nextRow := e.nextRow + 1, stat := e.stat ||| st } :: t)
      ∧ (hRows e.handle ≤ e.nextRow → (u.core c).tile = (s.core c).tile)
      ∧ (e.nextRow < hRows e.handle → fmtWidth (hFmt e.handle) ∈ [4, 8, 16, 32] → (s.core c).tile.wf = true → ∀ o, Fmt.ofCode (field 0 5) = some o →
          o.width = fmtWidth (hFmt e.handle) →
          ∀ j < min 256 (hCols e.handle), u.tileElem (u.core c) e.handle e.nextRow j =
            let sc := if bit 33 then e.scales.getD j 0 else 0x3F800000
            let bi := if bit 34 then (if j < hCols e.biasHandle then s.tileElem (s.core c) e.biasHandle 0 j else 0) else 0x80000000
            (epiElem isInt sc bi (field 12 3) (field 128 32) (field 96 32) (fun n => e.lut.getD n 0) o (bit 15) (vals j)).1 % 2 ^ o.width)
    (e.started = false → s.seqHeld c = false → exec .epiStart s = .next (arrNow s c { a with epi := { e with started := true } :: t }))
    ∧ (e.started = true → e.nextRow < 64 → clear e.handle → (bit 34 = true → clear e.biasHandle) →
        (field 22 2 = 1 → ∃ u, exec .epiRowWrite s = .next u ∧ (u.core c).arr.pipe = a.pipe
          ∧ row u (bit 32) fun j => s.bankElem a (field 21 1) (64 * field 18 3 + e.nextRow) j)
        ∧ (∀ l1 r l2, field 22 2 ≠ 1 → a.pipe = l1 ++ r :: l2 → (∀ x ∈ l1, x.left = false ∨ x.dst ≠ .fin e.pair) → r.left = true → r.dst = .fin e.pair →
            r.row = e.nextRow → ∃ u, exec .epiRowWrite s = .next u ∧ (u.core c).arr.pipe = l1 ++ l2 ∧ row u r.isInt fun j => r.vals.getD j 0))
    ∧ (64 ≤ e.nextRow → ∃ u, exec .epiRetire s = .next u ∧ (∀ x ∈ (u.core c).arr.epi, x ∈ t) ∧ ((u.core c).entry e.treg.toNat).st = .ready
        ∧ ((s.core c).scalar.wf = true → natOfBytes (u.scalarBytes (u.core c) (e.addr + 56) 8)
            = (natOfBytes (s.scalarBytes (s.core c) (e.addr + 56) 8) ||| e.stat) % 2 ^ 64)
        ∧ (u.core c).tile = (s.core c).tile ∧ ∀ d, d ≠ c → u.core d = s.core d)
    ∧ (e.nextRow < 64 → exec .epiRetire s = .next s)

namespace Sys2Proof.Claims

/-! ### Words for pennants, barriers and pages -/

/-- The band of core `c` in slot `n` has gone on to its next instruction in `u`, and no other band of the core has changed. -/
def wentOn (s u : State) (c n : Nat) (b b' : Band) : Prop :=
  s.band c n = some b ∧ u.band c n = some b' ∧ b'.pc = b.pc + 8 ∧ b'.wait = .none ∧ b'.live = b.live

/-- The register `d` of a band holds a word in every live strand (R81): `B0` and register 0 of no file are written. -/
def tookWord (b b' : Band) (d : BitVec 8) (w : Word) : Prop :=
  (d = 0 → b'.v = b.v ∧ b'.b = b.b)
  ∧ (d ≠ 0 → isB d = true → b'.v = b.v ∧ (1 ≤ bNum d → bNum d < 112 → b'.breg (bNum d) = w))
  ∧ (d ≠ 0 → isB d = false → ∀ st < 64, b.live.getLsbD st = true → b'.vreg d.toNat st = some w)

/-- A pennant's word after a release (R298, R311): the sequence number goes up by one, the value as VOP says. -/
def released (w : Word) (vop : BitVec 2) (v : BitVec 32) : Nat :=
  let old := w.toNat % 2 ^ 32
  2 ^ 63 + ((w.toNat / 2 ^ 32 + 1) % 2 ^ 30) * 2 ^ 32
    + (if vop = 0 then old else if vop = 1 then (old + v.toNat) % 2 ^ 32 else if vop = 2 then old ||| v.toNat else v.toNat)

/-- The sequence number has come to the target: not more than half the range behind (R298). -/
def reached (w : Word) (target : BitVec 30) : Prop := (w.toNat / 2 ^ 32 + 2 ^ 30 - target.toNat) % 2 ^ 30 < 2 ^ 29

/-- No link queue of any core is in use. -/
def idleLinks (s : State) : Prop := ∀ c < 64, (s.core c).rq = [] ∧ ∀ l ∈ (s.core c).lq.toList, l = []
/-- No packet of another device and no link queue waits for anything. -/
def calm (s : State) : Prop := s.peers = [] ∧ idleLinks s

/-- The device without message `n` of the barrier's upward messages. -/
def withoutMsg (s : State) (n : Nat) : State := { s with barMsgs := s.barMsgs.eraseIdx n }

end Sys2Proof.Claims

/-- R297, R298, R310, R311: a pennant operation is performed on its home word: an acquire takes the word once its condition holds and waits
until then, a release raises the sequence number and answers the waiters that it lets go; a free word is PENNANT_FREE, a forward word is
asked of its device. -/
def Sys2Proof.Claims.PennantsPerform : Prop :=
  ∀ s o, idleLinks s → (s.pens.find? fun p => p.id = s.req.n) = some o → s.penLives o = true → o.pkt = none → o.waiting = false →
    let i := Instr.pennantOperationPerform
    let w := BitVec.ofNat 64 (s.homeNat o.home o.addr 8)
    let own := w.getLsbD 63 = true ∧ w.getLsbD 62 = false
    let rest := s.pens.filter fun p => p.id ≠ o.id
    (o.acquire = true → o.forward = none → s.penReady o = true → own →
      (o.ge = false ∨ reached w o.target → ∀ c n b, o.who = .band c n → c < 64 → s.band c n = some b →
        ∃ u b', exec i s = .next u ∧ wentOn s u c n b b' ∧ tookWord b b' o.dst w ∧ u.pens = rest ∧ memSame s u ∧ ∀ d, d ≠ c → u.core d = s.core d)
      ∧ (o.ge = true → ¬ reached w o.target →
          ((s.pens.filter fun p => p.waiting && s.penLives p && p.home = o.home).length < 512 → ∃ l, exec i s = .next { s with pens := l }
            ∧ { o with waiting := true } ∈ l ∧ l.length = s.pens.length)
          ∧ (512 ≤ (s.pens.filter fun p => p.waiting && s.penLives p && p.home = o.home).length → exec i s = .next s)))
    ∧ (o.acquire = false → o.forward = none → s.penReady o = true → own → o.home ≤ 1 → ∀ c n b, o.who = .band c n → c < 64 → s.band c n = some b →
        (∀ p ∈ s.pens, p.waiting = true → ∃ d m, p.who = .band d m ∧ (d, m) ≠ (c, n)) →
        ∃ u b', exec i s = .next u ∧ wentOn s u c n b b' ∧ b'.v = b.v ∧ b'.b = b.b
          ∧ u.home o.home = (s.home o.home).writeBytes o.addr (bytesOfNat 8 (released w o.vop o.val))
          ∧ u.home (1 - o.home) = s.home (1 - o.home) ∧ ∀ p ∈ u.pens, p ∈ rest)
    ∧ (o.forward = none → s.penReady o = true → w.getLsbD 63 = false → ∀ c n b, o.who = .band c n → c < 64 → s.band c n = some b → b.slot < 256 →
        ∃ u, exec i s = .next u ∧ faultRaised u b.slot (.band c n) .pennantFree ∧ u.pens = rest)
    ∧ (s.penReady o = false → exec i s = .next s)
    ∧ (∀ x id bs, o.forward = some x → o.remote = some id → s.penReady o = true → s.reqStat id = .answered bs → ∀ c n b, o.who = .band c n → c < 64 →
        s.band c n = some b → b.slot < 256 →
        ((BitVec.ofNat 64 (natOfBytes bs)).getLsbD 63 = true → o.acquire = true → ∃ u b', exec i s = .next u ∧ wentOn s u c n b b'
          ∧ tookWord b b' o.dst (BitVec.ofNat 64 (natOfBytes bs)) ∧ u.pens = rest)
        ∧ ((BitVec.ofNat 64 (natOfBytes bs)).getLsbD 63 = false → ∃ u, exec i s = .next u ∧ faultRaised u b.slot (.band c n) .pennantFree ∧ u.pens = rest))

/-- R298, R380: an operation whose band is gone or no longer waits for it is withdrawn; one that another device asked for under a key that has been
revoked meanwhile is refused, also while it waits. -/
def Sys2Proof.Claims.PennantsWithdrawn : Prop :=
  ∀ s o, (s.pens.find? fun p => p.id = s.req.n) = some o →
    (∀ c n, o.who = .band c n → ((∃ b, s.band c n = some b ∧ b.wait = .pennant o.id) ↔ s.penLives o = true))
    ∧ (s.penLives o = false → exec .pennantOperationPerform s = .next { s with pens := s.pens.filter fun p => p.id ≠ o.id })
    ∧ (∀ p src seq, o.who = .packet src seq → o.pkt = some p → o.forward = none → s.regionOf p = .error 1 →
        exec .pennantOperationPerform s = .next ({ s with pens := s.pens.filter fun p => p.id ≠ o.id }.nack src seq 1))

/-- R15, R315 to R318: messages from one node to another arrive in order; a node's first arrival latches its operands, the last one completes it: at its own level the phase turns, below it an
arrival goes up; what comes early is held; a flip lets the bands at a leaf go on, and reaches the nodes below a root. -/
def Sys2Proof.Claims.BarrierTree : Prop :=
  (∀ s m, s.barMsgs[s.req.n]? = some m → (∃ q ∈ s.barMsgs.take s.req.n, q.from' = m.from') → exec .barrierArrival s = .next s)
  ∧ (∀ s m, s.barMsgs[s.req.n]? = some m → 1 ≤ m.level → m.level ≤ 2 → (∀ q ∈ s.barMsgs.take s.req.n, q.from' ≠ m.from') →
    let i := Instr.barrierArrival
    let s' := withoutMsg s s.req.n
    let x := s'.node m.level m.node
    let a := m.arrival
    let need := if m.level = 1 then a.ops.dcnt.toNat + 1 else a.ops.ccnt.toNat + 1
    let done := fun (x : BarNode) => if a.ops.lvl.toNat = m.level
      then { s'.setNode m.level m.node { x with st := .flipping } with barFlips := s.barFlips ++ [⟨m.level, m.node⟩] }
      else { s'.setNode m.level m.node { x with st := .armed } with
        barMsgs := s'.barMsgs ++ [⟨2, a.ops.rid.toNat, { a with src := m.node }⟩] }
    (x.st = .idle → 1 < need → exec i s = .next (s'.setNode m.level m.node { x with st := .collecting, latched := some a, came := [a.src] }))
    ∧ (x.st = .idle → need = 1 → m.level = 1 ∨ a.ops.lvl = 2 → exec i s = .next (done { x with latched := some a, came := [a.src] }))
    ∧ (∀ l, x.st = .collecting → x.latched = some l → l.ctx = a.ctx → l.ops = a.ops →
        (x.came.length + 1 < need → exec i s = .next (s'.setNode m.level m.node { x with came := x.came ++ [a.src] }))
        ∧ (x.came.length + 1 = need → m.level = 1 ∨ a.ops.lvl = 2 → exec i s = .next (done { x with came := x.came ++ [a.src] })))
    ∧ (x.st = .armed ∨ x.st = .flipping → exec i s = .next (s'.setNode m.level m.node { x with held := x.held ++ [a] })))
  ∧ (∀ s, s.barMsgs[s.req.n]? = none → exec .barrierArrival s = .next s)
  ∧ (∀ s f, s.barFlips[s.req.n]? = some f → f ∈ s.barFlips.take s.req.n → exec .barrierFlip s = .next s)
  ∧ (∀ s f, s.barFlips[s.req.n]? = some f → f ∉ s.barFlips.take s.req.n →
    let x := s.node f.level f.node
    (f.level = 0 → x.st = .flipping → x.held = [] → f.node < 4096 → x.came.Nodup → (∀ n ∈ x.came, n < 128) →
      ∃ u, exec .barrierFlip s = .next u ∧ (u.node 0 f.node).st = .idle ∧ (u.node 0 f.node).ph = !x.ph ∧ (u.node 0 f.node).came = []
        ∧ (∀ n ∈ x.came, ∀ b, s.band (f.node / 64) n = some b → b.wait = .bar (f.node % 64) →
            ∃ b', u.band (f.node / 64) n = some b' ∧ b'.pc = b.pc + 8 ∧ b'.wait = .none ∧ b'.v = b.v)
        ∧ (∀ n, n ∉ x.came → (u.band (f.node / 64) n).map (fun b => (b.pc, b.wait)) = (s.band (f.node / 64) n).map fun b => (b.pc, b.wait))
        ∧ memSame s u)
    ∧ (f.level = 2 → x.st = .flipping → x.held = [] → ∃ u, exec .barrierFlip s = .next u ∧ (u.node 2 f.node).st = .idle ∧ (u.node 2 f.node).ph = !x.ph
        ∧ ∀ n ∈ x.came, (u.node 1 n).st = .flipping ∧ ⟨1, n⟩ ∈ u.barFlips)
    ∧ (x.st ≠ .flipping → exec .barrierFlip s = .next { s with barFlips := s.barFlips.eraseIdx s.req.n }))

/-- R226, R228, R283, R375, R436, R404: a staged push reaches its endpoint; a refused access halts its band with the refused strands; a
host access that has no answer in time is refused with LINK_FAILED; a patching sequencer fetches again. -/
def Sys2Proof.Claims.LateAnswers : Prop :=
  (∀ s c n b l1 q entry l2, s.req.core = c → s.req.n = n → c < 64 → s.band c n = some b → b.staging = l1 ++ (q, entry) :: l2 →
    (∀ x ∈ l1, s.qRoom c b x.1 = false ∧ b.endpoint x.1 ≠ b.endpoint q) → ∀ e, aget b.q q = some e →
    (e.kind = 2 → b.mmjQ.length < 32 → ∃ u b', exec .queueEndpointAccept s = .next u ∧ u.band c n = some b' ∧ b'.staging = l1 ++ l2
      ∧ b'.mmjQ = b.mmjQ ++ [entry] ∧ aget b'.q q = some { e with pushes := e.pushes + 1 } ∧ b'.pc = b.pc ∧ b'.v = b.v)
    ∧ (e.kind = 3 → e.ch < 4 → ((s.core c).chan e.ch).length < 16 → ∃ u b' m, exec .queueEndpointAccept s = .next u ∧ u.band c n = some b'
      ∧ b'.staging = l1 ++ l2 ∧ (u.core c).chan e.ch = (s.core c).chan e.ch ++ [m] ∧ m.op = .push ∧ m.st = .queued ∧ m.data = entry
      ∧ m.base = e.word + BitVec.ofNat 64 (512 * e.pushes) ∧ m.issuer = .band c n ∧ m.ctx = b.slot))
  ∧ (∀ s c n b a p id k, s.req.core = c → s.req.n = n → c < 64 → s.band c n = some b → b.slot < 256 → b.inv = none → b.parkRec = none → b.st ≠ .free → b.st ≠ .done →
      (b.acc.find? fun a => a.id = s.req.m) = some a → a.pieces = [p] → p.remote = some id → s.reqStat id = .refused k → p.strand < 64 →
      ∃ u b', exec .refusalReport s = .next u ∧ u.band c n = some b' ∧ b'.st = .halted ∧ b'.halt = .fault ∧ b'.faultMask = BitVec.ofNat 64 (2 ^ p.strand)
        ∧ b'.faultPc = a.pc ∧ (∀ x ∈ b'.acc, x.id ≠ a.id) ∧ faultRaised u b.slot (.band c n) k)
  ∧ (∀ s r, aget s.remote s.req.n = some r → r.host = true → r.stat = .waiting → calm s → r.who ≠ .none →
      exec .hostAccessTimeout s = .next { s with remote := aput s.remote s.req.n { r with stat := .refused .linkFailed } })
  ∧ (∀ s, aget s.remote s.req.n = none → exec .hostAccessTimeout s = .next s)
  ∧ ∀ s, exec .ipatchComplete s = .next (s.setCore (s.req.core % 64)
      { s.core (s.req.core % 64) with seq := { (s.core (s.req.core % 64)).seq with patching := false } })

/-- R226, R228, R283, R297, R298, R310, R311, R315 to R318, R404, R436: pennant operations, barrier messages and late answers. -/
def Obligations.SynchronizationEvents : Prop :=
  Sys2Proof.Claims.PennantsPerform ∧ Sys2Proof.Claims.PennantsWithdrawn ∧ Sys2Proof.Claims.BarrierTree ∧ Sys2Proof.Claims.LateAnswers

/-- R273: the copy of a migrating page ends with the leaf entry at its new frame, RESIDENT again with its permissions; a copy that fails
leaves the page POISONED. -/
def Sys2Proof.Claims.PagesMove : Prop :=
  ∀ s g, (s.migs.find? fun m => m.id = s.req.n) = some g → g.ctx < 256 → g.ehome ≤ 1 → g.home ≤ 1 →
    (g.acked = false → exec .migrateCopyFail s = .next s)
    ∧ (g.acked = true → calm s → ∃ u, exec .migrateCopyFail s = .next u ∧ (∀ m ∈ u.migs, m.id ≠ g.id) ∧ u.health.getLsbD 70 = true
        ∧ ∃ r ∈ (u.part (g.ctx / 16)).sluices, (r.record.map fun f => f.kind) = some .uePage)
    ∧ (∀ t, s.tlr none g.ctx g.tensor = .ok t →
        (g.acked = false → exec .migrateCopyComplete s = .next s)
        ∧ (g.acked = true → baseHome g.old ≤ 1 → calm s → ∃ u, exec .migrateCopyComplete s = .next u ∧ (∀ m ∈ u.migs, m.id ≠ g.id)
            ∧ (let moved := (s.home g.home)
               let copied := (s.home (baseHome g.old)).blit (baseFrame g.old * 4096) (tlrPage t) moved (g.frame * 4096)
               let before : State := s.setHome g.home copied
               ∀ h, h ≤ 1 → u.home h = (if h = g.ehome then (before.home h).writeBytes g.eaddr
                 (bytesOfNat 8 (2 ^ 63 ||| g.home * 2 ^ 61 ||| (before.homeNat g.ehome g.eaddr 8 &&& 31 * 2 ^ 43) ||| g.frame)) else before.home h))
            ∧ u.cores = s.cores))

/-- R105, R121, R362: in RECOVERING the next logged input is delivered again: a control-node write changes the same bytes, a kernel
boundary passes, a fragment lands once a receive is open for it, a response answers its request, a decision waits for its sluice; with none left the context RUNS and vector 3 is raised. -/
def Sys2Proof.Claims.InputsReplay : Prop :=
  ∀ s x, x < 256 → s.req.part % 16 = x / 16 → s.req.ctx % 16 = x % 16 →
    ((s.ctx x).st ≠ .recovering → exec .replayInputDeliver s = .next s)
    ∧ ((s.ctx x).st = .recovering → (s.ctx x).replay = [] → (s.ctx x).active = true → calm s → (s.ctx x).liveResps = [] →
        (∀ l ∈ (s.ctx x).launches, l.2.st = .pending ∨ (l.2.st = .running ∧ l.2.vector = none ∧ l.2.taskEnded = false)) →
        ∃ u, exec .replayInputDeliver s = .next u ∧ (u.ctx x).st = .running ∧ (u.part (x / 16)).vecs.getLsbD 3 = true ∧ u.cores = s.cores)
    ∧ (∀ e f rest, (s.ctx x).st = .recovering → (s.ctx x).replay = e :: f :: rest →
        (e.kind = 5 → (s.ctx x).replayLive = false → exec .replayInputDeliver s = .next s)
        ∧ (e.kind = 1 ∨ e.kind = 6 ∨ (e.kind = 5 ∧ (s.ctx x).replayLive = true) →
            exec .replayInputDeliver s = .next (s.onCtx x fun k => { k with replay := f :: rest }))
        ∧ (e.kind = 3 → let q := natOfBytes (e.payload.take 8) % 16
            let msg := natOfBytes (e.payload.take 8) / 256 % 2 ^ 24
            ((∀ p ∈ ((s.core e.core).recvQ q).pulls, p.msg ≠ msg) → exec .replayInputDeliver s = .next s)
            ∧ ((∃ p ∈ ((s.core e.core).recvQ q).pulls, p.msg = msg) → exec .replayInputDeliver s = .next
                ((s.takeFragment e.core q msg (natOfBytes (e.payload.take 8) / 2 ^ 32 % 2 ^ 32) (e.payload.drop 8)).dropReplay x)))
        ∧ (e.kind = 4 → (Packet.ofBytes e.payload).op = 0x06 → s.replayTarget x (Packet.ofBytes e.payload) = none →
            exec .replayInputDeliver s = .next s)
        ∧ (e.kind = 4 → (Packet.ofBytes e.payload).op = 0x06 → calm s → ∀ r, s.replayTarget x (Packet.ofBytes e.payload) = some r →
            r.2.who ≠ .none → aget s.remote r.1 = some r.2 → exec .replayInputDeliver s = .next
              ({ s with remote := aput s.remote r.1 { r.2 with stat := .answered (Packet.ofBytes e.payload).payload } }.onCtx x fun k => { k with replay := f :: rest }))
        ∧ (e.kind = 2 → ∀ t, s.frontWrite x (BitVec.ofNat 64 (natOfBytes (e.payload.take 8))) (e.payload.drop 8) = .ok t → t.ctx x = s.ctx x →
            exec .replayInputDeliver s = .next (t.onCtx x fun k => { k with replay := f :: rest })))

/-- R105, R121, R273, R362: pages move, and a context in recovery takes its inputs from the log. -/
def Obligations.PagesAndReplay : Prop := Sys2Proof.Claims.PagesMove ∧ Sys2Proof.Claims.InputsReplay

/-- R411, R417, R414, R415, R122, R273, R214: module reset, the clock controller, failures and uncorrectable errors. -/
def Obligations.ModuleEvents : Prop :=
  (∀ s, let u := exec .moduleReset s
    ∃ t, u = .next t ∧ t.hbm = Memory.zero ∧ t.pkg = Memory.zero ∧ t.pst = 0 ∧ (∀ p < 16, { t.part p with vecs := 0 } = Partition.reset)
      ∧ t.ctxs = Vector.replicate 256 Context.reset ∧ t.ports = Vector.replicate 16 Port.reset ∧ t.e2et = 50
      ∧ t.fuses = s.fuses ∧ t.counter = s.counter
      ∧ (∀ c < 64, (t.core c).tile = Memory.zero ∧ (t.core c).scalar = Memory.zero ∧ (t.core c).unit = none ∧ (t.core c).bands = [])
      ∧ (s.req.value.testBit 0 = true → s.minVersion ≤ s.req.n → t.fwStatus = .ok ∧ t.fwVersion = s.req.n)
      ∧ (s.req.value.testBit 0 = false → s.req.value.testBit 1 = true → s.minVersion ≤ s.req.m → t.fwStatus = .ok ∧ t.fwVersion = s.req.m)
      ∧ (s.req.value.testBit 0 = false → s.req.value.testBit 1 = false → t.fwStatus = .fwSignature)
      ∧ (∀ n < 16, t.health.getLsbD (96 + n) = s.req.addr.testBit n))
  ∧ (∀ s, s.req.value < 45 ∨ s.pst = 4 →
      exec .clockControllerTick s = .next { s with temp := s.req.value, fcur := if 3 ≤ s.pst then s.fcur else nextClock s.pst s.fmax s.req.value s.fcur })
  ∧ (∀ s, 45 ≤ s.req.value → s.pst ≠ 4 → ∃ u, exec .clockControllerTick s = .next u ∧ u.pst = 4 ∧ u.temp = s.req.value ∧ u.hbm = Memory.zero
      ∧ u.pkg = Memory.zero ∧ u.health.getLsbD 71 = true ∧ u.health.getLsbD 64 = true ∧ ∀ c < 64, (u.core c).tile = Memory.zero)
  ∧ (∀ pst fmax temp f, 24 ≤ fmax → fmax ≤ 36 → 24 ≤ f → f ≤ 36 → let g := nextClock pst fmax temp f
      24 ≤ g ∧ g ≤ 36 ∧ g ≤ f + 1 ∧ f ≤ g + 1 ∧ (pst = 1 → fmax < f → g = f - 1))
  ∧ (∀ s, let c := s.req.core % 64
      ∃ u, exec .coreFailure s = .next u ∧ (u.core c).failed = true ∧ u.health.getLsbD c = true ∧ u.health.getLsbD 64 = true
        ∧ (∀ d, d ≠ c → u.core d = s.core d) ∧ memSame s u)
  ∧ (∀ s, ∃ u, exec .hbmChannelFailure s = .next u ∧ u.health.getLsbD (96 + s.req.n % 16) = true ∧ u.health.getLsbD 64 = true ∧ u.cores = s.cores)
  ∧ (∀ s n b, let c := s.req.core % 64
      s.req.n = n → s.band c n = some b → b.st ≠ .done → b.unfinished = none → b.slot < 256 →
      let m := BitVec.ofNat 64 s.req.value &&& ~~~b.dead
      (m = 0 → exec .ueStrand s = .next s)
      ∧ (m ≠ 0 → ∃ u b', exec .ueStrand s = .next u ∧ u.band c n = some b' ∧ b'.live = b.live &&& ~~~m ∧ b'.dead = b.dead ||| m ∧ b'.pc = b.pc
          ∧ (∀ e ∈ b'.stack, e.mask &&& m = 0) ∧ u.health.getLsbD 70 = true ∧ faultRaised u b.slot (.band c n) .ueStrand))
  ∧ (∀ s w, let c := s.req.core % 64
      (s.core c).unit = some w → ctxSlot w.part w.ctx.toNat < 256 → (s.core c).seq.phase = .run →
      ∃ u, exec .ueSeq s = .next u ∧ u.health.getLsbD 70 = true ∧ (u.core c).seq.phase = .faulted ∧ faultRaised u (s.core c).unitCtx (.seq c) .ueSeq
        ∧ (u.core c).seq.s = (s.core c).seq.s)
  ∧ (∀ s, (s.core (s.req.core % 64)).unit = none → exec .ueSeq s = .next s)
  ∧ (∀ s x t tensor page h ea e, x = 16 * (s.req.part % 16) + s.req.ctx % 16 → s.pageAt x (BitVec.ofNat 64 s.req.addr) = .ok (t, tensor, page, h, ea, e) →
      leafV e = true → baseHome e ≤ 1 → h ≤ 1 → (∀ c < 64, (s.core c).tlb = []) →
      ∃ u, exec .uePageFrame s = .next u ∧ u.health.getLsbD 70 = true
        ∧ u.home h = (s.home h).writeBytes ea (bytesOfNat 8 ((e.toNat &&& (2 ^ 63 - 1 - 7 * 2 ^ 40)) ||| 2 * 2 ^ 40)) ∧ u.home (1 - h) = s.home (1 - h))

namespace Sys2Proof.Claims

/-! ### Words for the link -/

/-- Port `n` is now `q`, and HEALTH.FPORT names the ports that are FAILED or run at width 4 (R364, R417). -/
def portNow (s u : State) (n : Nat) (q : Port) : Prop :=
  u.ports = s.ports.setIfInBounds n q
  ∧ ∀ i < 16, u.health.getLsbD (112 + i) = true ↔ (u.port i).st = .failed ∨ (u.port i).width = 4

/-- The event makes port `n` into `q`. -/
def portTo (i : Instr) (s : State) (q : Port) : Prop := ∃ u, exec i s = .next u ∧ portNow s u s.req.n q ∧ u.hbm = s.hbm ∧ u.cores = s.cores

/-- A port out of service in a state: its replay buffer, what it was sending and what it has received of a packet are dropped. -/
def lost (q : Port) (st : PortSt) : Port := { q with st := st, width := 0, queue := [], replay := [], txSeq := 0, rxSeq := 0, rx := [] }

/-- The event takes port `n` out of service as `q`: the packets that it has not sent go to other ports or wait, and the requests of unacknowledged
packets last sent on it take LINK_FAILED (R366, R375). -/
def portLost (i : Instr) (s : State) (q : Port) : Prop :=
  ∃ u, exec i s = .next u ∧ u.port s.req.n = q ∧ ((s.port s.req.n).queue = [] → portNow s u s.req.n q)
    ∧ (∀ i < 16, u.health.getLsbD (112 + i) = true ↔ (u.port i).st = .failed ∨ (u.port i).width = 4)
    ∧ (idleLinks s → u.cores = s.cores ∧ u.hbm = s.hbm
        ∧ (∀ p ∈ (s.port s.req.n).queue, p ∈ u.unsent ∨ ∃ j < 16, j ≠ s.req.n ∧ p ∈ (u.port j).queue)
        ∧ ∀ e ∈ s.peers, s.peer e.1 = e.2 → ∀ k ∈ e.2.unacked, k.port = some s.req.n → ∀ id r, k.req = some id → aget s.remote id = some r →
            r.stat = .waiting → u.reqStat id = .refused .linkFailed)

/-- The next packet of its source: good, with the number that is expected, and nothing held behind it (R371). -/
def inOrder (s : State) (p : Packet) (op : BitVec 8) : Prop :=
  s.req.pkt = p ∧ p.op = op ∧ p.good = true ∧ p.seq < 2 ^ 32 ∧ (s.peer p.src).expect = p.seq ∧ (s.peer p.src).held = [] ∧ p.src < 4096
  ∧ (s.peer p.src).resps.length < 4096 ∧ idleLinks s

/-- The packet has been performed: the next number is expected and the acknowledgement has been sent (R371, R372). -/
def takenIn (s u : State) (p : Packet) : Prop :=
  (u.peer p.src).expect = (if p.seq + 1 = 2 ^ 32 then 1 else p.seq + 1) ∧ (u.peer p.src).held = []
  ∧ ∃ l a, u.sent = s.sent ++ l ++ [a] ∧ a.op = 0x07 ∧ a.dst = p.src ∧ a.src = s.devid ∧ a.roff.toNat = (if p.seq + 1 = 2 ^ 32 then 0 else p.seq)

/-- The packet reaches a run of `n` bytes of its owner's tensor at one local place (R282). -/
def reachesHome (s : State) (p : Packet) (n right : Nat) (k : AKind) (r : BitVec 512) (a : Word) (h ha : Nat) : Prop :=
  s.regionAddr p n right = .ok a ∧ s.checkTensor none p.owner a n = .ok r ∧ 0 < n
  ∧ n ≤ tlrPage r - offsetOf a % tlrPage r ∧ s.translate none p.owner r a n k = .ok (.home h ha) ∧ h ≤ 1
  ∧ (s.ctx p.owner).st ≠ .recovering ∧ (s.ctx p.owner).logging = false ∧ p.owner < 256

/-- A receive queue that has taken a notice `v` over a channel (R381, R382). -/
def noted (r : RecvQ) (chan : Nat × Nat) (v : Nat) : RecvQ :=
  { r with chan := some chan, notes := r.notes ++ [⟨v / 2 ^ 32 % 2 ^ 24, v % 2 ^ 10 + 1, v / 2 ^ 10 % 2 ^ 12 + 1, v / 2 ^ 22 % 2 ^ 5⟩] }

end Sys2Proof.Claims

/-- R364 to R366, R370, R374, R375, R417: a port trains, comes UP, replays, recovers, fails and is disabled; the fabric parameters and the
end-to-end timers. -/
def Obligations.PortsAndFabric : Prop :=
  ∀ s, s.req.n < 16 → s.fwStatus = .ok →
    let q := s.port s.req.n
    let v := s.req.value
    let stays := fun (i : Instr) => exec i s = .next s
    let replies := fun (i : Instr) (st : Status) => exec i s = .next (s.answer st)
    let code := match q.st with | .down => 0 | .training => 1 | .up => 2 | .replay => 3 | .recovering => 4 | .failed => 5
    portTo .lportEnable s { q with en := true, st := if q.st = .down then .training else q.st }
    ∧ portLost .lportDisable s { lost q .down with en := false }
    ∧ (∃ u, exec .lportReadClear s = .next u ∧ portNow s u s.req.n { q with crcerr := 0, replays := 0 }
        ∧ u.resp = ⟨.ok, bytesOfNat 8 (code ||| q.width * 16 ||| (if q.en then 1 else 0) * 256 ||| q.replays * 2 ^ 32 ||| q.crcerr * 2 ^ 48)⟩)
    ∧ (q.st = .training → (v < 4 → portLost .linkTrainingEnd s (lost q .failed))
        ∧ (4 ≤ v → v < 8 → s.unsent = [] → portTo .linkTrainingEnd s { q with st := .up, width := 4 })
        ∧ (8 ≤ v → s.unsent = [] → portTo .linkTrainingEnd s { q with st := .up, width := 8 })
        ∧ portLost .linkTrainingTimeout s (lost q .failed))
    ∧ (q.st ≠ .training → stays .linkTrainingEnd ∧ stays .linkTrainingTimeout)
    ∧ (q.st = .up ∨ q.st = .replay → let again := if q.st = .up then q.wire ++ q.replay else q.wire
        (s.req.m ≠ 1 → q.crcerr < 2 ^ 16 → portTo .linkFlitError s { q with st := .replay, wire := again })
        ∧ (s.req.m = 1 → portTo .linkFlitError s { q with st := .replay, wire := again, crcerr := min 0xFFFF (q.crcerr + 1) }))
    ∧ (q.st ≠ .up → q.st ≠ .replay → stays .linkFlitError)
    ∧ (q.st = .up → portTo .linkLaneLockLoss s { q with st := .recovering })
    ∧ (q.st ≠ .up → stays .linkLaneLockLoss)
    ∧ (q.st = .replay → (q.replay ≠ [] → stays .linkReplayComplete)
        ∧ (q.replay = [] → s.unsent = [] → portTo .linkReplayComplete s { q with st := .up, replays := min 0xFFFF (q.replays + 1) })
        ∧ portTo .linkReplayTimeout s { q with st := .recovering })
    ∧ (q.st ≠ .replay → stays .linkReplayComplete ∧ stays .linkReplayTimeout)
    ∧ (q.st = .recovering → (v < 4 → stays .linkRetrainEnd)
        ∧ (4 ≤ v → v < 8 → s.unsent = [] → portTo .linkRetrainEnd s { q with st := .up, width := 4, wire := q.wire ++ q.replay })
        ∧ (8 ≤ v → s.unsent = [] → portTo .linkRetrainEnd s { q with st := .up, width := 8, wire := q.wire ++ q.replay })
        ∧ portLost .linkRecoveringTimeout s (lost q .failed))
    ∧ (q.st ≠ .recovering → stays .linkRetrainEnd ∧ stays .linkRecoveringTimeout)
    ∧ (let e := v % 2 ^ 10
       let dev := v / 2 ^ 16 % 2 ^ 12
       let good := 10 ≤ e ∧ e ≤ 1000 ∧ (dev = s.devid ∨ ∀ i < 16, (s.port i).st = .down)
       (good → exec .lfabWrite s = .next ({ s with devid := dev, e2et := e }.answer .ok)) ∧ (¬ good → replies .lfabWrite .linkParam))
    ∧ exec .lfabReadClear s = .next { s with dupcnt := 0, resp := ⟨.ok, bytesOfNat 8 (s.e2et ||| s.devid * 2 ^ 16 ||| s.dupcnt * 2 ^ 32)⟩ }
    ∧ ((v % 2 ^ 64 = s.devid ∨ 4096 ≤ v % 2 ^ 64) → replies .lpresetWrite .linkParam)
    ∧ (v < 4096 → v ≠ s.devid → idleLinks s → (s.peers.map fun e => e.1).Pairwise (fun a b => a < b) → (s.peer v).egress = [] → ∃ u, exec .lpresetWrite s = .next u ∧ u.peer v = ⟨1, 1, [], [], [], [], none⟩
        ∧ u.resp.status = .ok ∧ (∀ p ∈ u.sent, p.dst ≠ v) ∧ (∀ p ∈ u.unsent, p.dst ≠ v) ∧ (∀ i < 16, ∀ p ∈ (u.port i).queue, p.dst ≠ v) ∧ (∀ d, d ≠ v → u.peer d = s.peer d)
        ∧ ∀ k ∈ (s.peer v).unacked, ∀ id r, k.req = some id → aget s.remote id = some r → r.stat = .waiting → u.reqStat id = .refused .linkFailed)
    ∧ (∀ k, ((s.peer s.req.n).unacked.find? fun u => u.pkt.seq = s.req.m) = some k →
        (s.upPort = none → stays .e2eTimerExpiry)
        ∧ (∀ i, s.upPort = some i → ∃ u, exec .e2eTimerExpiry s = .next u ∧ u.sent = s.sent ++ [k.pkt] ∧ (u.port i).queue = (s.port i).queue ++ [k.pkt]
            ∧ (∀ j, j ≠ i → u.port j = s.port j) ∧ u.peers = s.peers)
        ∧ (idleLinks s → ∃ u, exec .e2eLimitExpiry s = .next u ∧ (∀ x ∈ (u.peer s.req.n).unacked, x.pkt.seq ≠ s.req.m)
            ∧ ∀ id r, k.req = some id → aget s.remote id = some r → r.stat = .waiting → u.reqStat id = .refused .linkFailed))
    ∧ (((s.peer s.req.n).unacked.find? fun u => u.pkt.seq = s.req.m) = none → stays .e2eTimerExpiry)

/-- R282, R289, R297, R369, R371, R372, R378: a packet that is next in its source's order is performed once and acknowledged. -/
def Sys2Proof.Claims.RequestsPerformed : Prop :=
  ∀ s p,
    (inOrder s p 0x01 → let n := p.payload.length
      (∀ r a h ha eh ea e, reachesHome s p n 42 .write r a h ha →
        let t := s.homeWrite h ha p.payload
        t.leaf p.owner r (offsetOf a / tlrPage r) = .ok (some (eh, ea, e)) → eh ≤ 1 →
        ∃ u, exec .packetWrite s = .next u ∧ takenIn s u p ∧ memSame (t.homeWrite eh ea (bytesOfNat 8 (t.homeNat eh ea 8 ||| 2 ^ 44))) u)
      ∧ (∀ e, s.regionAddr p n 42 = .error e → (s.ctx p.owner).st ≠ .recovering →
          ∃ u a, exec .packetWrite s = .next u ∧ takenIn s u p ∧ memSame s u ∧ a ∈ u.sent ∧ a.op = 0x08 ∧ a.dst = p.src ∧ a.roff = BitVec.ofNat 64 p.seq
            ∧ a.opx = BitVec.ofNat 16 e))
    ∧ (inOrder s p 0x02 → ∀ r a h ha, reachesHome s p (p.len + 1) 43 .read r a h ha →
        ∃ u x, exec .packetRead s = .next u ∧ takenIn s u p ∧ memSame s u ∧ aget (u.peer p.src).resps p.seq = some x ∧ x.op = 0x06 ∧ x.dst = p.src
          ∧ x.roff = BitVec.ofNat 64 p.seq ∧ x.payload = s.homeBytes h ha (p.len + 1))
    ∧ (∀ red : Bool, inOrder s p (if red then 0x04 else 0x03) →
        let op := p.opx.toNat % 16
        let n := if op < 8 then 4 else 8
        let ty : BitVec 4 := if p.opx.toNat / 16 % 4 = 0 then 6 else if p.opx.toNat / 16 % 4 = 1 then 7 else 10
        let at_ := fun (i : Nat) => natOfBytes ((p.payload.drop (8 * i)).take 8) % 2 ^ (8 * n)
        ∀ r a h ha eh ea e, reachesHome s p n 41 .atomic r a h ha → ha % n = 0 → (red = true → op % 8 < 6) → (ty = 10 → n = 4) →
          let x := s.homeNat h ha n
          let t := s.homeWrite h ha (bytesOfNat n (atomicOut op ty n x (at_ 0) (at_ 1)))
          t.leaf p.owner r (offsetOf a / tlrPage r) = .ok (some (eh, ea, e)) → eh ≤ 1 →
          ∃ u, exec (if red then .packetRed else .packetAtomic) s = .next u ∧ takenIn s u p
            ∧ memSame (t.homeWrite eh ea (bytesOfNat 8 (t.homeNat eh ea 8 ||| 2 ^ 44))) u
            ∧ (red = false → ∃ y, aget (u.peer p.src).resps p.seq = some y ∧ y.payload = bytesOfNat 8 x))
    ∧ (inOrder s p 0x05 → (s.ctx p.owner).st ≠ .recovering → (s.ctx p.owner).logging = false → ∀ r h a, s.regionOf p = .ok r →
        r.toNat / 2 ^ 36 % 4 = 2 → r.getLsbD 41 = true → r.toNat / 2 ^ 192 % 2 ^ 16 ≤ p.roff.toNat →
        p.roff.toNat < r.toNat / 2 ^ 192 % 2 ^ 16 + r.toNat / 2 ^ 128 % 2 ^ 64 → s.penHome p.owner p.roff.toNat = .ok (h, a, none) → h ≤ 1 →
        (∀ o ∈ s.pens, o.id < s.nextId ∧ o.waiting = false) →
        let w := BitVec.ofNat 64 (s.homeNat h a 8)
        let v := natOfBytes (p.payload.take 8)
        let target := BitVec.ofNat 30 (v / 2 ^ 32 % 2 ^ 30)
        let answered := fun (u : State) => takenIn s u p ∧ u.pens = s.pens ∧ ∃ y, aget (u.peer p.src).resps p.seq = some y ∧ y.payload = bytesOfNat 8 w.toNat
        (v % 2 = 1 → v / 2 % 2 = 0 ∨ reached w target → ∃ u, exec .packetPennant s = .next u ∧ answered u ∧ memSame s u)
        ∧ (v % 2 = 1 → v / 2 % 2 = 1 → ¬ reached w target → ∃ u o, exec .packetPennant s = .next u ∧ takenIn s u p ∧ memSame s u ∧ u.pens = s.pens ++ [o]
            ∧ o.who = .packet p.src p.seq ∧ o.home = h ∧ o.addr = a ∧ o.target = target ∧ o.forward = none ∧ o.waiting = true)
        ∧ (v % 2 = 0 → ∃ u, exec .packetPennant s = .next u ∧ answered u
            ∧ u.home h = (s.home h).writeBytes a (bytesOfNat 8 (released w (BitVec.ofNat 2 (v / 4)) (BitVec.ofNat 32 (natOfBytes ((p.payload.drop 8).take 4)))))
            ∧ u.home (1 - h) = s.home (1 - h)))
    ∧ (inOrder s p 0x05 → (s.ctx p.owner).st ≠ .recovering → ∀ r, s.regionOf p = .ok r → r.toNat / 2 ^ 36 % 4 = 2 → r.getLsbD 41 = true →
        r.toNat / 2 ^ 192 % 2 ^ 16 ≤ p.roff.toNat → p.roff.toNat < r.toNat / 2 ^ 192 % 2 ^ 16 + r.toNat / 2 ^ 128 % 2 ^ 64 →
        s.penHome p.owner p.roff.toNat = .error .pennantFree → ∃ u y, exec .packetPennant s = .next u ∧ takenIn s u p ∧ memSame s u ∧ u.pens = s.pens
          ∧ aget (u.peer p.src).resps p.seq = some y ∧ y.payload = List.replicate 8 0)
    ∧ (s.req.pkt = p → idleLinks s → (∀ e ∈ s.peers, e.2.held = []) →
        (p.op = 0x06 → p.good = true → ∀ id r, (s.remote.find? fun e => e.2.peer = p.src && e.2.seq = p.roff.toNat % 2 ^ 32 && e.2.isRead
            && e.2.stat = .waiting && !e.2.host) = some (id, r) → (s.ctx (16 * r.part + r.ctx)).st ≠ .recovering →
            (s.ctx (16 * r.part + r.ctx)).logging = false → aget s.remote id = some r →
            exec .packetResp s = .next { s with remote := amod s.remote id fun r => { r with stat := .answered p.payload } })
        ∧ (p.op = 0x08 → p.good = true → ∀ id r, (s.remote.find? fun e => e.2.peer = p.src && e.2.seq = p.roff.toNat % 2 ^ 32
            && e.2.stat = .waiting && !e.2.host) = some (id, r) → aget s.remote id = some r →
            ∃ u, exec .packetNack s = .next u ∧ u.reqStat id = .refused (if p.opx.toNat % 4 = 1 then .keyRevoked else .remoteRefused)
              ∧ (∀ k ∈ (u.peer p.src).unacked, k.pkt.seq ≠ p.roff.toNat % 2 ^ 32) ∧ memSame s u)
        ∧ (p.op = 0x07 → p.good = true → p.dst < 4096 → (s.peer p.src).egress = [] →
            let covered := fun (n : Nat) => (p.roff.toNat % 2 ^ 32 + 2 ^ 32 - n) % 2 ^ 32 < 2 ^ 31
            ∃ u, exec .packetAck s = .next u ∧ (∀ k, k ∈ (u.peer p.src).unacked ↔ k ∈ (s.peer p.src).unacked ∧ ¬ covered k.pkt.seq)
              ∧ (∀ e, e ∈ (u.peer p.src).resps ↔ e ∈ (s.peer p.src).resps ∧ ¬ covered e.1) ∧ memSame s u
              ∧ ∀ k ∈ (s.peer p.src).unacked, covered k.pkt.seq → ∀ id r, k.req = some id → aget s.remote id = some r → r.isRead = false → r.stat = .waiting →
                  u.reqStat id = .answered [])
        ∧ (p.good = false ∨ p.op.toNat ∉ [1, 2, 3, 4, 5, 6, 7, 8, 16, 17, 18, 32, 33] → s.req.n < 16 →
            portTo .packetDiscard s { s.port s.req.n with crcerr := min 0xFFFF ((s.port s.req.n).crcerr + 1) })
        ∧ (p.good = false → ∀ i ∈ [Instr.packetWrite, .packetRead, .packetAtomic, .packetRed, .packetPennant, .packetResp, .packetAck, .packetNack,
            .packetTnote, .packetTpull, .packetTdata, .packetCres, .packetCdata], exec i s = .next s))

/-- R371, R372: a duplicate is not performed again: it is counted and acknowledged, and the response that is kept for it goes again; a packet beyond the window is discarded. -/
def Sys2Proof.Claims.DuplicatesDiscarded : Prop :=
  ∀ s p op i, (i, op) ∈ [(Instr.packetWrite, (0x01 : BitVec 8)), (.packetRead, 0x02), (.packetAtomic, 0x03), (.packetRed, 0x04), (.packetPennant, 0x05),
      (.packetTnote, 0x10), (.packetTpull, 0x11), (.packetTdata, 0x12), (.packetCres, 0x21)] →
    s.req.pkt = p → p.op = op → p.good = true → idleLinks s → p.src < 8192 →
    let d := (p.seq + 2 ^ 32 - (s.peer p.src).expect) % 2 ^ 32
    (2 ^ 31 ≤ d → ∃ u a l, exec i s = .next u ∧ u.dupcnt = min 0xFFFFFFFF (s.dupcnt + 1) ∧ u.sent = s.sent ++ a :: l ∧ a.op = 0x07 ∧ a.dst = p.src
      ∧ l = (match aget (s.peer p.src).resps p.seq with | some y => [{ y with src := s.devid }] | none => []) ∧ u.peers = s.peers ∧ u.cores = s.cores
      ∧ u.pens = s.pens ∧ memSame s u)
    ∧ (4096 ≤ d → d < 2 ^ 31 → exec i s = .next s)

/-- R282, R289, R297, R368 to R372, R375, R378: what packets do when they arrive. -/
def Obligations.PacketsArrive : Prop := Sys2Proof.Claims.RequestsPerformed ∧ Sys2Proof.Claims.DuplicatesDiscarded

/-- R381 to R385: a TSEND entry starts with its note; a note joins the receive queue that it names; a pull is served with the tile's
fragments; the last fragment makes the tile READY. -/
def Sys2Proof.Claims.MessagesMove : Prop :=
  (∀ s c q l1 m l2, s.req.core = c → s.req.n = q → c < 64 → q < 4 → (s.core c).sendQ q = l1 ++ m :: l2 →
    (∀ x ∈ l1, x.started = true ∧ x.op ≠ .fence) → m.started = false → m.op = .tsend → s.seqHeld c = false →
    let x := (s.core c).unitCtx
    let dev := m.dest.toNat % 2 ^ 12
    let h := m.handle
    (s.ctx x).st ≠ .recovering → (s.ctx x).record = false → (s.peer dev).unacked.length < 4096 → (s.peer dev).egress = [] →
    ∃ u m' k, exec .linkSendEntryStart s = .next u ∧ m' ∈ (u.core c).sendQ q ∧ m'.id = m.id ∧ m'.started = true
      ∧ (u.peer dev).unacked = (s.peer dev).unacked ++ [k] ∧ k.pkt.op = 0x10 ∧ k.pkt.dst = dev ∧ k.pkt.seq = (s.peer dev).next ∧ k.pkt.key = m.key
      ∧ k.pkt.roff = m.dest ∧ k.pkt.payload = bytesOfNat 8 ((hRows h - 1) ||| (hCols h - 1) * 2 ^ 10 ||| hFmt h * 2 ^ 22 ||| (m.msg % 2 ^ 24) * 2 ^ 32)
      ∧ memSame s u ∧ ∀ e, e ≠ c → u.core e = s.core e)
  ∧ (∀ s c q, s.req.core = c → s.req.n = q → c < 64 → q < 4 → (s.core c).sendQ q = [] → exec .linkSendEntryStart s = .next s
      ∧ exec .collEntryStart s = .next s ∧ exec .collEntryComplete s = .next s)
  ∧ (∀ s p, s.req.pkt = p → p.op = 0x10 → p.good = true → p.key = 0 → p.src = s.devid → (s.peer p.src).expect = p.seq → (s.peer p.src).held = [] → p.seq < 2 ^ 32 →
      let x := 16 * p.part.toNat + p.ctx.toNat
      let c := p.roff.toNat / 2 ^ 12 % 64
      let q := p.roff.toNat / 2 ^ 18 % 16
      let r := (s.core c).recvQ q
      let v := natOfBytes p.payload
      (s.ctx x).cores.getLsbD c = true → (s.core c).runs x = true → (r.owner = .none ∨ r.owner = .seq) →
      (r.chan = none ∨ r.chan = some (p.src, p.opx.toNat % 64)) → r.notes.length < 16 → (∀ d < 64, ∀ l ∈ (s.core d).lq.toList, l = []) → s.remote = [] →
      ∃ u, exec .packetTnote s = .next u ∧ ((u.core c).recvQ q).chan = some (p.src, p.opx.toNat % 64)
        ∧ ((u.core c).recvQ q).notes = r.notes ++ [⟨v / 2 ^ 32 % 2 ^ 24, v % 2 ^ 10 + 1, v / 2 ^ 10 % 2 ^ 12 + 1, v / 2 ^ 22 % 2 ^ 5⟩]
        ∧ (u.core c).tile = (s.core c).tile ∧ memSame s u)
  ∧ (∀ s p, s.req.pkt = p → p.op = 0x10 → p.good = true → p.key = 0 → p.src = s.devid → (s.peer p.src).expect = p.seq → (s.peer p.src).held = [] → p.seq < 2 ^ 32 →
      idleLinks s →
      let x := 16 * p.part.toNat + p.ctx.toNat
      let c := p.roff.toNat / 2 ^ 12 % 64
      let n := 16 * logical (s.ctx x).cores c + p.roff.toNat / 2 ^ 18 % 16
      let r := (aget (s.ctx x).rqs n).getD RecvQ.empty
      let v := natOfBytes p.payload
      (s.ctx x).cores.getLsbD c = true → (s.core c).runs x = false → (s.core c).hasBands x = false → aget (s.ctx x).images (logical (s.ctx x).cores c) = none →
      (r.chan = none ∨ r.chan = some (p.src, p.opx.toNat % 64)) → r.notes.length < 16 →
      ∃ u, exec .packetTnote s = .next u ∧ aget (u.ctx x).rqs n = some (noted r (p.src, p.opx.toNat % 64) v)
        ∧ u.cores = s.cores ∧ memSame s u)
  ∧ (∀ s p, s.req.pkt = p → p.op = 0x11 → p.good = true → (s.peer p.src).expect = p.seq → (s.peer p.src).held = [] → p.seq < 2 ^ 32 →
      let c := p.roff.toNat / 2 ^ 24 % 64
      ∀ q m, q < 4 → (s.core c).sendQ q = [m] → (∀ r < 4, r ≠ q → (s.core c).sendQ r = []) → m.op = .tsend → m.dest.toNat % 2 ^ 22 = p.roff.toNat % 2 ^ 22 →
        m.msg = p.roff.toNat / 2 ^ 32 % 2 ^ 24 → m.pulled = false → m.done = false → m.started = true → m.fence = 0 →
        (∀ d < 64, d ≠ c → ∀ l ∈ (s.core d).lq.toList, l = []) → (∀ d < 64, (s.core d).rq = []) → ((s.core c).entry m.treg.toNat).st ≠ .free →
        (s.ctx (s.core c).unitCtx).st ≠ .recovering → (s.ctx (s.core c).unitCtx).record = false → (s.peer p.src).unacked = [] → (s.peer p.src).egress = [] →
        m.remote = [] → hRows m.handle * ((hCols m.handle * fmtWidth (hFmt m.handle) + 7) / 8) ≤ 256 → 0 < fmtWidth (hFmt m.handle) →
        ∃ u m' k, exec .packetTpull s = .next u ∧ (u.core c).sendQ q = [m'] ∧ m'.pulled = true ∧ m'.id = m.id
          ∧ (u.core c).tiles = ((s.core c).dropCopy m.treg.toNat).tiles ∧ (u.peer p.src).unacked = [k] ∧ k.pkt.op = 0x12 ∧ k.pkt.payload = s.packTile c m.handle
          ∧ k.pkt.roff.toNat = m.msg ∧ memSame s u)
  ∧ (∀ s p, inOrder s p 0x11 → (∀ x < 256, (s.ctx x).images = [] ∧ (s.ctx x).st ≠ .recovering) →
      ∃ u a, exec .packetTpull s = .next u ∧ takenIn s u p ∧ a ∈ u.sent ∧ a.op = 0x08 ∧ a.dst = p.src ∧ a.opx = 2 ∧ memSame s u)
  ∧ (∀ s p, s.req.pkt = p → p.op = 0x12 → p.good = true → (s.peer p.src).expect = p.seq → (s.peer p.src).held = [] → p.seq < 2 ^ 32 →
      let c := p.opx.toNat % 64
      let q := p.opx.toNat / 64 % 16
      let r := (s.core c).recvQ q
      let x := (s.core c).unitCtx
      ∀ g, r.owner = .seq → r.pulls = [g] → g.msg = p.roff.toNat % 2 ^ 24 → p.roff.toNat / 2 ^ 32 % 2 ^ 32 = 0 → g.got = 0 → g.size = p.payload.length →
        (s.ctx x).st ≠ .recovering → (s.ctx x).logging = false → (∀ d < 64, ∀ l ∈ (s.core d).lq.toList, l = []) → s.remote = [] →
        fmtWidth (hFmt g.handle) = 8 → 0 < hCols g.handle →
        ∃ u, exec .packetTdata s = .next u ∧ ((u.core c).entry g.treg.toNat).st = .ready ∧ ((u.core c).recvQ q).pulls = []
          ∧ (∀ z ∈ (u.core c).ranges, z.owner ≠ .recv g.id) ∧ memSame s u
          ∧ ((s.core c).tile.wf = true → ∀ i j, i < hRows g.handle → j < hCols g.handle → i * hCols g.handle + j < p.payload.length →
              hCols g.handle ≤ hPitch g.handle →
              some (u.tileElem (u.core c) g.handle i j) = (p.payload[i * hCols g.handle + j]?).map fun b => b.toNat))

/-- R387, R388: a collective starts with its header and data to the fabric group's unit. -/
def Sys2Proof.Claims.CollectiveStarts : Prop :=
  ∀ s c q l1 m l2 rs rd h ha h2 ha2, s.req.core = c → s.req.n = q → c < 64 → q < 4 → (s.core c).sendQ q = l1 ++ m :: l2 →
    (∀ y ∈ l1, y.started = true ∧ y.op ≠ .fence) → m.started = false → m.op = .coll → s.seqHeld c = false → m.remote = [] →
    let x := (s.core c).unitCtx
    let d := m.desc
    let bits := fun (lo n : Nat) => d.toNat / 2 ^ lo % 2 ^ n
    let g := s.group (bits 192 8)
    let dst := 4096 + grpFg g
    let src := BitVec.ofNat 64 (bits 0 64)
    let out := BitVec.ofNat 64 (bits 64 64)
    let n := bits 128 32 * fmtWidth (bits 160 5) / 8
    m.opt.toNat % 4 ≠ 2 → m.opt.toNat % 4 ≠ 0 → m.opt.getLsbD 5 = false → bits 160 5 ∈ [6, 9, 10, 11, 13] → 0 < n →
    (s.ctx x).st ≠ .recovering → (s.ctx x).record = false → (s.peer dst).unacked.length + (n + 255) / 256 + 1 ≤ 4096 → (s.peer dst).egress = [] →
    s.collBuffer c x src (bits 160 5) (bits 128 32) = some rs → s.collBuffer c x out (bits 160 5) (bits 128 32) = some rd →
    n ≤ tlrPage rs - offsetOf src % tlrPage rs → n ≤ tlrPage rd - offsetOf out % tlrPage rd →
    s.translate (some c) x rs src n .read = .ok (.home h ha) → s.translate (some c) x rd out n .write = .ok (.home h2 ha2) →
    ∃ u m' l, exec .collEntryStart s = .next u ∧ m' ∈ (u.core c).sendQ q ∧ m'.id = m.id ∧ m'.started = true
      ∧ (u.peer dst).unacked = (s.peer dst).unacked ++ l ∧ l.length = (n + 255) / 256 + 1 ∧ (∀ k ∈ l, k.pkt.op = 0x20 ∧ k.pkt.dst = dst)
      ∧ ((l.drop 1).flatMap fun k => k.pkt.payload) = s.homeBytes h ha n ∧ memSame s u

/-- R388, R389: the unit of a fabric group collects what every rank asked for. -/
def Sys2Proof.Claims.ContributionsArrive : Prop :=
  ∀ s p key, s.req.pkt = p → p.op = 0x20 → p.good = true → 4096 ≤ p.dst → p.dst < 8192 → key = 8192 + (p.dst - 4096) * 4096 + p.src →
      (s.peer key).expect = p.seq → (s.peer key).held = [] → p.seq < 2 ^ 32 →
      (s.switch.find? fun z => z.group = p.roff.toNat % 2 ^ 12 && z.ordinal = p.roff.toNat / 2 ^ 12 % 2 ^ 20) = none →
      p.roff.toNat / 2 ^ 32 % 2 ^ 32 = 0 → 0 < natOfBytes p.payload / 2 ^ 23 % 2 ^ 12 →
      ∃ u z, exec .packetCdata s = .next u ∧ z ∈ u.switch ∧ z.group = p.roff.toNat % 2 ^ 12 ∧ z.ordinal = p.roff.toNat / 2 ^ 12 % 2 ^ 20
        ∧ z.members = natOfBytes p.payload / 2 ^ 23 % 2 ^ 12 + 1 ∧ z.asks = [(p.opx.toNat, natOfBytes p.payload)] ∧ z.devs = [(p.opx.toNat, p.src)]
        ∧ z.data = [] ∧ u.cores = s.cores ∧ memSame s u

/-- R388, R391: the header of a result reaches the entry. -/
def Sys2Proof.Claims.ResultsArrive : Prop :=
  ∀ s p c q m, s.req.pkt = p → p.op = 0x21 → p.good = true → (s.peer p.src).expect = p.seq → (s.peer p.src).held = [] → p.seq < 2 ^ 32 →
      s.collEntry (p.roff.toNat % 2 ^ 12) (p.roff.toNat / 2 ^ 12 % 2 ^ 20) = some (c, q, m) → c < 64 → q < 4 → (s.core c).sendQ q = [m] →
      (∀ r < 4, r ≠ q → (s.core c).sendQ r = []) → (∀ d < 64, d ≠ c → ∀ l ∈ (s.core d).lq.toList, l = []) → (∀ d < 64, (s.core d).rq = []) →
      m.remote = [] → m.fence = 0 → p.roff.toNat / 2 ^ 32 % 2 ^ 32 = 0 → natOfBytes p.payload % 2 = 0 →
      ∃ u m', exec .packetCres s = .next u ∧ (u.core c).sendQ q = [m'] ∧ m'.got = (0, p.payload) :: m.got
        ∧ m'.stat = m.stat ||| BitVec.ofNat 6 (natOfBytes p.payload / 2 ^ 8 % 2 ^ 6) ∧ memSame s u

/-- R391: an entry ends with STAT merged and a release on the pennant of its destination. -/
def Sys2Proof.Claims.CollectiveEnds : Prop :=
  ∀ s c q m l h a fwd r, s.req.core = c → s.req.n = q → c < 64 → q < 4 → (s.core c).sendQ q = m :: l → m.done = false → m.op = .coll → m.started = true →
      m.rel = false → (aget m.got 0).isSome = true → aget m.got 1 = none → m.remote = [] → (∀ y ∈ l, y.id ≠ m.id) →
      m.desc.toNat / 2 ^ 128 % 2 ^ 32 * fmtWidth (m.desc.toNat / 2 ^ 160 % 2 ^ 5) / 8 ≤ m.msg →
      let x := (s.core c).unitCtx
      s.tlr (some c) x (m.desc.toNat / 2 ^ 112 % 2 ^ 16) = .ok r → s.penHome x (r.toNat / 2 ^ 32 % 2 ^ 16) = .ok (h, a, fwd) →
      ∃ u o, exec .collEntryComplete s = .next u ∧ u.pens = s.pens ++ [o] ∧ o.who = .coll c q m.id ∧ o.acquire = false ∧ o.home = h ∧ o.addr = a
        ∧ o.forward = fwd ∧ o.vop = 1 ∧ o.val = 1 ∧ o.scope = 4 ∧ (u.core c).sendQ q = { m with rel := true } :: l
        ∧ (u.core c).scalar = (s.core c).scalar.writeBytes (m.descAddr + 40)
            (bytesOfNat 1 (natOfBytes (s.scalarBytes (s.core c) (m.descAddr + 40) 1) ||| m.stat.toNat))

/-- R381 to R391: tile messages and collectives. -/
def Obligations.MessagesAndCollectives : Prop := Sys2Proof.Claims.MessagesMove ∧ Sys2Proof.Claims.CollectiveStarts ∧ Sys2Proof.Claims.ContributionsArrive
  ∧ Sys2Proof.Claims.ResultsArrive ∧ Sys2Proof.Claims.CollectiveEnds

namespace Sys2Proof.Claims

/-! ### Words for the control port -/

/-- The partition and the context slot that a control-port request names. -/
def reqPart (s : State) : Nat := s.req.part % 16
/-- The context slot that a request names. -/
def reqCtx (s : State) : Nat := 16 * reqPart s + s.req.ctx % 16
/-- The word that a request writes. -/
def reqWord (s : State) : Word := BitVec.ofNat 64 s.req.value
/-- The command is refused with a status and nothing else changes (R407). -/
def refused (i : Instr) (s : State) (st : Status) : Prop := exec i s = .next { s with resp := ⟨st, []⟩ }
/-- The read is refused with a status and nothing else changes. -/
def refusedRead (s : State) (st : Status) : Prop := s.cpRead = { s with resp := ⟨st, []⟩ }
/-- The command is done: the device is `t`, and the answer is OK. -/
def doneAs (i : Instr) (s t : State) : Prop := exec i s = .next { t with resp := ⟨.ok, []⟩ }
/-- Some context of a partition is RUNNING or RECOVERING. -/
def busy (s : State) (p : Nat) : Prop := ∃ x < 16, (s.ctx (16 * p + x)).st = .running ∨ (s.ctx (16 * p + x)).st = .recovering
/-- Fields of a word. -/
def fld (w : Word) (lo n : Nat) : Nat := w.toNat / 2 ^ lo % 2 ^ n
/-- The commands of the control port. -/
def portCommands : List Instr :=
  [.coreMaskWrite, .rootMaskWrite, .polderRangeWrite, .vectorPendingClear, .cpRegisterWrite, .descriptorWrite, .imageLoadOpen, .imageTransfer,
   .startVectorWrite, .contextRetire, .contextScrub, .controlPortDataWrite, .controlNodeMap, .controlNodeUnmap, .translationInvalidate,
   .pennantWordWrite, .depCounterWrite, .cancelCommand, .freeFrameAppend]
  ++ [.hackWrite, .lportEnable, .lportDisable, .lportReadClear, .lfabWrite, .lfabReadClear, .lpresetWrite, .wctlWrite, .breakpointWrite, .watchpointWrite,
   .haltCommand, .resumeCommand, .debugWindowSelect, .debugWindowRead, .debugWindowWrite, .debugLevelRequest, .tenantKeyInstall, .tenantKeyRemove,
   .vendorUnlockExit, .attestationRequest, .pwrSetActive, .pwrEnterP3, .pwrEnterP4]

end Sys2Proof.Claims

/-- R411: while no firmware verifies, every command of the control port is answered with that status and does nothing. -/
def Sys2Proof.Claims.NoFirmware : Prop := ∀ s i, s.fwStatus ≠ .ok → i ∈ portCommands → refused i s s.fwStatus

/-- R98 to R102, R314, R357: the registers of a partition, each with the checks that can refuse it. -/
def Sys2Proof.Claims.PartitionRegisters : Prop :=
  ∀ s, s.fwStatus = .ok →
    let p := reqPart s
    let w := reqWord s
    let q := s.part p
    let others := fun (f : Nat → Prop) => ∃ o < 16, o ≠ p ∧ f o
    let owned := others fun o => (s.part o).cores &&& w ≠ 0
    let named := ∃ x < 16, (s.ctx (16 * p + x)).st ∉ [CState.empty, .retired] ∧ (s.ctx (16 * p + x)).cores &&& (q.cores &&& ~~~w) ≠ 0
    let roots := others fun o => (s.part o).roots &&& BitVec.ofNat 16 s.req.value ≠ 0
    let r := w &&& 0xE7FFFFFF07FFFFFF#64
    let meets := fun (e : Word) => e.getLsbD 63 = true ∧ fld e 61 2 = fld r 61 2 ∧ fld e 0 27 ≠ 0 ∧ fld r 0 27 ≠ 0
      ∧ fld e 32 27 < fld r 32 27 + fld r 0 27 ∧ fld r 32 27 < fld e 32 27 + fld e 0 27
    let overlap := others fun o => ∃ e ∈ (s.part o).polders.toList, meets e
    (owned → refused .coreMaskWrite s .coreOwned)
    ∧ (¬ owned → busy s p → refused .coreMaskWrite s .partitionBusy)
    ∧ (¬ owned → ¬ busy s p → named → refused .coreMaskWrite s .coreOwned)
    ∧ (¬ owned → ¬ busy s p → ¬ named → ∃ u, exec .coreMaskWrite s = .next u ∧ u.resp = ⟨.ok, []⟩ ∧ u.part p = { q with cores := w }
        ∧ (∀ o < 16, o ≠ p → u.part o = s.part o)
        ∧ ∀ c < 64, u.core c = if q.cores.getLsbD c = true ∧ w.getLsbD c = false then { s.core c with credits := 0 } else s.core c)
    ∧ (roots → refused .rootMaskWrite s .rootOwned) ∧ (¬ roots → busy s p → refused .rootMaskWrite s .partitionBusy)
    ∧ (¬ roots → ¬ busy s p → doneAs .rootMaskWrite s (s.onPart p fun q => { q with roots := BitVec.ofNat 16 s.req.value }))
    ∧ (busy s p → refused .polderRangeWrite s .partitionBusy)
    ∧ (¬ busy s p → 2 ≤ fld r 61 2 → refused .polderRangeWrite s .polderHome)
    ∧ (¬ busy s p → fld r 61 2 ≤ 1 → overlap → refused .polderRangeWrite s .polderOverlap)
    ∧ (¬ busy s p → fld r 61 2 ≤ 1 → ¬ overlap → s.req.n < 16 →
        doneAs .polderRangeWrite s (s.onPart p fun q => { q with polders := q.polders.setIfInBounds s.req.n r }))
    ∧ doneAs .vectorPendingClear s (s.onPart p fun q => { q with vecs := q.vecs &&& ~~~w })
    ∧ (let home := s.req.n % 2
       let list := if home = 0 then q.free0 else q.free1
       let inside := ∀ i < fld w 0 27, q.inPolder home (fld w 32 27 + i) = true
       let formed := w &&& ~~~0x07FFFFFF07FFFFFF#64 = 0 ∧ fld w 0 27 ≠ 0
       (¬ formed → refused .freeFrameAppend s .cpFrame) ∧ (formed → ¬ inside → refused .freeFrameAppend s .polderFault)
       ∧ (formed → inside → 1024 ≤ list.length → refused .freeFrameAppend s .framesFull)
       ∧ (formed → inside → list.length < 1024 → doneAs .freeFrameAppend s (s.onPart p fun q =>
            if home = 0 then { q with free0 := list ++ [(fld w 32 27, fld w 0 27)] } else { q with free1 := list ++ [(fld w 32 27, fld w 0 27)] })))
    ∧ (let a := s.req.addr
       (a % 8 ≠ 0 → refused .cpRegisterWrite s .cpFrame)
       ∧ (∀ j < 16, a = 0x1000000 + 0x100000 * j + 0x10 → doneAs .cpRegisterWrite s (s.onPart j fun q => { q with bandq := w.toNat % 2 ^ 14 }))
       ∧ (∀ j < 256, a = 0x11000000 + 0x10000 * j + 0xC00 → doneAs .cpRegisterWrite s (s.onCtx j fun k => { k with cancelWord := w }))
       ∧ (∀ j < 256, a = 0x11000000 + 0x10000 * j + 0xC10 → doneAs .cpRegisterWrite s (s.onCtx j fun k => { k with launchSel := BitVec.ofNat 32 s.req.value }))
       ∧ (∀ g < 256, a = 0x1000 + 8 * g → w &&& ~~~0x7FFFFF#64 ≠ 0 →
            doneAs .cpRegisterWrite s { s with groups := aput s.groups g (w &&& ~~~0x7FFFFF#64) })
       ∧ (a = 8 → w.getLsbD 6 = true → ∃ u, exec .cpRegisterWrite s = .next u ∧ u.health = s.health &&& ~~~(1#128 <<< 70) ∧ u.resp = ⟨.ok, []⟩)
       ∧ (∀ j, a = 0x18000000 + 8 * j → doneAs .cpRegisterWrite s s))

/-- R103 to R105, R109, R126, R130, R326, R331: a context's descriptor, its life from LOADING to RETIRED, start vectors, counters, cancels. -/
def Sys2Proof.Claims.ContextLife : Prop :=
  ∀ s, s.fwStatus = .ok →
    let x := reqCtx s
    let k := s.ctx x
    let q := s.part (reqPart s)
    let w := reqWord s
    let early := k.st = .empty ∨ k.st = .loading
    let late := early ∨ k.st = .ready ∨ k.st = .preempted
    let word := fun (n : Nat) => s.req.addr = 8 * n
    let logKept := k.record = false ∨ k.logsz = 0 ∨ k.log.getLsbD 63 = true
    let formed := fld w 40 21 = 0 ∧ fld w 61 2 ≤ 1
    let put := fun (f : Context → Context) => doneAs .descriptorWrite s (s.onCtx x f)
    let base := fun (f : Context → Context) =>
      (¬ early → refused .descriptorWrite s .contextBusy)
      ∧ (early → w.getLsbD 63 = true → ¬ formed → refused .descriptorWrite s .cpFrame)
      ∧ (early → w.getLsbD 63 = true → formed → q.inPolder (fld w 61 2) (fld w 0 40) = false → refused .descriptorWrite s .polderFault)
      ∧ (early → w.getLsbD 63 = true → formed → q.inPolder (fld w 61 2) (fld w 0 40) = true → logKept → put f)
    let bases := k.ttab.getLsbD 63 = true ∧ k.ptab.getLsbD 63 = true ∧ k.frec.getLsbD 63 = true ∧ k.save.getLsbD 63 = true
      ∧ (k.logsz = 0 ∨ k.log.getLsbD 63 = true) ∧ k.cores ≠ 0 ∧ k.cores &&& ~~~q.cores = 0
    (s.req.addr % 8 ≠ 0 ∨ 128 ≤ s.req.addr → refused .descriptorWrite s .cpFrame)
    ∧ (word 1 → base fun k => { k with ttab := w }) ∧ (word 2 → base fun k => { k with ptab := w }) ∧ (word 5 → base fun k => { k with save := w })
    ∧ (word 7 → base fun k => { k with keys := w }) ∧ (word 8 → base fun k => { k with hot := w }) ∧ (word 9 → base fun k => { k with frec := w })
    ∧ (word 6 → (¬ late → refused .descriptorWrite s .contextBusy)
        ∧ (late → logKept → put fun k => { k with sset := BitVec.ofNat 10 s.req.value ||| 0x19 }))
    ∧ (word 10 → (¬ late → refused .descriptorWrite s .contextBusy) ∧ (late → w &&& ~~~q.cores ≠ 0 → refused .descriptorWrite s .coreOwned)
        ∧ (late → w &&& ~~~q.cores = 0 → k.images = [] → k.launches = [] → logKept →
            (∀ c < 64, (∀ e ∈ (s.core c).list, e.saved = false) ∧ ∀ e ∈ (s.core c).returning, e.saved = false) → put fun k => { k with cores := w }))
    ∧ (k.st ≠ .empty → refused .imageLoadOpen s .contextBusy)
    ∧ (k.st = .empty → ¬ bases → refused .imageLoadOpen s .contextBases)
    ∧ (k.st = .empty → bases → doneAs .imageLoadOpen s (s.onCtx x fun k => { k with st := .loading }))
    ∧ (k.st ≠ .loading → refused .imageTransfer s .contextBusy)
    ∧ (∀ st, k.st = .loading → imageSections s.req.bytes = .error st → ∃ u, exec .imageTransfer s = .next u ∧ u.resp = ⟨st, []⟩
        ∧ (u.ctx x).st = .failed ∧ (u.part (reqPart s)).vecs.getLsbD 0 = true)
    ∧ (∀ l t, k.st = .loading → imageSections s.req.bytes = .ok l → (s.clearInit x).applySections x l = (t, .ok) →
        doneAs .imageTransfer s (t.onCtx x fun k => { k with st := .ready, nextLid := 1, lastLid := 0, lstate := 0, deps := [] }))
    ∧ (k.st ≠ .retired → refused .contextScrub s .contextBusy)
    ∧ (k.st = .retired → doneAs .contextScrub s (s.onCtx x fun k => { Context.reset with checks := k.checks }))
    ∧ (k.st ∉ [CState.ready, .preempted, .failed] → refused .contextRetire s .contextBusy)
    ∧ (k.st ∈ [CState.ready, .preempted, .failed] → ∃ u, exec .contextRetire s = .next u ∧ u.resp = ⟨.ok, []⟩ ∧ (u.ctx x).st = .retired
        ∧ (u.ctx x).images = [] ∧ ∀ c < 64, (u.core c).runs x = false ∧ (u.core c).hasBands x = false)
    ∧ (let v := ((List.range 64).map fun i => (i, BitVec.ofNat 64 (natOfBytes ((s.req.bytes.drop (8 * i)).take 8)))).filter fun e => e.2 ≠ 0
       s.req.bytes.length = 512 →
         (k.st ≠ .ready → refused .startVectorWrite s .contextBusy) ∧ (k.st = .ready → v = [] → refused .startVectorWrite s .startEmpty)
         ∧ (k.st = .ready → v ≠ [] → (∃ e ∈ v, k.cores.getLsbD e.1 = false) → refused .startVectorWrite s .startCore)
         ∧ (k.st = .ready → v ≠ [] → (∀ e ∈ v, k.cores.getLsbD e.1 = true) → (∃ e ∈ v, e.2.toNat % 32 ≠ 0) → refused .startVectorWrite s .startAlign)
         ∧ (k.st = .ready → v ≠ [] → (∀ e ∈ v, k.cores.getLsbD e.1 = true ∧ e.2.toNat % 32 = 0) → k.launches = [] → 1 ≤ k.nextLid → k.nextLid < 2 ^ 32 → k.record = false →
              ∃ u l, exec .startVectorWrite s = .next u ∧ u.resp = ⟨.ok, []⟩ ∧ (u.ctx x).st = .running ∧ (u.ctx x).launches = [(k.nextLid, l)]
                ∧ l.vector = some v ∧ l.st = .pending ∧ l.id.toNat = k.nextLid ∧ (u.ctx x).start = v ∧ (u.ctx x).lastLid = k.nextLid ∧ (u.ctx x).lstate = 1 ∧ u.cores = s.cores))
    ∧ (s.req.bytes.length ≠ 512 → refused .startVectorWrite s .cpFrame)
    ∧ (k.active = true → refused .depCounterWrite s .contextBusy)
    ∧ (k.active = false → doneAs .depCounterWrite s (s.onCtx x fun k => { k with
        deps := aput k.deps (s.req.n % 256) ⟨(BitVec.ofNat 32 s.req.value).toInt, w.getLsbD 32⟩ }))
    ∧ (4 < s.req.value % 8 → refused .cancelCommand s .cpFrame)
    ∧ (∀ m, s.req.value % 8 ≤ 4 → cancelOf x (s.req.value % 8) k.cancelWord 0 = some m → 2 ≤ m.level ∨ m.id ≠ 0 →
        doneAs .cancelCommand s { s with nextId := s.nextId + 1, cancels := s.cancels ++ [{ m with core := 64, num := s.nextId }] })

/-- R409, R436, R437: data, pennants and host answers through the control port. -/
def Sys2Proof.Claims.DataCommands : Prop :=
  ∀ s, s.fwStatus = .ok →
    let x := reqCtx s
    let k := s.ctx x
    let bs := s.req.bytes
    let w := reqWord s
    let formed := bs.length % 8 = 0 ∧ bs.length ≤ 4096 ∧ bs ≠ [] ∧ k.ttab.getLsbD 63 = true
    let pl := k.penPlace (s.req.n % 65536)
    (¬ formed → refused .controlPortDataWrite s .cpFrame)
    ∧ (∀ e, formed → s.frontWrite x (BitVec.ofNat 64 s.req.addr) bs = .error e →
        refused .controlPortDataWrite s (if e = .polderFault then .polderFault else .cpFrame))
    ∧ (∀ t, formed → k.logging = false → s.frontWrite x (BitVec.ofNat 64 s.req.addr) bs = .ok t → t.ctx x = k → doneAs .controlPortDataWrite s t)
    ∧ (k.ptab.getLsbD 63 = false → refused .pennantWordWrite s .cpFrame)
    ∧ (k.ptab.getLsbD 63 = true → (s.part (reqPart s)).inPolder pl.1 (pl.2 / 4096) = false → refused .pennantWordWrite s .polderFault)
    ∧ (k.ptab.getLsbD 63 = true → (s.part (reqPart s)).inPolder pl.1 (pl.2 / 4096) = true → (∀ o ∈ s.pens, o.waiting = false) →
        doneAs .pennantWordWrite s (s.homeWrite pl.1 pl.2 (bytesOfNat 8 (if w.getLsbD 63 = true ∧ w.getLsbD 62 = true then w &&& ~~~(3#64 <<< 48) else w).toNat)))
    ∧ (∀ r, calm s → let v := natOfBytes (bs.take 8)
        aget s.remote (v % 2 ^ 32) = some r → r.host = true → r.stat = .waiting → r.isRead = true → r.who ≠ .none → v / 2 ^ 32 % 2 ^ 32 = 0 →
        bs.length = 8 + (r.n + 7) / 8 * 8 →
        doneAs .hackWrite s { s with remote := aput s.remote (v % 2 ^ 32) { r with stat := .answered ((bs.drop 8).take r.n) } })
    ∧ (aget s.remote (natOfBytes (bs.take 8) % 2 ^ 32) = none → refused .hackWrite s .cpFrame)

/-- R273, R280, R357: the control node maps and unmaps a page, translation is invalidated, and the invalidate is acknowledged once the
requests that it concerns have been performed. -/
def Sys2Proof.Claims.PageCommands : Prop :=
  (∀ s t tensor page h ea e, s.fwStatus = .ok → s.pageAt (reqCtx s) (BitVec.ofNat 64 s.req.addr) = .ok (t, tensor, page, h, ea, e) → h ≤ 1 →
    let w := reqWord s &&& ~~~(3#64 <<< 43)
    (e.getLsbD 63 = true ∨ fld e 40 3 ≠ 0 → refused .controlNodeMap s .contextBusy)
    ∧ (e.getLsbD 63 = false → fld e 40 3 = 0 → w.getLsbD 63 = false ∨ leafOk w (tlrPage t) = false → refused .controlNodeMap s .cpFrame)
    ∧ (e.getLsbD 63 = false → fld e 40 3 = 0 → w.getLsbD 63 = true → leafOk w (tlrPage t) = true → fld w 61 2 ≤ 1 →
        (s.part (reqPart s)).framesIn (fld w 61 2) (fld w 0 40) (tlrPage t / 4096) = false → refused .controlNodeMap s .polderFault)
    ∧ (e.getLsbD 63 = false → fld e 40 3 = 0 → w.getLsbD 63 = true → leafOk w (tlrPage t) = true →
        (fld w 61 2 ≤ 1 → (s.part (reqPart s)).framesIn (fld w 61 2) (fld w 0 40) (tlrPage t / 4096) = true) →
        ∃ u, exec .controlNodeMap s = .next u ∧ u.resp = ⟨.ok, []⟩ ∧ memSame (s.homeWrite h ea (bytesOfNat 8 w.toNat)) u)
    ∧ (e.getLsbD 63 = false → fld e 40 3 ≠ 2 → refused .controlNodeUnmap s .contextBusy)
    ∧ (e.getLsbD 63 = true ∨ fld e 40 3 = 2 → (∀ c < 64, (s.core c).tlb = []) →
        ∃ u, exec .controlNodeUnmap s = .next u ∧ u.resp = ⟨.ok, []⟩
          ∧ memSame (s.homeWrite h ea (bytesOfNat 8 (e &&& ~~~(1#64 <<< 63 ||| 7#64 <<< 40)).toNat)) u))
  ∧ (∀ s st, s.fwStatus = .ok → s.pageAt (reqCtx s) (BitVec.ofNat 64 s.req.addr) = .error st → refused .controlNodeMap s st ∧ refused .controlNodeUnmap s st)
  ∧ (∀ s, s.fwStatus = .ok → ∃ u, exec .translationInvalidate s = .next u ∧ u.resp = ⟨.ok, []⟩
      ∧ ∀ c < 64, ∀ y ∈ (u.core c).tlb, y ∈ (s.core c).tlb ∧ (y.ctx = reqCtx s → s.req.m ≠ 0 ∧ ¬ (y.tensor = s.req.n % 65536 ∧ s.req.addr ≤ y.page ∧ y.page ≤ s.req.value)))
  ∧ (∀ s, s.invals[s.req.n]? = none → exec .translationInvalidateAck s = .next s)
  ∧ (∀ s v, s.invals[s.req.n]? = some v →
      ((∃ a ∈ v.accs, s.outstanding a = true) → exec .translationInvalidateAck s = .next s)
      ∧ ((∀ a ∈ v.accs, s.outstanding a = false) → exec .translationInvalidateAck s = .next { s with
          invals := s.invals.eraseIdx s.req.n, migs := s.migs.map fun g => if v.mig = some g.id then { g with acked := true } else g }))

/-- R4, R102, R326, R330, R336, R365, R406, R414: what the control node reads of a register, a write-only register reads zero, reads that clear,
and the frame that answers a frame. -/
def Sys2Proof.Claims.ReadsAnswer : Prop :=
  (∀ s, s.fwStatus = .ok → s.req.m = 0 → s.req.n = 8 → s.pst ≠ 4 →
    let a := s.req.addr
    let gives := fun (t : State) (v : Nat) => s.cpRead = { t with resp := ⟨.ok, bytesOfNat 8 v⟩ }
    let reads := gives s
    (a % 8 ≠ 0 → refusedRead s .cpFrame)
    ∧ (a = 0 → reads (s.health.toNat % 2 ^ 64)) ∧ (a = 8 → reads (s.health.toNat / 2 ^ 64))
    ∧ (a = 0x18 → gives { s with dupcnt := 0 } (s.e2et ||| s.devid * 2 ^ 16 ||| s.dupcnt * 2 ^ 32))
    ∧ (a = 0x20 ∨ a = 0x28 → reads 0)
    ∧ (∀ p < 16, let o := 0x1000000 + 0x100000 * p
        let q := s.part p
        (a = o → reads q.cores.toNat) ∧ (a = o + 8 → reads q.roots.toNat) ∧ (a = o + 0x10 → reads q.bandq) ∧ (a = o + 0x18 → reads q.vecs.toNat)
        ∧ (a = o + 0x1008 → reads 0) ∧ (a = o + 0x1800 → reads 0)
        ∧ (a = o + 0x1000 → q.slot.alen < 1024 → q.slot.slen < 1024 → q.slot.cidx < 1024 → q.slot.cfail < 16 → q.slot.ovrn < 16 → ∃ st sh,
            st = (match q.slot.st with | .absent => 0 | .loaded => 1 | .checked => 2 | .active => 3 | .disabled => 4 | .retired => 5)
            ∧ sh = (match q.slot.shadow with | .empty => 0 | .loaded => 1 | .checking => 2 | .checked => 3 | .rejected => 4)
            ∧ reads (st + sh * 2 ^ 5 + q.slot.alen * 2 ^ 10 + q.slot.slen * 2 ^ 20 + q.slot.cidx * 2 ^ 30 + q.slot.cfail * 2 ^ 40 + q.slot.ovrn * 2 ^ 44)))
    ∧ (∀ x < 256, let o := 0x11000000 + 0x10000 * x
        let own := (s.part (x / 16)).key = false ∨ s.vendor = true ∨ (s.req.auth = true ∧ reqPart s = x / 16)
        let k := s.ctx x
        (¬ own → a = o → refusedRead s .debugDenied)
        ∧ (own → a = o + 8 → reads k.ttab.toNat) ∧ (own → a = o + 0x50 → reads k.cores.toNat)
        ∧ (own → ∀ i < 256, ∀ d, aget k.deps i = some d → a = o + 0x400 + 8 * i → reads ((BitVec.ofInt 32 d.count).toNat ||| (if d.ovf then 1 else 0) * 2 ^ 32))
        ∧ (own → a = o + 0xC18 → ∀ l, aget k.launches k.launchSel.toNat = some l → l.st.active = true → reads (s.launchCount x k.launchSel.toNat))))
  ∧ (∀ (s : State) (bs : List Byte), s.booted = false → s.frameIn bs = .next s)
  ∧ ∀ (s : State) (bs : List Byte), s.booted = true → 32 ≤ bs.length → ∃ t f l, s.frameIn bs = .next t ∧ t.answers = l ++ [f] ∧ f.take 4 = bs.take 4
    ∧ f.length = 32 + t.resp.data.length

/-- R98 to R105, R126 to R130, R273, R280, R326, R331, R357, R407 to R411, R436, R437: the control port's commands on partitions, contexts,
data and pages, with the status that each answers. -/
def Obligations.ControlPortCommands : Prop :=
  Sys2Proof.Claims.NoFirmware ∧ Sys2Proof.Claims.PartitionRegisters ∧ Sys2Proof.Claims.ContextLife ∧ Sys2Proof.Claims.DataCommands
  ∧ Sys2Proof.Claims.PageCommands ∧ Sys2Proof.Claims.ReadsAnswer

namespace Sys2Proof.Claims

/-! ### Words for the watch and the power states -/

/-- The request has the rights of a debugger on its core in at most the given power state (R123, R124): every partition's at level VENDOR, its
own with the tenant's key at level TENANT. -/
def debugger (s : State) (power : Nat) : Prop :=
  s.pst ≤ power ∧ ((∃ p < 16, (s.part p).debug = 2)
    ∨ ∃ p, s.corePart (s.req.core % 64) = some p ∧ (s.part p).debug = 1 ∧ s.req.auth = true ∧ reqPart s = p)

/-- The device with another watch on a core. -/
def watchNow (s : State) (c : Nat) (w : Watch) : State := s.setCore c { s.core c with watch := w }

/-- The trigger after an enable bit is written (R397). -/
def armed (e : Bool) (t : Trig) : Trig := if e = false then .off else if t = .off then .armed else t

end Sys2Proof.Claims

/-- R392, R397 to R402: the watch's registers, halts and resumes, under the rights of R123. -/
def Sys2Proof.Claims.WatchCommands : Prop :=
  ∀ s, s.fwStatus = .ok →
    let c := s.req.core % 64
    let k := s.core c
    let w := reqWord s
    let n := s.req.n
    let slot := 16 * fld w 3 3 + fld w 6 4
    let trig := fun (l : List (Nat × Break)) (n : Nat) => ((aget l n).map fun b => b.trig).getD .off
    (¬ debugger s 2 → ∀ i ∈ [Instr.wctlWrite, .breakpointWrite, .watchpointWrite, .haltCommand, .resumeCommand], refused i s .debugDenied)
    ∧ (debugger s 2 →
      (fld w 14 6 < 20 ∨ 40 < fld w 14 6 → refused .wctlWrite s .watchParam)
      ∧ (20 ≤ fld w 14 6 → fld w 14 6 ≤ 40 → doneAs .wctlWrite s (watchNow s c { k.watch with
          dthr := BitVec.ofNat 32 (fld w 32 32), wexp := fld w 14 6, mslice := BitVec.ofNat 8 (fld w 3 8), memt := w.getLsbD 2, drift := w.getLsbD 1,
          ilk := w.getLsbD 0, itrig := armed (w.getLsbD 0) k.watch.itrig }))
      ∧ (s.req.m = 0 → w &&& ~~~0x1C#64 ≠ 0 → doneAs .breakpointWrite s (watchNow s c { k.watch with
          sbp := aput k.watch.sbp (n % 8) ⟨(w &&& ~~~0x1C#64).setWidth 128, armed (w.getLsbD 0) (trig k.watch.sbp (n % 8))⟩ }))
      ∧ (1 ≤ s.req.m → w &&& ~~~0x4#64 ≠ 0 → let j := 8 * ((s.req.m - 1) % 8) + n % 8
          doneAs .breakpointWrite s (watchNow s c { k.watch with
            lbp := aput k.watch.lbp j ⟨(w &&& ~~~0x4#64).setWidth 128, armed (w.getLsbD 0) (trig k.watch.lbp j)⟩ }))
      ∧ (let v := BitVec.ofNat 128 s.req.value &&& ~~~0xFFFFFFF0#128
         v ≠ 0 → doneAs .watchpointWrite s (watchNow s c { k.watch with wps := aput k.watch.wps (n % 4) ⟨v, armed (w.getLsbD 0) (trig k.watch.wps (n % 4))⟩ }))
      ∧ (w.getLsbD 0 = w.getLsbD 1 → refused .haltCommand s .cpFrame ∧ refused .resumeCommand s .cpFrame)
      ∧ (w.getLsbD 0 = true → w.getLsbD 1 = false →
          (w.getLsbD 2 = false → k.unit.isSome = true → k.seq.halted = false → k.seq.phase ≠ .ended → ∃ u, exec .haltCommand s = .next u ∧ u.resp = ⟨.ok, []⟩
            ∧ (u.core c).seq.halted = true ∧ (u.core c).watch.stops = k.watch.stops ++ [⟨.seq c, .debugHalt, 0, 0, none, none⟩] ∧ (u.core c).seq.s = k.seq.s)
          ∧ (∀ b, w.getLsbD 2 = true → s.band c slot = some b → b.st ∈ [BState.ready, .waiting, .issuing, .parked] → b.parkRec = none →
            ∃ u b', exec .haltCommand s = .next u ∧ u.resp = ⟨.ok, []⟩ ∧ u.band c slot = some b' ∧ b'.st = .halted ∧ b'.halt = .debug ∧ b'.pc = b.pc ∧ b'.v = b.v
              ∧ (u.core c).watch.stops = k.watch.stops ++ [⟨.band c slot, .debugHalt, 0, b.live, none, none⟩]))
      ∧ (w.getLsbD 0 = false → w.getLsbD 1 = true →
          ((∃ r ∈ k.watch.stops, r.who = if w.getLsbD 2 then .band c slot else .seq c) → refused .resumeCommand s .contextBusy)
          ∧ ((∀ r ∈ k.watch.stops, r.who ≠ .seq c) → w.getLsbD 2 = false → k.seq.halted = true → ∃ u, exec .resumeCommand s = .next u ∧ u.resp = ⟨.ok, []⟩
            ∧ (u.core c).seq = { k.seq with halted := false, bpSkip := true })
          ∧ (∀ b, (∀ r ∈ k.watch.stops, r.who ≠ .band c slot) → w.getLsbD 2 = true → s.band c slot = some b → b.st = .halted → b.halt = .debug →
            b.wait = .none → b.unfinished = none → ∃ u b', exec .resumeCommand s = .next u ∧ u.resp = ⟨.ok, []⟩ ∧ u.band c slot = some b' ∧ b'.st = .ready
              ∧ b'.bpSkip = true ∧ b'.pc = b.pc ∧ b'.v = b.v)))

/-- R398, R405: a stop is reported with a record and vector 7, a hang with a HANG record and vector 5. -/
def Sys2Proof.Claims.WatchReports : Prop :=
  (∀ s r, let c := s.req.core % 64
    (s.core c).watch.stops[s.req.n]? = some r →
    (∀ u, r.who = .seq c → (s.core c).unit = some u → ctxSlot u.part u.ctx.toNat < 256 → (∃ l ∈ (s.core c).seq.land, s.cycle < l.last) → exec .stopReport s = .next s)
    ∧ (∀ u, r.who = .seq c → (s.core c).unit = some u → let x := ctxSlot u.part u.ctx.toNat
        x < 256 → (∀ l ∈ (s.core c).seq.land, l.last ≤ s.cycle) →
        ∃ t, exec .stopReport s = .next t ∧ (t.core c).watch.stops = (s.core c).watch.stops.eraseIdx s.req.n ∧ (t.part (x / 16)).vecs.getLsbD 7 = true
          ∧ (t.ctx x).frecNext = ((s.ctx x).frecNext + 1) % 64 ∧ (t.part (x / 16)).sluices = (s.part (x / 16)).sluices))
  ∧ (∀ s, (s.core (s.req.core % 64)).watch.stops[s.req.n]? = none → exec .stopReport s = .next s)
  ∧ (∀ s c, s.req.core = c → c < 64 →
      (aget (s.core c).watch.hang s.req.n = none → exec .hangWatchdogFire s = .next s)
      ∧ (∀ m, aget (s.core c).watch.hang s.req.n = some m → m < 2 ^ (s.core c).watch.wexp → s.req.n ≠ 300 → exec .hangWatchdogFire s = .next s)
      ∧ (∀ m u, aget (s.core c).watch.hang 0 = some m → s.req.n = 0 → 2 ^ (s.core c).watch.wexp ≤ m → m < 2 ^ 70 → (s.core c).unit = some u →
          let x := ctxSlot u.part u.ctx.toNat
          x < 256 → ∃ t, exec .hangWatchdogFire s = .next t ∧ faultRaised t x (.seq c) .hang ∧ (t.part (x / 16)).vecs.getLsbD 5 = true
            ∧ (t.core c).seq = (s.core c).seq ∧ ∃ r ∈ (t.part (x / 16)).sluices, ∃ f, r.record = some f ∧ f.kind = .hang ∧ f.vaddr = 1 ∧ f.pc = (s.core c).seq.pc)
      ∧ (∀ m n b, aget (s.core c).watch.hang (1 + n) = some m → s.req.n = 1 + n → n < 128 → 2 ^ (s.core c).watch.wexp ≤ m → m < 2 ^ 70 → s.band c n = some b →
          b.slot < 256 → ∃ t, exec .hangWatchdogFire s = .next t ∧ faultRaised t b.slot (.band c n) .hang ∧ (t.part (b.slot / 16)).vecs.getLsbD 5 = true
            ∧ t.band c n = some b))

/-- R123, R410: the debug window shows and changes the stores of any core and the registers of a stopped agent. -/
def Sys2Proof.Claims.WindowCommands : Prop :=
  ∀ s, s.fwStatus = .ok →
    let c := s.req.core % 64
    let k := s.core c
    let o := s.req.addr
    let dw := k.watch.dwin
    let framed := fun (n : Nat) => o % 8 = 0 ∧ n % 8 = 0 ∧ n ≠ 0 ∧ o < 0x80000 ∧ o % 4096 + n ≤ 4096
    let rn := s.req.n
    let wn := s.req.bytes.length
    (4 ≤ s.req.value % 16 → refused .debugWindowSelect s .cpFrame)
    ∧ (s.req.value % 16 < 4 → doneAs .debugWindowSelect s (watchNow s c { k.watch with dwin := reqWord s &&& 0xFFFF#64 }))
    ∧ (¬ framed rn → refused .debugWindowRead s .cpFrame) ∧ (framed rn → ¬ debugger s (if fld dw 0 4 ≤ 1 then 3 else 2) → refused .debugWindowRead s .debugDenied)
    ∧ (¬ framed wn → refused .debugWindowWrite s .cpFrame) ∧ (framed wn → ¬ debugger s 2 → refused .debugWindowWrite s .debugDenied)
    ∧ (framed rn → debugger s 3 → fld dw 0 4 = 0 → exec .debugWindowRead s = .next { s with resp := ⟨.ok, s.tileBytes k (fld dw 4 5 * 0x80000 + o) rn⟩ })
    ∧ (framed rn → debugger s 3 → fld dw 0 4 = 1 → o < 0x10000 → exec .debugWindowRead s = .next { s with resp := ⟨.ok, s.scalarBytes k o rn⟩ })
    ∧ (framed wn → debugger s 2 → fld dw 0 4 = 0 → doneAs .debugWindowWrite s (s.setCore c { k with tile := k.tile.writeBytes (fld dw 4 5 * 0x80000 + o) s.req.bytes }))
    ∧ (framed wn → debugger s 2 → fld dw 0 4 = 1 → o < 0x10000 → doneAs .debugWindowWrite s (s.setCore c { k with scalar := k.scalar.writeBytes o s.req.bytes }))
    ∧ (framed wn → debugger s 2 → fld dw 0 4 = 2 → k.unit = none ∨ k.seq.halted = false → refused .debugWindowWrite s .contextBusy)

/-- R123 to R125, R412 to R416: levels and keys, attestation, power states. -/
def Sys2Proof.Claims.SecurityAndPower : Prop :=
  ∀ s, s.fwStatus = .ok →
    let p := reqPart s
    let q := s.part p
    let v := s.req.value
    let pst := v % 8
    let f := v / 2 ^ 16 % 2 ^ 8
    let fmax := if 24 ≤ f ∧ f ≤ 36 then f else s.fmax
    let may := v = 0 ∨ (v = 1 ∧ (if s.vendor then q.grant else q.key) = true) ∨ (v = 2 ∧ s.vendor = true)
    let i := 1024 * s.fuses + s.counter
    (¬ may → refused .debugLevelRequest s .debugDenied)
    ∧ (may → v ≠ 0 → doneAs .debugLevelRequest s (s.onPart p fun q => { q with debug := v }))
    ∧ (v = 0 → ∃ u, exec .debugLevelRequest s = .next u ∧ u.resp = ⟨.ok, []⟩ ∧ (u.part p).debug = 0
        ∧ ∀ c < 64, q.cores.getLsbD c = true → (u.core c).watch.itrig = .off ∧ ∀ e ∈ (u.core c).watch.sbp ++ (u.core c).watch.lbp ++ (u.core c).watch.wps, e.2.trig = .off)
    ∧ (∃ u, exec .tenantKeyInstall s = .next u ∧ u.resp = ⟨.ok, []⟩ ∧ (u.part p).key = true ∧ ∀ c < 64, q.cores.getLsbD c = true → (u.core c).tile = Memory.zero)
    ∧ (∃ u, exec .tenantKeyRemove s = .next u ∧ u.resp = ⟨.ok, []⟩ ∧ (u.part p).key = false ∧ (q.debug = 1 → ¬ (s.vendor = true ∧ q.grant = true) → (u.part p).debug = 0)
        ∧ ∀ c < 64, q.cores.getLsbD c = true → (u.core c).tile = Memory.zero)
    ∧ (s.vendor = false → refused .vendorUnlockExit s .debugDenied)
    ∧ (s.vendor = true → ∃ u, exec .vendorUnlockExit s = .next u ∧ u.resp = ⟨.ok, []⟩ ∧ u.vendor = false ∧ u.pkg = Memory.zero
        ∧ (∀ c < 64, (u.core c).tile = Memory.zero ∧ (u.core c).watch.recs = []) ∧ ∀ p < 16, (u.part p).debug = 0 ∧ (u.part p).grant = false)
    ∧ (s.req.bytes.length ≠ 32 → refused .attestationRequest s .cpFrame)
    ∧ (s.req.bytes.length = 32 → 2 ^ 20 ≤ i → refused .attestationRequest s .attestExhausted)
    ∧ (s.req.bytes.length = 32 → i < 2 ^ 20 → s.counter < 1024 → ∃ u, exec .attestationRequest s = .next u ∧ u.resp.status = .ok
        ∧ 1024 * u.fuses + u.counter = i + 1 ∧ u.resp.data.take 32 = s.req.bytes ∧ u.cores = s.cores)
    ∧ (5 ≤ pst → refused .pwrSetActive s .powerState) ∧ (pst ≤ 2 → s.pst = 4 → refused .pwrSetActive s .powerState)
    ∧ (pst ≤ 2 → s.pst ≠ 4 → s.held = [] → doneAs .pwrSetActive s { s with pst := pst, fmax := fmax })
    ∧ (pst = 3 → s.pst = 4 ∨ (∃ p < 16, busy s p) → refused .pwrEnterP3 s .powerState)
    ∧ (pst = 3 → s.pst ≠ 4 → (∀ p < 16, ¬ busy s p) → ∃ u, exec .pwrEnterP3 s = .next u ∧ u.resp = ⟨.ok, []⟩ ∧ u.pst = 3
        ∧ ∀ n < 16, (u.port n).st = .down)
    ∧ (pst = 4 → ∃ u, exec .pwrEnterP4 s = .next u ∧ u.resp = ⟨.ok, []⟩ ∧ u.pst = 4 ∧ u.hbm = Memory.zero ∧ u.pkg = Memory.zero
        ∧ ∀ c < 64, (u.core c).tile = Memory.zero)

/-- R123 to R125, R392, R397 to R402, R405, R410, R412 to R416: the watch, the debug window, security and power states. -/
def Obligations.WatchSecurityPower : Prop :=
  Sys2Proof.Claims.WatchCommands ∧ Sys2Proof.Claims.WatchReports ∧ Sys2Proof.Claims.WindowCommands ∧ Sys2Proof.Claims.SecurityAndPower

/-- R76, R80, R87, R273, R293: an agent at an instruction that cannot be fetched, or at bits that are no instruction, takes the fault before
anything issues. -/
def Obligations.IllegalAndUnfetched : Prop :=
  (∀ s c u, s.cur = .seq c → c < 64 → (s.core c).unit = some u → ctxSlot u.part u.ctx.toNat < 256 →
    let stops := fun (i : Instr) (k : FKind) => ∃ t, exec i s = .next t ∧ (t.core c).seq.phase = .faulted ∧ (t.core c).seq.pc = (s.core c).seq.pc
      ∧ (t.core c).seq.s = (s.core c).seq.s ∧ faultRaised t (ctxSlot u.part u.ctx.toNat) (.seq c) k ∧ ∀ d, d ≠ c → t.core d = s.core d
    (∀ k pte, s.seqFetch c = .fault k pte → stops .instructionFetchFault k)
    ∧ (∀ pte, s.seqFetch c = .poison pte → stops .instructionFetchFault .ueSeq)
    ∧ (∀ w, s.seqFetch c = .word w → exec .instructionFetchFault s = .next s)
    ∧ (∀ w, s.seqFetch c = .word w → decodeBundle (BitVec.ofNat 256 w) = none →
        (∀ a, s.regTarget (BitVec.ofNat 48 w) = some a → a.toNat % 32 = 0) → stops .illegalOp .illegalOp)
    ∧ (∀ w a, s.seqFetch c = .word w → decodeBundle (BitVec.ofNat 256 w) = none → s.regTarget (BitVec.ofNat 48 w) = some a →
        a.toNat % 32 ≠ 0 → stops .illegalOp .fetchAlign)
    ∧ (∀ w, s.seqFetch c = .word w → (decodeBundle (BitVec.ofNat 256 w)).isSome = true → exec .illegalOp s = .next s))
  ∧ ∀ s c n b, s.cur = .band c n → c < 64 → s.band c n = some b → b.slot < 256 → b.st ≠ .free → b.st ≠ .done →
    let stops := fun (i : Instr) (k : FKind) => ∃ t b', exec i s = .next t ∧ t.band c n = some b' ∧ b'.st = .halted ∧ b'.halt = .fault ∧ b'.pc = b.pc ∧ b'.v = b.v
      ∧ b'.faultPc = b.pc ∧ faultRaised t b.slot (.band c n) k ∧ ∀ d, d ≠ c → t.core d = s.core d
    (∀ k pte, s.bandFetch c n = .fault k pte → stops .instructionFetchFault k)
    ∧ (∀ pte, s.bandFetch c n = .poison pte → stops .instructionFetchFault .pagePoisoned)
    ∧ (∀ w k pte, s.bandFetch c n = .word w → s.pairFetch c n w = some (.fault k pte) → stops .instructionFetchFault k)
    ∧ (∀ w pte, s.bandFetch c n = .word w → s.pairFetch c n w = some (.poison pte) → stops .instructionFetchFault .pagePoisoned)
    ∧ (∀ w, s.bandFetch c n = .word w → (s.pairFetch c n w = none ∨ ∃ v, s.pairFetch c n w = some (.word v)) → exec .instructionFetchFault s = .next s)
    ∧ (∀ w, s.bandFetch c n = .word w → decodeLane (BitVec.ofNat 64 w) = none → stops .illegalOp .illegalOp)
    ∧ (∀ w v i, s.bandFetch c n = .word w → s.pairFetch c n w = some (.word v) → decodeLane (BitVec.ofNat 64 w) = some i →
        (decodeLane (BitVec.ofNat 64 v) = none ∨ dpOk i (BitVec.ofNat 64 w) (BitVec.ofNat 64 v) = false) → stops .illegalOp .illegalOp)
    ∧ (∀ w, s.bandFetch c n = .word w → (s.laneDecode c n (BitVec.ofNat 64 w)).isSome = true → exec .illegalOp s = .next s)

namespace Sys2Proof.Claims

/-! ### Encodings -/

/-- The slots whose opcode maps hold an instruction (R60, R67 to R70). -/
def slotsOf : Instr → List Slot
  | .seqNop .. => [.a, .b, .m, .e, .d]
  | .seqAdd .. | .seqSub .. | .seqMul .. | .seqMulh .. | .seqAnd .. | .seqOr .. | .seqXor .. | .seqAndn ..
    | .seqShl .. | .seqShr .. | .seqSar .. | .seqMin .. | .seqMax .. | .seqCmp .. | .seqSel .. | .seqMov ..
    | .seqMovi .. | .seqMovh .. | .seqFadd .. | .seqFsub .. | .seqFmul .. | .seqFfma .. | .seqFcmp .. | .seqCvt ..
    | .seqChk .. | .seqAddImm .. | .seqSubImm .. | .seqMulImm .. | .seqAndImm .. | .seqOrImm .. | .seqXorImm ..
    | .seqShlImm .. | .seqShrImm .. | .seqSarImm .. | .seqMinImm .. | .seqMaxImm .. | .seqCmpImm .. => [.a, .b]
  | .seqLds .. | .seqSts .. | .seqTset .. | .seqTget .. | .seqTalloc .. | .seqTfree .. | .seqMovc .. => [.m]
  | .seqCpyin .. | .seqCpyout .. | .seqCpyxc .. | .seqDrain .. | .seqMxldw .. | .seqMxswap .. | .seqMxmul ..
    | .seqEpi .. | .seqQfence .. | .seqTsend .. | .seqTrecv .. | .seqColl .. => [.e]
  | .seqBr .. | .seqBrc .. | .seqKloop .. | .seqCall .. | .seqRet .. | .seqTop .. | .seqBind .. | .seqRebind ..
    | .seqTrestart .. | .seqTwaitState .. | .seqTwaitAll .. | .seqTwaitCh .. | .seqLaunch .. | .seqTenq ..
    | .seqDdec .. | .seqDdecCancel .. | .seqMark .. | .seqIpatch .. | .seqSysCsrr .. | .seqSysCsrw .. | .seqSysCsrs ..
    | .seqSysCsrc .. | .seqSysInt .. | .seqSysRkreg .. | .seqSysRkrev .. | .seqEret .. | .seqTrap .. => [.d]
  | _ => []

/-- The instructions of the lane opcode map (R86). -/
def isLane : Instr → Bool
  | .laneNop .. | .laneBra .. | .laneBrx .. | .laneCall .. | .laneRet .. | .laneJoin .. | .laneExit .. | .laneYield ..
    | .laneWait .. | .laneIadd .. | .laneIsub .. | .laneImul .. | .laneImad .. | .laneImulh .. | .laneIdiv ..
    | .laneIrem .. | .laneImin .. | .laneImax .. | .laneIshift .. | .laneIlogic .. | .laneIbit .. | .laneBfx ..
    | .laneBfi .. | .laneIcmp .. | .laneSel .. | .laneIabs .. | .laneIneg .. | .laneIaddImm .. | .laneIsubImm ..
    | .laneImulImm .. | .laneIminImm .. | .laneImaxImm .. | .laneFadd .. | .laneFsub .. | .laneFmul .. | .laneFfma ..
    | .laneFmin .. | .laneFmax .. | .laneFcmp .. | .laneFsf .. | .laneFaddImm .. | .laneFmulImm .. | .laneSladd ..
    | .laneSlsub .. | .laneSlmul .. | .laneSldiv .. | .laneSlcmp .. | .laneCvt .. | .laneCvtw .. | .laneCvtn ..
    | .lanePack .. | .laneUnpk .. | .laneMov .. | .laneMovi .. | .laneB2v .. | .laneV2b .. | .laneShfl ..
    | .laneVote .. | .laneBred .. | .laneLd .. | .laneSt .. | .laneLdt .. | .laneStt .. | .laneLdb .. | .laneStb ..
    | .laneAtom .. | .laneRed .. | .laneCpy .. | .laneDrain .. | .lanePref .. | .lanePacq .. | .lanePrel ..
    | .laneFence .. | .laneBar .. | .laneQfence .. | .laneQbind .. | .laneMmj .. | .laneTopn .. | .laneTenq ..
    | .laneDdec .. | .laneDdecCancel .. | .laneLaunch .. | .laneTrap .. | .laneBkpt .. | .laneChkt .. | .laneCsrr ..
    | .laneCsrw .. | .laneFlgr .. => true
  | _ => false

/-- The instructions of the policy opcode map (R89). -/
def isPolicy : Instr → Bool
  | .polNop .. | .polLdi .. | .polMov .. | .polAdd .. | .polAddImm .. | .polSub .. | .polSubImm .. | .polAnd ..
    | .polAndImm .. | .polOr .. | .polOrImm .. | .polXor .. | .polXorImm .. | .polShl .. | .polShlImm .. | .polShr ..
    | .polShrImm .. | .polMin .. | .polMinImm .. | .polMax .. | .polMaxImm .. | .polCmp .. | .polSel .. | .polBf ..
    | .polJf .. | .polLoop .. | .polEndl .. | .polLdv .. | .polScanMin .. | .polScanMax .. | .polCnt .. | .polDec ..
    | .polEnd .. => true
  | _ => false

/-! ### The machine's step -/

/-- The state in which the agenda's head acts: the rest of the agenda, and a new number for undefined values (R8). -/
def turned (s : State) (rest : List Turn) : State := { s with fresh := s.fresh + 1, agenda := rest }

/-- The state in which slot `n` of a bundle runs. -/
def inSlot (s : State) (n : Nat) : State := { s with frame := { s.frame with slot := n } }

/-- What a sequencer's turn leaves when no bundle is being issued any more. -/
def afterBundle (s : State) : State := { s with pre := none, frame := Frame.start }

/-- The sequencer of core `c` may issue a bundle in this cycle, as far as its own state says (R135). -/
def seqFree (s : State) (c : Nat) : Prop :=
  (s.core c).unit.isSome = true ∧ (s.core c).seq.phase = .run ∧ (s.core c).failed = false ∧ s.freezes c = []
  ∧ (s.core c).seq.readyAt ≤ s.cycle ∧ (s.core c).seq.patching = false ∧ (s.core c).seq.halted = false

/-- The flag word of the sequencer that acts is put to a value. -/
def withFlag (s : State) (f : Word) : State := s.onSeq fun q => { q with flag := f }
/-- The flag word of the sequencer that acts. -/
def flagOf (s : State) : Word := (s.core s.seqId).seq.flag

/-- The states that a bundle's slots pass through, from `u` to `td` (R37, R113, R135): slot A, slot B, slot M, slot E, slot D. The flags that the
slots raise are put into the flag word after slot D, which sees those of earlier bundles only. -/
def slotsRun (x : Bundle) (u td : State) : Prop :=
  ∃ ta tb tm te tq, exec x.a (inSlot (withFlag u 0) 0) = .next ta ∧ exec x.b (inSlot ta 1) = .next tb
    ∧ exec x.m (inSlot (if x.dup then withFlag tb (flagOf ta) else tb) 2) = .next tm ∧ exec x.e (inSlot tm 3) = .next te
    ∧ exec x.d (inSlot (withFlag te (flagOf u)) 4) = .next tq ∧ td = withFlag tq (flagOf tq ||| flagOf te)

/-- The turn that a step takes from the agenda, and the agenda after it. -/
def upNext (s : State) : Turn × List Turn := { s with fresh := s.fresh + 1 }.nextPick

/-- The state in which the sequencer of core `c` fetches its bundle. -/
def seqMeets (s : State) (rest : List Turn) (c : Nat) : State :=
  { turned s rest with cur := .seq c, pre := some (s.core c), frame := { Frame.start with slot := 4 } }

/-- The state in which it decodes the bundle: the core holds what the fetch has loaded (R268). -/
def seqActs (s : State) (rest : List Turn) (c : Nat) : State :=
  (seqMeets s rest c).fetchTouch c (s.core c).unitCtx (s.core c).seq.pc 32

/-- The state in which a bundle's slots run. -/
def bundleActs (s : State) (rest : List Turn) (c : Nat) : State :=
  (seqActs s rest c).onCore c fun k => { k with seq := { k.seq with entry := some (k.seq.entry.getD s.cycle) } }

/-- A sequencer whose turn it is runs the slots of the bundle it fetched. -/
def SequencerRunsItsBundle : Prop :=
  ∀ s c rest w x td, c < 64 → upNext s = (.seq c, rest) → s.pst < 3 → seqFree s c → (seqMeets s rest c).seqFetch c = .word w →
    decodeBundle (BitVec.ofNat 256 w) = some x → slotsRun x (bundleActs s rest c) td →
    (∀ r, td.frame.stall = some r → ∃ t, step s = .next t ∧ (t.core c).seq.stall = some r ∧ (t.core c).seq.pc = (s.core c).seq.pc
      ∧ (t.core c).seq.s = (s.core c).seq.s ∧ t.hbm = (seqActs s rest c).hbm ∧ t.pkg = (seqActs s rest c).pkg)
    ∧ (td.frame.stall = none → td.frame.trap = none → td.frame.fault = none → (∀ a, td.frame.target = some a → a.toNat % 32 = 0) →
      matchBreak (s.core c).watch.sbp (s.core c).seq.pc = none →
      step s = .next (afterBundle (td.seqIssued c x (s.core c).seq.pc))
      ∧ ((td.seqIssued c x (s.core c).seq.pc).core c).seq.pc = td.frame.target.getD ((s.core c).seq.pc + 32)
      ∧ ((td.seqIssued c x (s.core c).seq.pc).core c).seq.readyAt = td.cycle + 1 + x.wait.toNat)

/-- A word that is no bundle raises ILLEGAL_OP. -/
def SequencerMeetsIllegalWords : Prop :=
  ∀ s c rest w t, upNext s = (.seq c, rest) → s.pst < 3 → seqFree s c → (seqMeets s rest c).seqFetch c = .word w →
    decodeBundle (BitVec.ofNat 256 w) = none → exec .illegalOp (seqActs s rest c) = .next t → step s = .next (afterBundle t)

/-- The state in which the slice scheduler looks at a band. -/
def bandMeets (s : State) (rest : List Turn) (c n : Nat) (b : Band) : State :=
  { turned s rest with cur := .band c n, preBand := none }.onBand c n fun _ => b

/-- A band that issues. -/
def issuing (b : Band) : Band := { b with st := .issuing }

/-- The state in which a band's instruction runs: the core holds what the fetch has loaded (R268). -/
def bandActs (s : State) (rest : List Turn) (c n : Nat) (b : Band) : State :=
  { (bandMeets s rest c n b).bandFetched c n b with cur := .band c n, preBand := none }.onBand c n fun _ => issuing b

/-- A band whose turn it is runs the instruction it fetched when the slice scheduler picks it (R221); the instruction takes its pipe, and the
band issues again in the next cycle at the earliest. One that cannot issue leaves the band where it was. -/
def BandRunsItsInstruction : Prop :=
  ∀ s c n b i rest w, upNext s = (.band c n, rest) → s.pst < 3 → (s.core c).failed = false → s.freezes c = [] → s.band c n = some b →
    b.mayIssue s.cycle = true → b.reconverge 34 = b → (bandActs s rest c n b).bandFetch c n = .word w →
    ((bandMeets s rest c n b).picked c n = false → step s = .next (bandMeets s rest c n b))
    ∧ ((bandMeets s rest c n b).picked c n = true →
      (decodeLane (BitVec.ofNat 64 w) = none → step s = exec .illegalOp (bandActs s rest c n b))
      ∧ (decodeLane (BitVec.ofNat 64 w) = some i → (BitVec.ofNat 64 w).getLsbD 48 = false →
          matchBreak ((s.core c).watch.lbp.filter fun e => e.1 / 8 = n / 16) b.pc = none →
          ∀ t, exec i (bandActs s rest c n b) = .next t →
            (t.stays c n (issuing b) = true → step s = .next t)
            ∧ (t.stays c n (issuing b) = false →
                step s = .next ((t.takePipes c n ((bandActs s rest c n b).laneUse (issuing b) i) none).onBand c n fun a =>
                  { a.settle with bpSkip := false, lastIssue := s.cycle, readyAt := max a.readyAt (s.cycle + 1) }))))

/-- A policy engine whose turn it is runs its program's next instruction. -/
def EngineRunsItsInstruction : Prop :=
  ∀ s e rest g w i, upNext s = (.engine e, rest) → s.pst < 3 → s.engines[e]? = some (some g) → g.overBudget = false →
    g.prog[g.pc]? = some w → decodePol w = some i → step s = exec i { turned s rest with engineCur := e, cur := .env }

/-- The events of a context in the order in which they act in one cycle (R105): a fault's decision, a retirement, a replay, a pre-emption, a
launch's completion, a placement. -/
def contextOrder : List Instr :=
  [.decisionEscalate, .contextRetire, .decisionReplay, .decisionPreempt, .unitRetire, .launchPlaceStartVector]
/-- The events of a port in their order (R366). -/
def portOrder : List Instr := [.lportDisable, .linkReplayTimeout, .linkLaneLockLoss, .linkFlitError, .linkReplayComplete]

/-- An event of the agenda happens with its request; an empty agenda lets a cycle pass, in which the clock advances unless it stands still
(R416). -/
def EventsHappen : Prop :=
  (∀ s i r rest, upNext s = (.event i r, rest) → (s.pst < 3 ∨ controlEvent i = true) →
    step s = exec i { turned s rest with cur := .env, req := r })
  ∧ (∀ s i r rest, upNext s = (.event i r, rest) → 3 ≤ s.pst → controlEvent i = false → step s = .next (turned s rest))
  ∧ (∀ s, s.agenda = [] → 3 ≤ s.pst → step s = .next (turned s []))
  ∧ (∀ s, s.agenda = [] → s.pst < 3 → ∃ t, step s = .next t ∧ t.cycle = s.cycle + 1)
  ∧ (∀ s rest, upNext s = (.cycle, rest) → s.pst < 3 → ∃ t, step s = .next t ∧ t.cycle = s.cycle + 1)
  ∧ (∀ s p rest, upNext s = (.portSend p, rest) → s.pst < 3 → step s = .next ((turned s rest).portSend p))
  ∧ (∀ s p n rest, upNext s = (.flitAck p n, rest) → s.pst < 3 → step s = .next ((turned s rest).flitAck p n))
  ∧ (∀ s p f rest, upNext s = (.flitIn p f, rest) → s.pst < 3 → step s = .next ((turned s rest).flitIn p f))
  ∧ (∀ s r rest, upNext s = (.cpRead r, rest) → step s = .next ({ turned s rest with cur := .env, req := r }.cpRead))
  ∧ ∀ s bs rest, upNext s = (.frame bs, rest) → step s = (turned s rest).frameIn bs

/-- R6, R105, R132, R163, R217, R328, R366: of the turns before the end of the cycle the step takes the first of those that come first in the
chapters' order: sequencers, events, policy engines, bands. -/
def TurnsComeInOrder : Prop :=
  (∀ s t rest, s.agenda ≠ [] → upNext s = (t, rest) → ∃ l r, s.agenda = l ++ t :: r ∧ rest = l ++ r
    ∧ (t = .cycle → l = [])
    ∧ (t ≠ .cycle → Turn.cycle ∉ l ∧ (∀ u ∈ l, ({ s with fresh := s.fresh + 1 } : State).turnRank t < ({ s with fresh := s.fresh + 1 } : State).turnRank u)
        ∧ ∀ u ∈ r.takeWhile (fun u => u ≠ .cycle), ({ s with fresh := s.fresh + 1 } : State).turnRank t ≤ ({ s with fresh := s.fresh + 1 } : State).turnRank u))
  ∧ (∀ s i c n e, s.agenda = [.band c n, .engine e, .event i s.req, .seq c] → upNext s = (.seq c, [.band c n, .engine e, .event i s.req]))
  ∧ (∀ s i c n e, s.agenda = [.band c n, .engine e, .event i s.req] → upNext s = (.event i s.req, [.band c n, .engine e]))
  ∧ (∀ s c n e, s.agenda = [.band c n, .engine e] → upNext s = (.engine e, [.band c n]))
  ∧ (∀ i ∈ contextOrder.zip (contextOrder.drop 1) ++ portOrder.zip (portOrder.drop 1), ∀ s, s.agenda = [.event i.2 s.req, .event i.1 s.req] →
      upNext s = (.event i.1 s.req, [.event i.2 s.req]))

/-- The stores' canonical form: the homes, and every core's tile store and scalar store. -/
def storesCanonical (s : State) : Prop :=
  s.hbm.wf = true ∧ s.pkg.wf = true ∧ ∀ c < 64, (s.core c).tile.wf = true ∧ (s.core c).scalar.wf = true

end Sys2Proof.Claims

/-- Decoding an encoded well-formed instruction gives it back in each of its slots, in a band and in a policy, and a word that decodes is
the encoding of what it decodes to. -/
def Obligations.EncodingsRoundTrip : Prop :=
  (∀ i sl, i.wf = true → sl ∈ slotsOf i → decodeSlot sl (encodeSlot i) = some i)
  ∧ (∀ i, i.wf = true → isLane i = true → decodeLane (encodeLane i) = some i)
  ∧ (∀ i, i.wf = true → isPolicy i = true → decodePol (encodePol i) = some i)
  ∧ (∀ sl w i, decodeSlot sl w = some i → encodeSlot i = w ∧ i.wf = true ∧ sl ∈ slotsOf i)
  ∧ (∀ w i, decodeLane w = some i → encodeLane i = w ∧ i.wf = true ∧ isLane i = true)
  ∧ (∀ w i, decodePol w = some i → encodePol i = w ∧ isPolicy i = true)
  ∧ ∀ x : Bundle, x.a.wf = true → x.b.wf = true → x.m.wf = true → x.e.wf = true → x.d.wf = true → .a ∈ slotsOf x.a → .b ∈ slotsOf x.b →
      .m ∈ slotsOf x.m → .e ∈ slotsOf x.e → .d ∈ slotsOf x.d → bundleOk (encodeBundle x) x = true →
      decodeBundle (encodeBundle x) = some x

/-- Words written out from the specification's encodings: its three worked examples, and one word of each further family. -/
def Obligations.WordsDecode : Prop :=
  decodeBundle 0x24000105_10C40000_010530C4_00000000_00000000_00000000_00000300_FFFFFFFD#256
      = some ⟨2, false, true, .seqAdd ⟨0, false⟩ 40 33 34, .seqAdd ⟨0, false⟩ 41 33 34, .seqNop, .seqNop, .seqKloop ⟨0, false⟩ 0xFFFFFFFD⟩
  ∧ decodeLane 0x90C4A08090A0B400#64 = some (.laneFfma ⟨true, 1, false, false⟩ ⟨0xA, 8, 9, 10, 11, 1, false, false, 0, 0⟩)
  ∧ decodePol 0x8CC40005#32 = some (.polAddImm 3 1 5)
  ∧ decodeSlot .m (1#8 ++ 5#4 ++ 1#1 ++ 7#6 ++ 8#6 ++ 0#1 ++ 2#2 ++ 1#1 ++ 0x7FFF8#19) = some (.seqLds ⟨5, true⟩ 7 8 false 2 true 0x7FFF8)
  ∧ decodeSlot .e (7#8 ++ 0#4 ++ 0#1 ++ 0#2 ++ 0#6 ++ 3#6 ++ 4#6 ++ 3#15) = some (.seqMxmul ⟨0, false⟩ 0 3 4 true true false)
  ∧ decodeSlot .d (0x12#8 ++ 0#4 ++ 0#1 ++ 0#3 ++ 77#32) = some (.seqTrap ⟨0, false⟩ 77)
  ∧ decodeSlot .a (0x1A#8 ++ 0#40) = none ∧ decodeSlot .a 1#48 = none
  ∧ decodeLane (0#1 ++ 0xC0#9 ++ 7#4 ++ 0#2 ++ 0#4 ++ 5#8 ++ 0x80#8 ++ 0xFFFF8#20 ++ 6#4 ++ 0#3 ++ 0#1)
      = some (.laneLd ⟨false, 7, false, false⟩ ⟨0, 5, 0x80, 0xFFFF8, 6, 0⟩)
  ∧ decodeLane 0#64 = none ∧ decodePol 0xFC000000#32 = none

/-- R6, R60, R76, R78, R87, R105, R135, R221, R341, R366: a step runs the instruction that the agent's next bytes decode to, and an event of the
agenda happens. -/
def Obligations.StepRunsTheDecodedInstruction : Prop :=
  SequencerRunsItsBundle ∧ SequencerMeetsIllegalWords ∧ BandRunsItsInstruction ∧ EngineRunsItsInstruction ∧ EventsHappen ∧ TurnsComeInOrder

/-- R411, R103, R365, R370, R392, R414: what module reset leaves, as far as the specification gives it. -/
def Obligations.ResetState : Prop :=
  let s := State.reset
  s.pst = 0 ∧ s.cycle = 0 ∧ s.devid = 0 ∧ s.e2et = 50 ∧ s.dupcnt = 0 ∧ s.fcur = 36 ∧ s.fmax = 36
  ∧ (∀ p < 16, (s.ports[p]?).map (fun q => (q.en, q.st)) = some (false, .down))
  ∧ (∀ p < 16, (s.part p).slot.st = .absent ∧ (s.part p).cores = 0)
  ∧ (∀ x < 256, (s.ctx x).st = .empty ∧ (s.ctx x).sset = 0x3FF ∧ (s.ctx x).ttab = 0 ∧ (s.ctx x).keys = 0 ∧ (s.ctx x).save = 0)
  ∧ (∀ c < 64, (s.core c).unit = none ∧ (s.core c).bands = [] ∧ (s.core c).watch.dthr = 0x1000 ∧ (s.core c).watch.wexp = 32
      ∧ (s.core c).watch.memt = false ∧ (s.core c).watch.drift = false ∧ (s.core c).seq.mode = 0 ∧ ∀ a, (s.core c).tile.read a = some 0
      ∧ (s.core c).scalar.read a = some 0)
  ∧ (∀ a, s.pkg.read a = some 0) ∧ ∀ d, (s.peer d).next = 1 ∧ (s.peer d).expect = 1

/-- No instruction is refused and none faults the model: `exec` always answers a next state, and a step does so but for a policy program
that was never admitted (R90). -/
def Obligations.EveryInstructionGoesOn : Prop :=
  (∀ i s, ∃ t, exec i s = .next t)
  ∧ ∀ s, (∃ t, step s = .next t) ∨ (step s = .fault .policyWord ∧ ∃ e rest g, upNext s = (.engine e, rest)
      ∧ s.engines[e]? = some (some g) ∧ (g.prog[g.pc]?).bind decodePol = none)

/-- The stores are in canonical form at reset. -/
def Obligations.ResetStoresCanonical : Prop := storesCanonical State.reset

/-- Every step keeps the stores in canonical form: addresses strictly rising, no listed byte equal to what its address reads as unlisted. -/
def Obligations.StepsKeepStoresCanonical : Prop := ∀ s t, storesCanonical s → step s = .next t → storesCanonical t
end

