-- ==== Sys2Proof/Laws/Tables.lean ====
section
/-!
SUPPORT. Laws of the sparse tables: reading what was put, deleted or changed at a key, and at the others.
-/

namespace Sys2Proof

variable {α : Type}

@[simp] theorem aget_nil (n : Nat) : aget ([] : List (Nat × α)) n = none := rfl

/-- Putting at a key makes it read as put. -/
theorem aget_aput_same (l : List (Nat × α)) (n : Nat) (x : α) : aget (aput l n x) n = some x := by
  induction l with
  | nil => simp [aput, aget]
  | cons e t ih =>
    obtain ⟨k, v⟩ := e
    simp only [aput]
    split
    · simp [aget]
    · split
      · simp [aget]
      · rename_i h1 h2
        simp [aget, h2, ih]

/-- Putting at a key leaves every other key alone. -/
theorem aget_aput_ne (l : List (Nat × α)) {n m : Nat} (x : α) (h : m ≠ n) : aget (aput l n x) m = aget l m := by
  induction l with
  | nil => simp [aput, aget, h]
  | cons e t ih =>
    obtain ⟨k, v⟩ := e
    simp only [aput]
    split
    · simp [aget, h]
    · split
      · rename_i h1 h2
        subst h2
        simp [aget, h]
      · simp only [aget, ih]

/-- Changing the entry at a key. -/
theorem aget_amod (l : List (Nat × α)) (n m : Nat) (f : α → α) :
    aget (amod l n f) m = if m = n then (aget l m).map f else aget l m := by
  induction l with
  | nil => simp [amod]
  | cons e t ih =>
    obtain ⟨k, v⟩ := e
    simp only [amod]
    by_cases hk : n = k
    · subst hk
      by_cases hm : m = n
      · simp [aget, hm]
      · simp [aget, hm]
    · simp only [hk, if_false, aget, ih]
      by_cases hm : m = n
      · subst hm
        simp [hk]
      · simp [hm]

end Sys2Proof
end

