-- ==== Sys2Proof/Laws/Memory.lean ====
section
/-!
SUPPORT. Laws of the byte stores: what a read gives after a write, and that every operation keeps the canonical form.
-/

namespace Sys2Proof.Machine

/-! ### The canonical form in other words -/

/-- Cells whose addresses rise strictly, as a pairwise order. -/
theorem rising_iff (l : List Host.Cell) : rising l = true ↔ l.Pairwise fun a b => a.1 < b.1 := by
  induction l with
  | nil => simp [rising]
  | cons a t ih =>
    cases t with
    | nil => simp [rising]
    | cons b t =>
      simp only [rising, Bool.and_eq_true, decide_eq_true_eq, ih]
      constructor
      · rintro ⟨hab, hbt⟩
        refine List.pairwise_cons.mpr ⟨?_, hbt⟩
        intro c hc
        rcases List.mem_cons.mp hc with rfl | hc
        · exact hab
        · exact lt_trans hab ((List.pairwise_cons.mp hbt).1 c hc)
      · intro h
        exact ⟨(List.pairwise_cons.mp h).1 b (by simp), (List.pairwise_cons.mp h).2⟩

/-- The canonical form: rising addresses, and no cell that equals what its address reads as unlisted. -/
theorem Memory.wf_iff (m : Memory) :
    m.wf = true ↔ (m.cells.Pairwise fun a b => a.1 < b.1) ∧ ∀ c ∈ m.cells, m.base c.1 ≠ some c.2 := by
  simp [Memory.wf, rising_iff]

/-- What an address reads as unlisted depends on the undefined ranges alone. -/
theorem Memory.base_congr {m n : Memory} (h : m.undef = n.undef) (a : Nat) : m.base a = n.base a := by
  simp [Memory.base, h]

/-! ### Tables of cells -/

theorem mem_aput {l : List Host.Cell} {a : Nat} {b : Byte} {c : Host.Cell} (h : c ∈ aput l a b) : c = (a, b) ∨ c ∈ l := by
  induction l with
  | nil => simpa [aput] using h
  | cons e t ih =>
    obtain ⟨k, v⟩ := e
    simp only [aput] at h
    split at h
    · simp at h ⊢; tauto
    · split at h
      · simp at h ⊢; tauto
      · simp at h ⊢
        rcases h with h | h
        · tauto
        · rcases ih h with h | h <;> tauto

theorem mem_adel {l : List Host.Cell} {a : Nat} {c : Host.Cell} (h : c ∈ adel l a) : c ∈ l := by
  induction l with
  | nil => simp [adel] at h
  | cons e t ih =>
    obtain ⟨k, v⟩ := e
    simp only [adel] at h
    split at h
    · exact List.mem_cons_of_mem _ h
    · rcases List.mem_cons.mp h with rfl | h
      · simp
      · exact List.mem_cons_of_mem _ (ih h)

theorem pairwise_aput {l : List Host.Cell} (h : l.Pairwise fun a b => a.1 < b.1) (a : Nat) (b : Byte) :
    (aput l a b).Pairwise fun a b => a.1 < b.1 := by
  induction l with
  | nil => simp [aput]
  | cons e t ih =>
    obtain ⟨k, v⟩ := e
    have ht := List.pairwise_cons.mp h
    simp only [aput]
    split
    · rename_i hlt
      refine List.pairwise_cons.mpr ⟨?_, h⟩
      intro c hc
      rcases List.mem_cons.mp hc with rfl | hc
      · exact hlt
      · exact lt_trans hlt (ht.1 c hc)
    · split
      · rename_i heq
        refine List.pairwise_cons.mpr ⟨?_, ht.2⟩
        intro c hc
        simpa [heq] using ht.1 c hc
      · rename_i h1 h2
        refine List.pairwise_cons.mpr ⟨?_, ih ht.2⟩
        intro c hc
        rcases mem_aput hc with rfl | hc
        · show k < a
          omega
        · exact ht.1 c hc

theorem adel_sublist (l : List Host.Cell) (a : Nat) : (adel l a).Sublist l := by
  induction l with
  | nil => simp [adel]
  | cons e t ih =>
    obtain ⟨k, v⟩ := e
    simp only [adel]
    split
    · simp
    · exact ih.cons_cons _

theorem aget_adel_same {l : List Host.Cell} (h : l.Pairwise fun a b => a.1 < b.1) (a : Nat) : aget (adel l a) a = none := by
  induction l with
  | nil => simp [adel]
  | cons e t ih =>
    obtain ⟨k, v⟩ := e
    have ht := List.pairwise_cons.mp h
    simp only [adel]
    split
    · rename_i heq
      subst heq
      have : ∀ l : List Host.Cell, (∀ c ∈ l, a < c.1) → aget l a = none := by
        intro l
        induction l with
        | nil => simp
        | cons e t ih =>
          intro hl
          have h1 := hl e (by simp)
          simp only [aget]
          rw [if_neg (by omega)]
          exact ih fun c hc => hl c (by simp [hc])
      exact this t ht.1
    · rename_i hne
      simp [aget, hne, ih ht.2]

theorem aget_adel_ne (l : List Host.Cell) {a x : Nat} (h : x ≠ a) : aget (adel l a) x = aget l x := by
  induction l with
  | nil => simp [adel]
  | cons e t ih =>
    obtain ⟨k, v⟩ := e
    simp only [adel]
    split
    · rename_i heq
      subst heq
      simp [aget, h]
    · simp only [aget, ih]

/-! ### Reading after writing -/

/-- A byte reads as it was last stored. -/
theorem Memory.read_write_same {m : Memory} (h : m.wf = true) (a : Nat) (b : Byte) : (m.write a b).read a = some b := by
  have hp := ((m.wf_iff).mp h).1
  unfold Memory.write
  split
  · rename_i hb
    simp only [Memory.read, aget_adel_same hp]
    exact hb
  · simp [Memory.read, aget_aput_same]

/-- Storing a byte leaves every other address alone. -/
theorem Memory.read_write_ne (m : Memory) {a x : Nat} (b : Byte) (h : x ≠ a) : (m.write a b).read x = m.read x := by
  unfold Memory.write
  split
  · simp only [Memory.read, aget_adel_ne _ h]
    rfl
  · simp only [Memory.read, aget_aput_ne _ _ h]
    rfl

/-- Storing bytes leaves every address outside them alone. -/
theorem Memory.read_writeBytes_out (m : Memory) (a : Nat) (bs : List Byte) {x : Nat} (h : x < a ∨ a + bs.length ≤ x) :
    (m.writeBytes a bs).read x = m.read x := by
  induction bs generalizing m a with
  | nil => rfl
  | cons b t ih =>
    simp only [Memory.writeBytes]
    simp only [List.length_cons] at h
    rw [ih _ _ (by omega), Memory.read_write_ne _ _ (by omega)]

/-! ### Every operation keeps the canonical form -/

/-- A store of zeros is canonical. -/
@[simp] theorem Memory.wf_zero : Memory.zero.wf = true := rfl

/-- Storing a byte keeps the canonical form. -/
theorem Memory.wf_write {m : Memory} (h : m.wf = true) (a : Nat) (b : Byte) : (m.write a b).wf = true := by
  obtain ⟨hp, hb⟩ := (m.wf_iff).mp h
  unfold Memory.write
  split
  · refine (Memory.wf_iff _).mpr ⟨hp.sublist (adel_sublist _ _), ?_⟩
    intro c hc
    exact hb c (mem_adel hc)
  · rename_i hne
    refine (Memory.wf_iff _).mpr ⟨pairwise_aput hp a b, ?_⟩
    intro c hc
    rcases mem_aput hc with rfl | hc
    · exact hne
    · exact hb c hc

/-- Storing bytes keeps the canonical form. -/
theorem Memory.wf_writeBytes {m : Memory} (h : m.wf = true) (a : Nat) (bs : List Byte) : (m.writeBytes a bs).wf = true := by
  induction bs generalizing m a with
  | nil => exact h
  | cons b t ih => exact ih (Memory.wf_write h a b) _

/-- The stored bytes read back. -/
theorem Memory.read_writeBytes_in {m : Memory} (h : m.wf = true) (a : Nat) (bs : List Byte) {i : Nat} (hi : i < bs.length) :
    (m.writeBytes a bs).read (a + i) = bs[i]? := by
  induction bs generalizing m a i with
  | nil => simp at hi
  | cons b t ih =>
    simp only [Memory.writeBytes]
    cases i with
    | zero =>
      rw [Memory.read_writeBytes_out _ _ _ (by omega)]
      simpa using Memory.read_write_same h a b
    | succ i =>
      have := ih (Memory.wf_write h a b) (a + 1) (i := i) (by simpa using hi)
      rw [show a + (i + 1) = a + 1 + i by omega, this]
      simp

/-- Cutting ranges takes exactly the cut addresses out of them. -/
theorem inRanges_cut (u : List (Nat × Nat)) (lo hi a : Nat) :
    inRanges (cutRanges u lo hi) a = (inRanges u a && !(decide (lo ≤ a) && decide (a < hi))) := by
  induction u with
  | nil => simp [inRanges, cutRanges]
  | cons r t ih =>
    obtain ⟨x, y⟩ := r
    have e : cutRanges ((x, y) :: t) lo hi =
        ([(x, min y lo), (max x hi, y)].filter fun q => decide (q.1 < q.2)) ++ cutRanges t lo hi := by
      simp [cutRanges]
    have step : inRanges ([(x, min y lo), (max x hi, y)].filter fun q => decide (q.1 < q.2)) a
        = (decide (x ≤ a) && decide (a < y) && !(decide (lo ≤ a) && decide (a < hi))) := by
      rw [Bool.eq_iff_iff]
      simp only [inRanges, List.any_filter, List.any_cons, List.any_nil, Bool.or_false, Bool.or_eq_true, Bool.and_eq_true,
        decide_eq_true_eq, Bool.not_eq_true', Bool.and_eq_false_iff, decide_eq_false_iff_not]
      omega
    rw [e]
    unfold inRanges at *
    rw [List.any_append, ih, step, List.any_cons]
    cases List.any t _ <;> cases decide (x ≤ a) <;> cases decide (a < y) <;> simp

theorem base_of_inRanges {m n : Memory} {a : Nat} (h : inRanges m.undef a = inRanges n.undef a) : m.base a = n.base a := by
  simp [Memory.base, h]

/-- Clearing a range keeps the canonical form. -/
theorem Memory.wf_zeroRange {m : Memory} (h : m.wf = true) (lo hi : Nat) : (m.zeroRange lo hi).wf = true := by
  obtain ⟨hp, hb⟩ := (m.wf_iff).mp h
  refine (Memory.wf_iff _).mpr ⟨hp.sublist List.filter_sublist, ?_⟩
  intro c hc
  obtain ⟨hc, ho⟩ := List.mem_filter.mp hc
  simp only [decide_eq_true_eq] at ho
  have : (m.zeroRange lo hi).base c.1 = m.base c.1 := by
    apply base_of_inRanges
    simp only [Memory.zeroRange, inRanges_cut]
    have : (decide (lo ≤ c.1) && decide (c.1 < hi)) = false := by
      simp only [Bool.and_eq_false_iff, decide_eq_false_iff_not]; omega
    simp [this]
  rw [this]
  exact hb c hc

/-- Making a range undefined keeps the canonical form. -/
theorem Memory.wf_undefRange {m : Memory} (h : m.wf = true) (lo hi : Nat) : (m.undefRange lo hi).wf = true := by
  obtain ⟨hp, hb⟩ := (m.wf_iff).mp h
  refine (Memory.wf_iff _).mpr ⟨hp.sublist List.filter_sublist, ?_⟩
  intro c hc
  obtain ⟨hc, ho⟩ := List.mem_filter.mp hc
  simp only [decide_eq_true_eq] at ho
  have : (m.undefRange lo hi).base c.1 = m.base c.1 := by
    apply base_of_inRanges
    have out : (decide (lo ≤ c.1) && decide (c.1 < hi)) = false := by
      simp only [Bool.and_eq_false_iff, decide_eq_false_iff_not]; omega
    have cut := inRanges_cut m.undef lo hi c.1
    simp only [out, Bool.not_false, Bool.and_true] at cut
    simp only [Memory.undefRange]
    unfold inRanges at *
    rw [List.any_append, cut]
    simp [out]
  rw [this]
  exact hb c hc

/-- Cleared bytes read zero. -/
theorem Memory.read_zeroRange (m : Memory) {lo hi a : Nat} (h : lo ≤ a ∧ a < hi) : (m.zeroRange lo hi).read a = some 0 := by
  have hn : ∀ l : List Host.Cell, aget (l.filter fun c => decide (c.1 < lo ∨ hi ≤ c.1)) a = none := by
    intro l
    induction l with
    | nil => simp
    | cons e t ih =>
      rw [List.filter_cons]
      split
      · rename_i ho
        simp only [decide_eq_true_eq] at ho
        simp only [aget]
        rw [if_neg (by omega)]
        exact ih
      · exact ih
  have hb : (m.zeroRange lo hi).base a = some 0 := by
    simp only [Memory.base, Memory.zeroRange, inRanges_cut]
    simp [h.1, h.2]
  simp only [Memory.read]
  rw [show (m.zeroRange lo hi).cells = m.cells.filter fun c => decide (c.1 < lo ∨ hi ≤ c.1) from rfl, hn, hb]

/-! ### Copying from store to store -/

/-- The ranges that a copy brings along start at the copied bytes. -/
theorem lo_le_cut (u : List (Nat × Nat)) (lo n : Nat) :
    ∀ r ∈ cutRanges (cutRanges u 0 lo) (lo + n) (lo + n + 2 ^ 60), lo ≤ r.1 := by
  intro r hr
  simp only [cutRanges, List.mem_flatMap, List.mem_filter, List.mem_cons, List.not_mem_nil, or_false, decide_eq_true_eq] at hr
  obtain ⟨p, ⟨q, -, hp, -⟩, hr, h2⟩ := hr
  rcases hp with rfl | rfl <;> rcases hr with rfl | rfl <;> simp at * <;> omega

/-- Which addresses of the destination the copied ranges make undefined. -/
theorem inRanges_moved (u : List (Nat × Nat)) (lo n dlo a : Nat) :
    inRanges ((cutRanges (cutRanges u 0 lo) (lo + n) (lo + n + 2 ^ 60)).map
        (fun r => (r.1 - lo + dlo, min r.2 (lo + n) - lo + dlo))) a
      = (decide (dlo ≤ a) && decide (a < dlo + n) && inRanges u (a - dlo + lo)) := by
  have hlo := lo_le_cut u lo n
  have hcut := fun b => inRanges_cut (cutRanges u 0 lo) (lo + n) (lo + n + 2 ^ 60) b
  have hcut0 := fun b => inRanges_cut u 0 lo b
  generalize hl : cutRanges (cutRanges u 0 lo) (lo + n) (lo + n + 2 ^ 60) = l at *
  rw [Bool.eq_iff_iff]
  have key : inRanges u (a - dlo + lo) = true ∧ dlo ≤ a ∧ a < dlo + n ↔ inRanges l (a - dlo + lo) = true ∧ dlo ≤ a ∧ a < dlo + n := by
    rw [hcut, hcut0]
    simp only [Bool.and_eq_true, Bool.not_eq_true', Bool.and_eq_false_iff, decide_eq_false_iff_not]
    constructor
    · rintro ⟨h, h1, h2⟩
      exact ⟨⟨⟨h, Or.inr (by omega)⟩, Or.inl (by omega)⟩, h1, h2⟩
    · rintro ⟨⟨⟨h, -⟩, -⟩, h1, h2⟩
      exact ⟨h, h1, h2⟩
  simp only [Bool.and_eq_true, decide_eq_true_eq]
  constructor
  · intro h
    simp only [inRanges, List.any_map, List.any_eq_true, Function.comp, Bool.and_eq_true, decide_eq_true_eq] at h
    obtain ⟨r, hr, h1, h2⟩ := h
    have h3 := hlo r hr
    have hb : dlo ≤ a ∧ a < dlo + n := by omega
    refine ⟨hb, (key.mpr ⟨?_, hb⟩).1⟩
    simp only [inRanges, List.any_eq_true, Bool.and_eq_true, decide_eq_true_eq]
    exact ⟨r, hr, by omega, by omega⟩
  · rintro ⟨hb, h⟩
    have h := (key.mp ⟨h, hb⟩).1
    simp only [inRanges, List.any_eq_true, Bool.and_eq_true, decide_eq_true_eq] at h
    obtain ⟨r, hr, h1, h2⟩ := h
    have h3 := hlo r hr
    simp only [inRanges, List.any_map, List.any_eq_true, Function.comp, Bool.and_eq_true, decide_eq_true_eq]
    exact ⟨r, hr, by omega, by omega⟩

/-- Which addresses are undefined after a copy. -/
theorem inRanges_blit (src dst : Memory) (lo n dlo a : Nat) :
    inRanges (src.blit lo n dst dlo).undef a =
      if dlo ≤ a ∧ a < dlo + n then inRanges src.undef (a - dlo + lo) else inRanges dst.undef a := by
  have h1 := inRanges_cut dst.undef dlo (dlo + n) a
  have h2 := inRanges_moved src.undef lo n dlo a
  simp only [Memory.blit]
  unfold inRanges at *
  rw [List.any_append, h1, h2]
  by_cases hb : dlo ≤ a ∧ a < dlo + n
  · simp [hb]
  · rw [if_neg hb]
    have h3 : (decide (dlo ≤ a) && decide (a < dlo + n)) = false := by
      simp only [Bool.and_eq_false_iff, decide_eq_false_iff_not]; omega
    simp [h3]

/-- Copying keeps the canonical form. -/
theorem Memory.wf_blit {src dst : Memory} (hs : src.wf = true) (hd : dst.wf = true) (lo n dlo : Nat) :
    (src.blit lo n dst dlo).wf = true := by
  obtain ⟨sp, sb⟩ := (src.wf_iff).mp hs
  obtain ⟨dp, db⟩ := (dst.wf_iff).mp hd
  refine (Memory.wf_iff _).mpr ⟨?_, ?_⟩
  · simp only [Memory.blit, cellsBelow, cellsFrom]
    refine List.pairwise_append.mpr ⟨List.pairwise_append.mpr ⟨dp.sublist List.filter_sublist, ?_, ?_⟩,
      dp.sublist List.filter_sublist, ?_⟩
    · rw [List.pairwise_map]
      refine List.Pairwise.imp_of_mem ?_ ((sp.sublist List.filter_sublist).sublist List.filter_sublist)
      intro x y hx hy hxy
      simp only [List.mem_filter, decide_eq_true_eq] at hx hy
      simp only
      omega
    · intro x hx y hy
      simp only [List.mem_filter, List.mem_map, decide_eq_true_eq] at hx hy
      obtain ⟨z, -, rfl⟩ := hy
      simp only
      omega
    · intro x hx y hy
      simp only [List.mem_append, List.mem_filter, List.mem_map, decide_eq_true_eq] at hx hy
      rcases hx with hx | ⟨z, hz, rfl⟩
      · omega
      · simp only
        omega
  · intro c hc
    have hr := inRanges_blit src dst lo n dlo c.1
    simp only [Memory.blit, cellsBelow, cellsFrom, List.mem_append, List.mem_filter, List.mem_map, decide_eq_true_eq] at hc
    rcases hc with (⟨hc, hlt⟩ | ⟨z, ⟨⟨hz, h1⟩, h2⟩, rfl⟩) | ⟨hc, hge⟩
    · rw [if_neg (by omega)] at hr
      rw [base_of_inRanges hr]
      exact db c hc
    · simp only at hr
      rw [if_pos (by omega), show z.1 - lo + dlo - dlo + lo = z.1 by omega] at hr
      have := sb z hz
      simp only [Memory.base] at this ⊢
      rw [hr]
      exact this
    · rw [if_neg (by omega)] at hr
      rw [base_of_inRanges hr]
      exact db c hc

end Sys2Proof.Machine
end

