-- ==== Sys2Proof/Laws/State.lean ====
section
/-!
SUPPORT. What each update of the state leaves alone, field by field, and what it changes: cited instead of unfolding a record
update.
-/

namespace Sys2Proof.Machine

variable (s : State)

/-! ### setCore -/

@[simp] theorem State.setCore_cycle (c : Nat) (k : Core) : (s.setCore c k).cycle = s.cycle := rfl
@[simp] theorem State.setCore_fresh (c : Nat) (k : Core) : (s.setCore c k).fresh = s.fresh := rfl
@[simp] theorem State.setCore_nextId (c : Nat) (k : Core) : (s.setCore c k).nextId = s.nextId := rfl
@[simp] theorem State.setCore_agenda (c : Nat) (k : Core) : (s.setCore c k).agenda = s.agenda := rfl
@[simp] theorem State.setCore_cur (c : Nat) (k : Core) : (s.setCore c k).cur = s.cur := rfl
@[simp] theorem State.setCore_pre (c : Nat) (k : Core) : (s.setCore c k).pre = s.pre := rfl
@[simp] theorem State.setCore_preBand (c : Nat) (k : Core) : (s.setCore c k).preBand = s.preBand := rfl
@[simp] theorem State.setCore_laneDry (c : Nat) (k : Core) : (s.setCore c k).laneDry = s.laneDry := rfl
@[simp] theorem State.setCore_frame (c : Nat) (k : Core) : (s.setCore c k).frame = s.frame := rfl
@[simp] theorem State.setCore_req (c : Nat) (k : Core) : (s.setCore c k).req = s.req := rfl
@[simp] theorem State.setCore_engineCur (c : Nat) (k : Core) : (s.setCore c k).engineCur = s.engineCur := rfl
@[simp] theorem State.setCore_hbm (c : Nat) (k : Core) : (s.setCore c k).hbm = s.hbm := rfl
@[simp] theorem State.setCore_pkg (c : Nat) (k : Core) : (s.setCore c k).pkg = s.pkg := rfl
@[simp] theorem State.setCore_parts (c : Nat) (k : Core) : (s.setCore c k).parts = s.parts := rfl
@[simp] theorem State.setCore_ctxs (c : Nat) (k : Core) : (s.setCore c k).ctxs = s.ctxs := rfl
@[simp] theorem State.setCore_engines (c : Nat) (k : Core) : (s.setCore c k).engines = s.engines := rfl
@[simp] theorem State.setCore_decs (c : Nat) (k : Core) : (s.setCore c k).decs = s.decs := rfl
@[simp] theorem State.setCore_cancels (c : Nat) (k : Core) : (s.setCore c k).cancels = s.cancels := rfl
@[simp] theorem State.setCore_dieRoots (c : Nat) (k : Core) : (s.setCore c k).dieRoots = s.dieRoots := rfl
@[simp] theorem State.setCore_chipRoots (c : Nat) (k : Core) : (s.setCore c k).chipRoots = s.chipRoots := rfl
@[simp] theorem State.setCore_barMsgs (c : Nat) (k : Core) : (s.setCore c k).barMsgs = s.barMsgs := rfl
@[simp] theorem State.setCore_barFlips (c : Nat) (k : Core) : (s.setCore c k).barFlips = s.barFlips := rfl
@[simp] theorem State.setCore_heldFlips (c : Nat) (k : Core) : (s.setCore c k).heldFlips = s.heldFlips := rfl
@[simp] theorem State.setCore_pens (c : Nat) (k : Core) : (s.setCore c k).pens = s.pens := rfl
@[simp] theorem State.setCore_ports (c : Nat) (k : Core) : (s.setCore c k).ports = s.ports := rfl
@[simp] theorem State.setCore_devid (c : Nat) (k : Core) : (s.setCore c k).devid = s.devid := rfl
@[simp] theorem State.setCore_e2et (c : Nat) (k : Core) : (s.setCore c k).e2et = s.e2et := rfl
@[simp] theorem State.setCore_dupcnt (c : Nat) (k : Core) : (s.setCore c k).dupcnt = s.dupcnt := rfl
@[simp] theorem State.setCore_peers (c : Nat) (k : Core) : (s.setCore c k).peers = s.peers := rfl
@[simp] theorem State.setCore_groups (c : Nat) (k : Core) : (s.setCore c k).groups = s.groups := rfl
@[simp] theorem State.setCore_collCount (c : Nat) (k : Core) : (s.setCore c k).collCount = s.collCount := rfl
@[simp] theorem State.setCore_switch (c : Nat) (k : Core) : (s.setCore c k).switch = s.switch := rfl
@[simp] theorem State.setCore_sent (c : Nat) (k : Core) : (s.setCore c k).sent = s.sent := rfl
@[simp] theorem State.setCore_unsent (c : Nat) (k : Core) : (s.setCore c k).unsent = s.unsent := rfl
@[simp] theorem State.setCore_remote (c : Nat) (k : Core) : (s.setCore c k).remote = s.remote := rfl
@[simp] theorem State.setCore_invals (c : Nat) (k : Core) : (s.setCore c k).invals = s.invals := rfl
@[simp] theorem State.setCore_migs (c : Nat) (k : Core) : (s.setCore c k).migs = s.migs := rfl
@[simp] theorem State.setCore_msgs (c : Nat) (k : Core) : (s.setCore c k).msgs = s.msgs := rfl
@[simp] theorem State.setCore_resp (c : Nat) (k : Core) : (s.setCore c k).resp = s.resp := rfl
@[simp] theorem State.setCore_answers (c : Nat) (k : Core) : (s.setCore c k).answers = s.answers := rfl
@[simp] theorem State.setCore_health (c : Nat) (k : Core) : (s.setCore c k).health = s.health := rfl
@[simp] theorem State.setCore_temp (c : Nat) (k : Core) : (s.setCore c k).temp = s.temp := rfl
@[simp] theorem State.setCore_fcur (c : Nat) (k : Core) : (s.setCore c k).fcur = s.fcur := rfl
@[simp] theorem State.setCore_fmax (c : Nat) (k : Core) : (s.setCore c k).fmax = s.fmax := rfl
@[simp] theorem State.setCore_pst (c : Nat) (k : Core) : (s.setCore c k).pst = s.pst := rfl
@[simp] theorem State.setCore_held (c : Nat) (k : Core) : (s.setCore c k).held = s.held := rfl
@[simp] theorem State.setCore_booted (c : Nat) (k : Core) : (s.setCore c k).booted = s.booted := rfl
@[simp] theorem State.setCore_fwStatus (c : Nat) (k : Core) : (s.setCore c k).fwStatus = s.fwStatus := rfl
@[simp] theorem State.setCore_fwVersion (c : Nat) (k : Core) : (s.setCore c k).fwVersion = s.fwVersion := rfl
@[simp] theorem State.setCore_minVersion (c : Nat) (k : Core) : (s.setCore c k).minVersion = s.minVersion := rfl
@[simp] theorem State.setCore_fuses (c : Nat) (k : Core) : (s.setCore c k).fuses = s.fuses := rfl
@[simp] theorem State.setCore_counter (c : Nat) (k : Core) : (s.setCore c k).counter = s.counter := rfl
@[simp] theorem State.setCore_vendor (c : Nat) (k : Core) : (s.setCore c k).vendor = s.vendor := rfl

/-! ### onCore -/

@[simp] theorem State.onCore_cycle (c : Nat) (f : Core → Core) : (s.onCore c f).cycle = s.cycle := rfl
@[simp] theorem State.onCore_fresh (c : Nat) (f : Core → Core) : (s.onCore c f).fresh = s.fresh := rfl
@[simp] theorem State.onCore_nextId (c : Nat) (f : Core → Core) : (s.onCore c f).nextId = s.nextId := rfl
@[simp] theorem State.onCore_agenda (c : Nat) (f : Core → Core) : (s.onCore c f).agenda = s.agenda := rfl
@[simp] theorem State.onCore_cur (c : Nat) (f : Core → Core) : (s.onCore c f).cur = s.cur := rfl
@[simp] theorem State.onCore_pre (c : Nat) (f : Core → Core) : (s.onCore c f).pre = s.pre := rfl
@[simp] theorem State.onCore_preBand (c : Nat) (f : Core → Core) : (s.onCore c f).preBand = s.preBand := rfl
@[simp] theorem State.onCore_laneDry (c : Nat) (f : Core → Core) : (s.onCore c f).laneDry = s.laneDry := rfl
@[simp] theorem State.onCore_frame (c : Nat) (f : Core → Core) : (s.onCore c f).frame = s.frame := rfl
@[simp] theorem State.onCore_req (c : Nat) (f : Core → Core) : (s.onCore c f).req = s.req := rfl
@[simp] theorem State.onCore_engineCur (c : Nat) (f : Core → Core) : (s.onCore c f).engineCur = s.engineCur := rfl
@[simp] theorem State.onCore_hbm (c : Nat) (f : Core → Core) : (s.onCore c f).hbm = s.hbm := rfl
@[simp] theorem State.onCore_pkg (c : Nat) (f : Core → Core) : (s.onCore c f).pkg = s.pkg := rfl
@[simp] theorem State.onCore_parts (c : Nat) (f : Core → Core) : (s.onCore c f).parts = s.parts := rfl
@[simp] theorem State.onCore_ctxs (c : Nat) (f : Core → Core) : (s.onCore c f).ctxs = s.ctxs := rfl
@[simp] theorem State.onCore_engines (c : Nat) (f : Core → Core) : (s.onCore c f).engines = s.engines := rfl
@[simp] theorem State.onCore_decs (c : Nat) (f : Core → Core) : (s.onCore c f).decs = s.decs := rfl
@[simp] theorem State.onCore_cancels (c : Nat) (f : Core → Core) : (s.onCore c f).cancels = s.cancels := rfl
@[simp] theorem State.onCore_dieRoots (c : Nat) (f : Core → Core) : (s.onCore c f).dieRoots = s.dieRoots := rfl
@[simp] theorem State.onCore_chipRoots (c : Nat) (f : Core → Core) : (s.onCore c f).chipRoots = s.chipRoots := rfl
@[simp] theorem State.onCore_barMsgs (c : Nat) (f : Core → Core) : (s.onCore c f).barMsgs = s.barMsgs := rfl
@[simp] theorem State.onCore_barFlips (c : Nat) (f : Core → Core) : (s.onCore c f).barFlips = s.barFlips := rfl
@[simp] theorem State.onCore_heldFlips (c : Nat) (f : Core → Core) : (s.onCore c f).heldFlips = s.heldFlips := rfl
@[simp] theorem State.onCore_pens (c : Nat) (f : Core → Core) : (s.onCore c f).pens = s.pens := rfl
@[simp] theorem State.onCore_ports (c : Nat) (f : Core → Core) : (s.onCore c f).ports = s.ports := rfl
@[simp] theorem State.onCore_devid (c : Nat) (f : Core → Core) : (s.onCore c f).devid = s.devid := rfl
@[simp] theorem State.onCore_e2et (c : Nat) (f : Core → Core) : (s.onCore c f).e2et = s.e2et := rfl
@[simp] theorem State.onCore_dupcnt (c : Nat) (f : Core → Core) : (s.onCore c f).dupcnt = s.dupcnt := rfl
@[simp] theorem State.onCore_peers (c : Nat) (f : Core → Core) : (s.onCore c f).peers = s.peers := rfl
@[simp] theorem State.onCore_groups (c : Nat) (f : Core → Core) : (s.onCore c f).groups = s.groups := rfl
@[simp] theorem State.onCore_collCount (c : Nat) (f : Core → Core) : (s.onCore c f).collCount = s.collCount := rfl
@[simp] theorem State.onCore_switch (c : Nat) (f : Core → Core) : (s.onCore c f).switch = s.switch := rfl
@[simp] theorem State.onCore_sent (c : Nat) (f : Core → Core) : (s.onCore c f).sent = s.sent := rfl
@[simp] theorem State.onCore_unsent (c : Nat) (f : Core → Core) : (s.onCore c f).unsent = s.unsent := rfl
@[simp] theorem State.onCore_remote (c : Nat) (f : Core → Core) : (s.onCore c f).remote = s.remote := rfl
@[simp] theorem State.onCore_invals (c : Nat) (f : Core → Core) : (s.onCore c f).invals = s.invals := rfl
@[simp] theorem State.onCore_migs (c : Nat) (f : Core → Core) : (s.onCore c f).migs = s.migs := rfl
@[simp] theorem State.onCore_msgs (c : Nat) (f : Core → Core) : (s.onCore c f).msgs = s.msgs := rfl
@[simp] theorem State.onCore_resp (c : Nat) (f : Core → Core) : (s.onCore c f).resp = s.resp := rfl
@[simp] theorem State.onCore_answers (c : Nat) (f : Core → Core) : (s.onCore c f).answers = s.answers := rfl
@[simp] theorem State.onCore_health (c : Nat) (f : Core → Core) : (s.onCore c f).health = s.health := rfl
@[simp] theorem State.onCore_temp (c : Nat) (f : Core → Core) : (s.onCore c f).temp = s.temp := rfl
@[simp] theorem State.onCore_fcur (c : Nat) (f : Core → Core) : (s.onCore c f).fcur = s.fcur := rfl
@[simp] theorem State.onCore_fmax (c : Nat) (f : Core → Core) : (s.onCore c f).fmax = s.fmax := rfl
@[simp] theorem State.onCore_pst (c : Nat) (f : Core → Core) : (s.onCore c f).pst = s.pst := rfl
@[simp] theorem State.onCore_held (c : Nat) (f : Core → Core) : (s.onCore c f).held = s.held := rfl
@[simp] theorem State.onCore_booted (c : Nat) (f : Core → Core) : (s.onCore c f).booted = s.booted := rfl
@[simp] theorem State.onCore_fwStatus (c : Nat) (f : Core → Core) : (s.onCore c f).fwStatus = s.fwStatus := rfl
@[simp] theorem State.onCore_fwVersion (c : Nat) (f : Core → Core) : (s.onCore c f).fwVersion = s.fwVersion := rfl
@[simp] theorem State.onCore_minVersion (c : Nat) (f : Core → Core) : (s.onCore c f).minVersion = s.minVersion := rfl
@[simp] theorem State.onCore_fuses (c : Nat) (f : Core → Core) : (s.onCore c f).fuses = s.fuses := rfl
@[simp] theorem State.onCore_counter (c : Nat) (f : Core → Core) : (s.onCore c f).counter = s.counter := rfl
@[simp] theorem State.onCore_vendor (c : Nat) (f : Core → Core) : (s.onCore c f).vendor = s.vendor := rfl

/-! ### onBand -/

@[simp] theorem State.onBand_cycle (c n : Nat) (f : Band → Band) : (s.onBand c n f).cycle = s.cycle := rfl
@[simp] theorem State.onBand_fresh (c n : Nat) (f : Band → Band) : (s.onBand c n f).fresh = s.fresh := rfl
@[simp] theorem State.onBand_nextId (c n : Nat) (f : Band → Band) : (s.onBand c n f).nextId = s.nextId := rfl
@[simp] theorem State.onBand_agenda (c n : Nat) (f : Band → Band) : (s.onBand c n f).agenda = s.agenda := rfl
@[simp] theorem State.onBand_cur (c n : Nat) (f : Band → Band) : (s.onBand c n f).cur = s.cur := rfl
@[simp] theorem State.onBand_pre (c n : Nat) (f : Band → Band) : (s.onBand c n f).pre = s.pre := rfl
@[simp] theorem State.onBand_preBand (c n : Nat) (f : Band → Band) : (s.onBand c n f).preBand = s.preBand := rfl
@[simp] theorem State.onBand_laneDry (c n : Nat) (f : Band → Band) : (s.onBand c n f).laneDry = s.laneDry := rfl
@[simp] theorem State.onBand_frame (c n : Nat) (f : Band → Band) : (s.onBand c n f).frame = s.frame := rfl
@[simp] theorem State.onBand_req (c n : Nat) (f : Band → Band) : (s.onBand c n f).req = s.req := rfl
@[simp] theorem State.onBand_engineCur (c n : Nat) (f : Band → Band) : (s.onBand c n f).engineCur = s.engineCur := rfl
@[simp] theorem State.onBand_hbm (c n : Nat) (f : Band → Band) : (s.onBand c n f).hbm = s.hbm := rfl
@[simp] theorem State.onBand_pkg (c n : Nat) (f : Band → Band) : (s.onBand c n f).pkg = s.pkg := rfl
@[simp] theorem State.onBand_parts (c n : Nat) (f : Band → Band) : (s.onBand c n f).parts = s.parts := rfl
@[simp] theorem State.onBand_ctxs (c n : Nat) (f : Band → Band) : (s.onBand c n f).ctxs = s.ctxs := rfl
@[simp] theorem State.onBand_engines (c n : Nat) (f : Band → Band) : (s.onBand c n f).engines = s.engines := rfl
@[simp] theorem State.onBand_decs (c n : Nat) (f : Band → Band) : (s.onBand c n f).decs = s.decs := rfl
@[simp] theorem State.onBand_cancels (c n : Nat) (f : Band → Band) : (s.onBand c n f).cancels = s.cancels := rfl
@[simp] theorem State.onBand_dieRoots (c n : Nat) (f : Band → Band) : (s.onBand c n f).dieRoots = s.dieRoots := rfl
@[simp] theorem State.onBand_chipRoots (c n : Nat) (f : Band → Band) : (s.onBand c n f).chipRoots = s.chipRoots := rfl
@[simp] theorem State.onBand_barMsgs (c n : Nat) (f : Band → Band) : (s.onBand c n f).barMsgs = s.barMsgs := rfl
@[simp] theorem State.onBand_barFlips (c n : Nat) (f : Band → Band) : (s.onBand c n f).barFlips = s.barFlips := rfl
@[simp] theorem State.onBand_heldFlips (c n : Nat) (f : Band → Band) : (s.onBand c n f).heldFlips = s.heldFlips := rfl
@[simp] theorem State.onBand_pens (c n : Nat) (f : Band → Band) : (s.onBand c n f).pens = s.pens := rfl
@[simp] theorem State.onBand_ports (c n : Nat) (f : Band → Band) : (s.onBand c n f).ports = s.ports := rfl
@[simp] theorem State.onBand_devid (c n : Nat) (f : Band → Band) : (s.onBand c n f).devid = s.devid := rfl
@[simp] theorem State.onBand_e2et (c n : Nat) (f : Band → Band) : (s.onBand c n f).e2et = s.e2et := rfl
@[simp] theorem State.onBand_dupcnt (c n : Nat) (f : Band → Band) : (s.onBand c n f).dupcnt = s.dupcnt := rfl
@[simp] theorem State.onBand_peers (c n : Nat) (f : Band → Band) : (s.onBand c n f).peers = s.peers := rfl
@[simp] theorem State.onBand_groups (c n : Nat) (f : Band → Band) : (s.onBand c n f).groups = s.groups := rfl
@[simp] theorem State.onBand_collCount (c n : Nat) (f : Band → Band) : (s.onBand c n f).collCount = s.collCount := rfl
@[simp] theorem State.onBand_switch (c n : Nat) (f : Band → Band) : (s.onBand c n f).switch = s.switch := rfl
@[simp] theorem State.onBand_sent (c n : Nat) (f : Band → Band) : (s.onBand c n f).sent = s.sent := rfl
@[simp] theorem State.onBand_unsent (c n : Nat) (f : Band → Band) : (s.onBand c n f).unsent = s.unsent := rfl
@[simp] theorem State.onBand_remote (c n : Nat) (f : Band → Band) : (s.onBand c n f).remote = s.remote := rfl
@[simp] theorem State.onBand_invals (c n : Nat) (f : Band → Band) : (s.onBand c n f).invals = s.invals := rfl
@[simp] theorem State.onBand_migs (c n : Nat) (f : Band → Band) : (s.onBand c n f).migs = s.migs := rfl
@[simp] theorem State.onBand_msgs (c n : Nat) (f : Band → Band) : (s.onBand c n f).msgs = s.msgs := rfl
@[simp] theorem State.onBand_resp (c n : Nat) (f : Band → Band) : (s.onBand c n f).resp = s.resp := rfl
@[simp] theorem State.onBand_answers (c n : Nat) (f : Band → Band) : (s.onBand c n f).answers = s.answers := rfl
@[simp] theorem State.onBand_health (c n : Nat) (f : Band → Band) : (s.onBand c n f).health = s.health := rfl
@[simp] theorem State.onBand_temp (c n : Nat) (f : Band → Band) : (s.onBand c n f).temp = s.temp := rfl
@[simp] theorem State.onBand_fcur (c n : Nat) (f : Band → Band) : (s.onBand c n f).fcur = s.fcur := rfl
@[simp] theorem State.onBand_fmax (c n : Nat) (f : Band → Band) : (s.onBand c n f).fmax = s.fmax := rfl
@[simp] theorem State.onBand_pst (c n : Nat) (f : Band → Band) : (s.onBand c n f).pst = s.pst := rfl
@[simp] theorem State.onBand_held (c n : Nat) (f : Band → Band) : (s.onBand c n f).held = s.held := rfl
@[simp] theorem State.onBand_booted (c n : Nat) (f : Band → Band) : (s.onBand c n f).booted = s.booted := rfl
@[simp] theorem State.onBand_fwStatus (c n : Nat) (f : Band → Band) : (s.onBand c n f).fwStatus = s.fwStatus := rfl
@[simp] theorem State.onBand_fwVersion (c n : Nat) (f : Band → Band) : (s.onBand c n f).fwVersion = s.fwVersion := rfl
@[simp] theorem State.onBand_minVersion (c n : Nat) (f : Band → Band) : (s.onBand c n f).minVersion = s.minVersion := rfl
@[simp] theorem State.onBand_fuses (c n : Nat) (f : Band → Band) : (s.onBand c n f).fuses = s.fuses := rfl
@[simp] theorem State.onBand_counter (c n : Nat) (f : Band → Band) : (s.onBand c n f).counter = s.counter := rfl
@[simp] theorem State.onBand_vendor (c n : Nat) (f : Band → Band) : (s.onBand c n f).vendor = s.vendor := rfl

/-! ### onPart -/

@[simp] theorem State.onPart_cycle (p : Nat) (f : Partition → Partition) : (s.onPart p f).cycle = s.cycle := rfl
@[simp] theorem State.onPart_fresh (p : Nat) (f : Partition → Partition) : (s.onPart p f).fresh = s.fresh := rfl
@[simp] theorem State.onPart_nextId (p : Nat) (f : Partition → Partition) : (s.onPart p f).nextId = s.nextId := rfl
@[simp] theorem State.onPart_agenda (p : Nat) (f : Partition → Partition) : (s.onPart p f).agenda = s.agenda := rfl
@[simp] theorem State.onPart_cur (p : Nat) (f : Partition → Partition) : (s.onPart p f).cur = s.cur := rfl
@[simp] theorem State.onPart_pre (p : Nat) (f : Partition → Partition) : (s.onPart p f).pre = s.pre := rfl
@[simp] theorem State.onPart_preBand (p : Nat) (f : Partition → Partition) : (s.onPart p f).preBand = s.preBand := rfl
@[simp] theorem State.onPart_laneDry (p : Nat) (f : Partition → Partition) : (s.onPart p f).laneDry = s.laneDry := rfl
@[simp] theorem State.onPart_frame (p : Nat) (f : Partition → Partition) : (s.onPart p f).frame = s.frame := rfl
@[simp] theorem State.onPart_req (p : Nat) (f : Partition → Partition) : (s.onPart p f).req = s.req := rfl
@[simp] theorem State.onPart_engineCur (p : Nat) (f : Partition → Partition) : (s.onPart p f).engineCur = s.engineCur := rfl
@[simp] theorem State.onPart_cores (p : Nat) (f : Partition → Partition) : (s.onPart p f).cores = s.cores := rfl
@[simp] theorem State.onPart_hbm (p : Nat) (f : Partition → Partition) : (s.onPart p f).hbm = s.hbm := rfl
@[simp] theorem State.onPart_pkg (p : Nat) (f : Partition → Partition) : (s.onPart p f).pkg = s.pkg := rfl
@[simp] theorem State.onPart_ctxs (p : Nat) (f : Partition → Partition) : (s.onPart p f).ctxs = s.ctxs := rfl
@[simp] theorem State.onPart_engines (p : Nat) (f : Partition → Partition) : (s.onPart p f).engines = s.engines := rfl
@[simp] theorem State.onPart_decs (p : Nat) (f : Partition → Partition) : (s.onPart p f).decs = s.decs := rfl
@[simp] theorem State.onPart_cancels (p : Nat) (f : Partition → Partition) : (s.onPart p f).cancels = s.cancels := rfl
@[simp] theorem State.onPart_dieRoots (p : Nat) (f : Partition → Partition) : (s.onPart p f).dieRoots = s.dieRoots := rfl
@[simp] theorem State.onPart_chipRoots (p : Nat) (f : Partition → Partition) : (s.onPart p f).chipRoots = s.chipRoots := rfl
@[simp] theorem State.onPart_barMsgs (p : Nat) (f : Partition → Partition) : (s.onPart p f).barMsgs = s.barMsgs := rfl
@[simp] theorem State.onPart_barFlips (p : Nat) (f : Partition → Partition) : (s.onPart p f).barFlips = s.barFlips := rfl
@[simp] theorem State.onPart_heldFlips (p : Nat) (f : Partition → Partition) : (s.onPart p f).heldFlips = s.heldFlips := rfl
@[simp] theorem State.onPart_pens (p : Nat) (f : Partition → Partition) : (s.onPart p f).pens = s.pens := rfl
@[simp] theorem State.onPart_ports (p : Nat) (f : Partition → Partition) : (s.onPart p f).ports = s.ports := rfl
@[simp] theorem State.onPart_devid (p : Nat) (f : Partition → Partition) : (s.onPart p f).devid = s.devid := rfl
@[simp] theorem State.onPart_e2et (p : Nat) (f : Partition → Partition) : (s.onPart p f).e2et = s.e2et := rfl
@[simp] theorem State.onPart_dupcnt (p : Nat) (f : Partition → Partition) : (s.onPart p f).dupcnt = s.dupcnt := rfl
@[simp] theorem State.onPart_peers (p : Nat) (f : Partition → Partition) : (s.onPart p f).peers = s.peers := rfl
@[simp] theorem State.onPart_groups (p : Nat) (f : Partition → Partition) : (s.onPart p f).groups = s.groups := rfl
@[simp] theorem State.onPart_collCount (p : Nat) (f : Partition → Partition) : (s.onPart p f).collCount = s.collCount := rfl
@[simp] theorem State.onPart_switch (p : Nat) (f : Partition → Partition) : (s.onPart p f).switch = s.switch := rfl
@[simp] theorem State.onPart_sent (p : Nat) (f : Partition → Partition) : (s.onPart p f).sent = s.sent := rfl
@[simp] theorem State.onPart_unsent (p : Nat) (f : Partition → Partition) : (s.onPart p f).unsent = s.unsent := rfl
@[simp] theorem State.onPart_remote (p : Nat) (f : Partition → Partition) : (s.onPart p f).remote = s.remote := rfl
@[simp] theorem State.onPart_invals (p : Nat) (f : Partition → Partition) : (s.onPart p f).invals = s.invals := rfl
@[simp] theorem State.onPart_migs (p : Nat) (f : Partition → Partition) : (s.onPart p f).migs = s.migs := rfl
@[simp] theorem State.onPart_msgs (p : Nat) (f : Partition → Partition) : (s.onPart p f).msgs = s.msgs := rfl
@[simp] theorem State.onPart_resp (p : Nat) (f : Partition → Partition) : (s.onPart p f).resp = s.resp := rfl
@[simp] theorem State.onPart_answers (p : Nat) (f : Partition → Partition) : (s.onPart p f).answers = s.answers := rfl
@[simp] theorem State.onPart_health (p : Nat) (f : Partition → Partition) : (s.onPart p f).health = s.health := rfl
@[simp] theorem State.onPart_temp (p : Nat) (f : Partition → Partition) : (s.onPart p f).temp = s.temp := rfl
@[simp] theorem State.onPart_fcur (p : Nat) (f : Partition → Partition) : (s.onPart p f).fcur = s.fcur := rfl
@[simp] theorem State.onPart_fmax (p : Nat) (f : Partition → Partition) : (s.onPart p f).fmax = s.fmax := rfl
@[simp] theorem State.onPart_pst (p : Nat) (f : Partition → Partition) : (s.onPart p f).pst = s.pst := rfl
@[simp] theorem State.onPart_held (p : Nat) (f : Partition → Partition) : (s.onPart p f).held = s.held := rfl
@[simp] theorem State.onPart_booted (p : Nat) (f : Partition → Partition) : (s.onPart p f).booted = s.booted := rfl
@[simp] theorem State.onPart_fwStatus (p : Nat) (f : Partition → Partition) : (s.onPart p f).fwStatus = s.fwStatus := rfl
@[simp] theorem State.onPart_fwVersion (p : Nat) (f : Partition → Partition) : (s.onPart p f).fwVersion = s.fwVersion := rfl
@[simp] theorem State.onPart_minVersion (p : Nat) (f : Partition → Partition) : (s.onPart p f).minVersion = s.minVersion := rfl
@[simp] theorem State.onPart_fuses (p : Nat) (f : Partition → Partition) : (s.onPart p f).fuses = s.fuses := rfl
@[simp] theorem State.onPart_counter (p : Nat) (f : Partition → Partition) : (s.onPart p f).counter = s.counter := rfl
@[simp] theorem State.onPart_vendor (p : Nat) (f : Partition → Partition) : (s.onPart p f).vendor = s.vendor := rfl

/-! ### onCtx -/

@[simp] theorem State.onCtx_cycle (x : Nat) (f : Context → Context) : (s.onCtx x f).cycle = s.cycle := rfl
@[simp] theorem State.onCtx_fresh (x : Nat) (f : Context → Context) : (s.onCtx x f).fresh = s.fresh := rfl
@[simp] theorem State.onCtx_nextId (x : Nat) (f : Context → Context) : (s.onCtx x f).nextId = s.nextId := rfl
@[simp] theorem State.onCtx_agenda (x : Nat) (f : Context → Context) : (s.onCtx x f).agenda = s.agenda := rfl
@[simp] theorem State.onCtx_cur (x : Nat) (f : Context → Context) : (s.onCtx x f).cur = s.cur := rfl
@[simp] theorem State.onCtx_pre (x : Nat) (f : Context → Context) : (s.onCtx x f).pre = s.pre := rfl
@[simp] theorem State.onCtx_preBand (x : Nat) (f : Context → Context) : (s.onCtx x f).preBand = s.preBand := rfl
@[simp] theorem State.onCtx_laneDry (x : Nat) (f : Context → Context) : (s.onCtx x f).laneDry = s.laneDry := rfl
@[simp] theorem State.onCtx_frame (x : Nat) (f : Context → Context) : (s.onCtx x f).frame = s.frame := rfl
@[simp] theorem State.onCtx_req (x : Nat) (f : Context → Context) : (s.onCtx x f).req = s.req := rfl
@[simp] theorem State.onCtx_engineCur (x : Nat) (f : Context → Context) : (s.onCtx x f).engineCur = s.engineCur := rfl
@[simp] theorem State.onCtx_cores (x : Nat) (f : Context → Context) : (s.onCtx x f).cores = s.cores := rfl
@[simp] theorem State.onCtx_hbm (x : Nat) (f : Context → Context) : (s.onCtx x f).hbm = s.hbm := rfl
@[simp] theorem State.onCtx_pkg (x : Nat) (f : Context → Context) : (s.onCtx x f).pkg = s.pkg := rfl
@[simp] theorem State.onCtx_parts (x : Nat) (f : Context → Context) : (s.onCtx x f).parts = s.parts := rfl
@[simp] theorem State.onCtx_engines (x : Nat) (f : Context → Context) : (s.onCtx x f).engines = s.engines := rfl
@[simp] theorem State.onCtx_decs (x : Nat) (f : Context → Context) : (s.onCtx x f).decs = s.decs := rfl
@[simp] theorem State.onCtx_cancels (x : Nat) (f : Context → Context) : (s.onCtx x f).cancels = s.cancels := rfl
@[simp] theorem State.onCtx_dieRoots (x : Nat) (f : Context → Context) : (s.onCtx x f).dieRoots = s.dieRoots := rfl
@[simp] theorem State.onCtx_chipRoots (x : Nat) (f : Context → Context) : (s.onCtx x f).chipRoots = s.chipRoots := rfl
@[simp] theorem State.onCtx_barMsgs (x : Nat) (f : Context → Context) : (s.onCtx x f).barMsgs = s.barMsgs := rfl
@[simp] theorem State.onCtx_barFlips (x : Nat) (f : Context → Context) : (s.onCtx x f).barFlips = s.barFlips := rfl
@[simp] theorem State.onCtx_heldFlips (x : Nat) (f : Context → Context) : (s.onCtx x f).heldFlips = s.heldFlips := rfl
@[simp] theorem State.onCtx_pens (x : Nat) (f : Context → Context) : (s.onCtx x f).pens = s.pens := rfl
@[simp] theorem State.onCtx_ports (x : Nat) (f : Context → Context) : (s.onCtx x f).ports = s.ports := rfl
@[simp] theorem State.onCtx_devid (x : Nat) (f : Context → Context) : (s.onCtx x f).devid = s.devid := rfl
@[simp] theorem State.onCtx_e2et (x : Nat) (f : Context → Context) : (s.onCtx x f).e2et = s.e2et := rfl
@[simp] theorem State.onCtx_dupcnt (x : Nat) (f : Context → Context) : (s.onCtx x f).dupcnt = s.dupcnt := rfl
@[simp] theorem State.onCtx_peers (x : Nat) (f : Context → Context) : (s.onCtx x f).peers = s.peers := rfl
@[simp] theorem State.onCtx_groups (x : Nat) (f : Context → Context) : (s.onCtx x f).groups = s.groups := rfl
@[simp] theorem State.onCtx_collCount (x : Nat) (f : Context → Context) : (s.onCtx x f).collCount = s.collCount := rfl
@[simp] theorem State.onCtx_switch (x : Nat) (f : Context → Context) : (s.onCtx x f).switch = s.switch := rfl
@[simp] theorem State.onCtx_sent (x : Nat) (f : Context → Context) : (s.onCtx x f).sent = s.sent := rfl
@[simp] theorem State.onCtx_unsent (x : Nat) (f : Context → Context) : (s.onCtx x f).unsent = s.unsent := rfl
@[simp] theorem State.onCtx_remote (x : Nat) (f : Context → Context) : (s.onCtx x f).remote = s.remote := rfl
@[simp] theorem State.onCtx_invals (x : Nat) (f : Context → Context) : (s.onCtx x f).invals = s.invals := rfl
@[simp] theorem State.onCtx_migs (x : Nat) (f : Context → Context) : (s.onCtx x f).migs = s.migs := rfl
@[simp] theorem State.onCtx_msgs (x : Nat) (f : Context → Context) : (s.onCtx x f).msgs = s.msgs := rfl
@[simp] theorem State.onCtx_resp (x : Nat) (f : Context → Context) : (s.onCtx x f).resp = s.resp := rfl
@[simp] theorem State.onCtx_answers (x : Nat) (f : Context → Context) : (s.onCtx x f).answers = s.answers := rfl
@[simp] theorem State.onCtx_health (x : Nat) (f : Context → Context) : (s.onCtx x f).health = s.health := rfl
@[simp] theorem State.onCtx_temp (x : Nat) (f : Context → Context) : (s.onCtx x f).temp = s.temp := rfl
@[simp] theorem State.onCtx_fcur (x : Nat) (f : Context → Context) : (s.onCtx x f).fcur = s.fcur := rfl
@[simp] theorem State.onCtx_fmax (x : Nat) (f : Context → Context) : (s.onCtx x f).fmax = s.fmax := rfl
@[simp] theorem State.onCtx_pst (x : Nat) (f : Context → Context) : (s.onCtx x f).pst = s.pst := rfl
@[simp] theorem State.onCtx_held (x : Nat) (f : Context → Context) : (s.onCtx x f).held = s.held := rfl
@[simp] theorem State.onCtx_booted (x : Nat) (f : Context → Context) : (s.onCtx x f).booted = s.booted := rfl
@[simp] theorem State.onCtx_fwStatus (x : Nat) (f : Context → Context) : (s.onCtx x f).fwStatus = s.fwStatus := rfl
@[simp] theorem State.onCtx_fwVersion (x : Nat) (f : Context → Context) : (s.onCtx x f).fwVersion = s.fwVersion := rfl
@[simp] theorem State.onCtx_minVersion (x : Nat) (f : Context → Context) : (s.onCtx x f).minVersion = s.minVersion := rfl
@[simp] theorem State.onCtx_fuses (x : Nat) (f : Context → Context) : (s.onCtx x f).fuses = s.fuses := rfl
@[simp] theorem State.onCtx_counter (x : Nat) (f : Context → Context) : (s.onCtx x f).counter = s.counter := rfl
@[simp] theorem State.onCtx_vendor (x : Nat) (f : Context → Context) : (s.onCtx x f).vendor = s.vendor := rfl

/-! ### push -/

@[simp] theorem State.push_cycle (ts : List Turn) : (s.push ts).cycle = s.cycle := rfl
@[simp] theorem State.push_fresh (ts : List Turn) : (s.push ts).fresh = s.fresh := rfl
@[simp] theorem State.push_nextId (ts : List Turn) : (s.push ts).nextId = s.nextId := rfl
@[simp] theorem State.push_cur (ts : List Turn) : (s.push ts).cur = s.cur := rfl
@[simp] theorem State.push_pre (ts : List Turn) : (s.push ts).pre = s.pre := rfl
@[simp] theorem State.push_preBand (ts : List Turn) : (s.push ts).preBand = s.preBand := rfl
@[simp] theorem State.push_laneDry (ts : List Turn) : (s.push ts).laneDry = s.laneDry := rfl
@[simp] theorem State.push_frame (ts : List Turn) : (s.push ts).frame = s.frame := rfl
@[simp] theorem State.push_req (ts : List Turn) : (s.push ts).req = s.req := rfl
@[simp] theorem State.push_engineCur (ts : List Turn) : (s.push ts).engineCur = s.engineCur := rfl
@[simp] theorem State.push_cores (ts : List Turn) : (s.push ts).cores = s.cores := rfl
@[simp] theorem State.push_hbm (ts : List Turn) : (s.push ts).hbm = s.hbm := rfl
@[simp] theorem State.push_pkg (ts : List Turn) : (s.push ts).pkg = s.pkg := rfl
@[simp] theorem State.push_parts (ts : List Turn) : (s.push ts).parts = s.parts := rfl
@[simp] theorem State.push_ctxs (ts : List Turn) : (s.push ts).ctxs = s.ctxs := rfl
@[simp] theorem State.push_engines (ts : List Turn) : (s.push ts).engines = s.engines := rfl
@[simp] theorem State.push_decs (ts : List Turn) : (s.push ts).decs = s.decs := rfl
@[simp] theorem State.push_cancels (ts : List Turn) : (s.push ts).cancels = s.cancels := rfl
@[simp] theorem State.push_dieRoots (ts : List Turn) : (s.push ts).dieRoots = s.dieRoots := rfl
@[simp] theorem State.push_chipRoots (ts : List Turn) : (s.push ts).chipRoots = s.chipRoots := rfl
@[simp] theorem State.push_barMsgs (ts : List Turn) : (s.push ts).barMsgs = s.barMsgs := rfl
@[simp] theorem State.push_barFlips (ts : List Turn) : (s.push ts).barFlips = s.barFlips := rfl
@[simp] theorem State.push_heldFlips (ts : List Turn) : (s.push ts).heldFlips = s.heldFlips := rfl
@[simp] theorem State.push_pens (ts : List Turn) : (s.push ts).pens = s.pens := rfl
@[simp] theorem State.push_ports (ts : List Turn) : (s.push ts).ports = s.ports := rfl
@[simp] theorem State.push_devid (ts : List Turn) : (s.push ts).devid = s.devid := rfl
@[simp] theorem State.push_e2et (ts : List Turn) : (s.push ts).e2et = s.e2et := rfl
@[simp] theorem State.push_dupcnt (ts : List Turn) : (s.push ts).dupcnt = s.dupcnt := rfl
@[simp] theorem State.push_peers (ts : List Turn) : (s.push ts).peers = s.peers := rfl
@[simp] theorem State.push_groups (ts : List Turn) : (s.push ts).groups = s.groups := rfl
@[simp] theorem State.push_collCount (ts : List Turn) : (s.push ts).collCount = s.collCount := rfl
@[simp] theorem State.push_switch (ts : List Turn) : (s.push ts).switch = s.switch := rfl
@[simp] theorem State.push_sent (ts : List Turn) : (s.push ts).sent = s.sent := rfl
@[simp] theorem State.push_unsent (ts : List Turn) : (s.push ts).unsent = s.unsent := rfl
@[simp] theorem State.push_remote (ts : List Turn) : (s.push ts).remote = s.remote := rfl
@[simp] theorem State.push_invals (ts : List Turn) : (s.push ts).invals = s.invals := rfl
@[simp] theorem State.push_migs (ts : List Turn) : (s.push ts).migs = s.migs := rfl
@[simp] theorem State.push_msgs (ts : List Turn) : (s.push ts).msgs = s.msgs := rfl
@[simp] theorem State.push_resp (ts : List Turn) : (s.push ts).resp = s.resp := rfl
@[simp] theorem State.push_answers (ts : List Turn) : (s.push ts).answers = s.answers := rfl
@[simp] theorem State.push_health (ts : List Turn) : (s.push ts).health = s.health := rfl
@[simp] theorem State.push_temp (ts : List Turn) : (s.push ts).temp = s.temp := rfl
@[simp] theorem State.push_fcur (ts : List Turn) : (s.push ts).fcur = s.fcur := rfl
@[simp] theorem State.push_fmax (ts : List Turn) : (s.push ts).fmax = s.fmax := rfl
@[simp] theorem State.push_pst (ts : List Turn) : (s.push ts).pst = s.pst := rfl
@[simp] theorem State.push_held (ts : List Turn) : (s.push ts).held = s.held := rfl
@[simp] theorem State.push_booted (ts : List Turn) : (s.push ts).booted = s.booted := rfl
@[simp] theorem State.push_fwStatus (ts : List Turn) : (s.push ts).fwStatus = s.fwStatus := rfl
@[simp] theorem State.push_fwVersion (ts : List Turn) : (s.push ts).fwVersion = s.fwVersion := rfl
@[simp] theorem State.push_minVersion (ts : List Turn) : (s.push ts).minVersion = s.minVersion := rfl
@[simp] theorem State.push_fuses (ts : List Turn) : (s.push ts).fuses = s.fuses := rfl
@[simp] theorem State.push_counter (ts : List Turn) : (s.push ts).counter = s.counter := rfl
@[simp] theorem State.push_vendor (ts : List Turn) : (s.push ts).vendor = s.vendor := rfl

/-! ### tell -/

@[simp] theorem State.tell_cycle (m : DevMsg) : (s.tell m).cycle = s.cycle := rfl
@[simp] theorem State.tell_fresh (m : DevMsg) : (s.tell m).fresh = s.fresh := rfl
@[simp] theorem State.tell_nextId (m : DevMsg) : (s.tell m).nextId = s.nextId := rfl
@[simp] theorem State.tell_agenda (m : DevMsg) : (s.tell m).agenda = s.agenda := rfl
@[simp] theorem State.tell_cur (m : DevMsg) : (s.tell m).cur = s.cur := rfl
@[simp] theorem State.tell_pre (m : DevMsg) : (s.tell m).pre = s.pre := rfl
@[simp] theorem State.tell_preBand (m : DevMsg) : (s.tell m).preBand = s.preBand := rfl
@[simp] theorem State.tell_laneDry (m : DevMsg) : (s.tell m).laneDry = s.laneDry := rfl
@[simp] theorem State.tell_frame (m : DevMsg) : (s.tell m).frame = s.frame := rfl
@[simp] theorem State.tell_req (m : DevMsg) : (s.tell m).req = s.req := rfl
@[simp] theorem State.tell_engineCur (m : DevMsg) : (s.tell m).engineCur = s.engineCur := rfl
@[simp] theorem State.tell_cores (m : DevMsg) : (s.tell m).cores = s.cores := rfl
@[simp] theorem State.tell_hbm (m : DevMsg) : (s.tell m).hbm = s.hbm := rfl
@[simp] theorem State.tell_pkg (m : DevMsg) : (s.tell m).pkg = s.pkg := rfl
@[simp] theorem State.tell_parts (m : DevMsg) : (s.tell m).parts = s.parts := rfl
@[simp] theorem State.tell_ctxs (m : DevMsg) : (s.tell m).ctxs = s.ctxs := rfl
@[simp] theorem State.tell_engines (m : DevMsg) : (s.tell m).engines = s.engines := rfl
@[simp] theorem State.tell_decs (m : DevMsg) : (s.tell m).decs = s.decs := rfl
@[simp] theorem State.tell_cancels (m : DevMsg) : (s.tell m).cancels = s.cancels := rfl
@[simp] theorem State.tell_dieRoots (m : DevMsg) : (s.tell m).dieRoots = s.dieRoots := rfl
@[simp] theorem State.tell_chipRoots (m : DevMsg) : (s.tell m).chipRoots = s.chipRoots := rfl
@[simp] theorem State.tell_barMsgs (m : DevMsg) : (s.tell m).barMsgs = s.barMsgs := rfl
@[simp] theorem State.tell_barFlips (m : DevMsg) : (s.tell m).barFlips = s.barFlips := rfl
@[simp] theorem State.tell_heldFlips (m : DevMsg) : (s.tell m).heldFlips = s.heldFlips := rfl
@[simp] theorem State.tell_pens (m : DevMsg) : (s.tell m).pens = s.pens := rfl
@[simp] theorem State.tell_ports (m : DevMsg) : (s.tell m).ports = s.ports := rfl
@[simp] theorem State.tell_devid (m : DevMsg) : (s.tell m).devid = s.devid := rfl
@[simp] theorem State.tell_e2et (m : DevMsg) : (s.tell m).e2et = s.e2et := rfl
@[simp] theorem State.tell_dupcnt (m : DevMsg) : (s.tell m).dupcnt = s.dupcnt := rfl
@[simp] theorem State.tell_peers (m : DevMsg) : (s.tell m).peers = s.peers := rfl
@[simp] theorem State.tell_groups (m : DevMsg) : (s.tell m).groups = s.groups := rfl
@[simp] theorem State.tell_collCount (m : DevMsg) : (s.tell m).collCount = s.collCount := rfl
@[simp] theorem State.tell_switch (m : DevMsg) : (s.tell m).switch = s.switch := rfl
@[simp] theorem State.tell_sent (m : DevMsg) : (s.tell m).sent = s.sent := rfl
@[simp] theorem State.tell_unsent (m : DevMsg) : (s.tell m).unsent = s.unsent := rfl
@[simp] theorem State.tell_remote (m : DevMsg) : (s.tell m).remote = s.remote := rfl
@[simp] theorem State.tell_invals (m : DevMsg) : (s.tell m).invals = s.invals := rfl
@[simp] theorem State.tell_migs (m : DevMsg) : (s.tell m).migs = s.migs := rfl
@[simp] theorem State.tell_resp (m : DevMsg) : (s.tell m).resp = s.resp := rfl
@[simp] theorem State.tell_answers (m : DevMsg) : (s.tell m).answers = s.answers := rfl
@[simp] theorem State.tell_health (m : DevMsg) : (s.tell m).health = s.health := rfl
@[simp] theorem State.tell_temp (m : DevMsg) : (s.tell m).temp = s.temp := rfl
@[simp] theorem State.tell_fcur (m : DevMsg) : (s.tell m).fcur = s.fcur := rfl
@[simp] theorem State.tell_fmax (m : DevMsg) : (s.tell m).fmax = s.fmax := rfl
@[simp] theorem State.tell_pst (m : DevMsg) : (s.tell m).pst = s.pst := rfl
@[simp] theorem State.tell_held (m : DevMsg) : (s.tell m).held = s.held := rfl
@[simp] theorem State.tell_booted (m : DevMsg) : (s.tell m).booted = s.booted := rfl
@[simp] theorem State.tell_fwStatus (m : DevMsg) : (s.tell m).fwStatus = s.fwStatus := rfl
@[simp] theorem State.tell_fwVersion (m : DevMsg) : (s.tell m).fwVersion = s.fwVersion := rfl
@[simp] theorem State.tell_minVersion (m : DevMsg) : (s.tell m).minVersion = s.minVersion := rfl
@[simp] theorem State.tell_fuses (m : DevMsg) : (s.tell m).fuses = s.fuses := rfl
@[simp] theorem State.tell_counter (m : DevMsg) : (s.tell m).counter = s.counter := rfl
@[simp] theorem State.tell_vendor (m : DevMsg) : (s.tell m).vendor = s.vendor := rfl

/-! ### answer -/

@[simp] theorem State.answer_cycle (st : Status) (d : List Byte) : (s.answer st d).cycle = s.cycle := rfl
@[simp] theorem State.answer_fresh (st : Status) (d : List Byte) : (s.answer st d).fresh = s.fresh := rfl
@[simp] theorem State.answer_nextId (st : Status) (d : List Byte) : (s.answer st d).nextId = s.nextId := rfl
@[simp] theorem State.answer_agenda (st : Status) (d : List Byte) : (s.answer st d).agenda = s.agenda := rfl
@[simp] theorem State.answer_cur (st : Status) (d : List Byte) : (s.answer st d).cur = s.cur := rfl
@[simp] theorem State.answer_pre (st : Status) (d : List Byte) : (s.answer st d).pre = s.pre := rfl
@[simp] theorem State.answer_preBand (st : Status) (d : List Byte) : (s.answer st d).preBand = s.preBand := rfl
@[simp] theorem State.answer_laneDry (st : Status) (d : List Byte) : (s.answer st d).laneDry = s.laneDry := rfl
@[simp] theorem State.answer_frame (st : Status) (d : List Byte) : (s.answer st d).frame = s.frame := rfl
@[simp] theorem State.answer_req (st : Status) (d : List Byte) : (s.answer st d).req = s.req := rfl
@[simp] theorem State.answer_engineCur (st : Status) (d : List Byte) : (s.answer st d).engineCur = s.engineCur := rfl
@[simp] theorem State.answer_cores (st : Status) (d : List Byte) : (s.answer st d).cores = s.cores := rfl
@[simp] theorem State.answer_hbm (st : Status) (d : List Byte) : (s.answer st d).hbm = s.hbm := rfl
@[simp] theorem State.answer_pkg (st : Status) (d : List Byte) : (s.answer st d).pkg = s.pkg := rfl
@[simp] theorem State.answer_parts (st : Status) (d : List Byte) : (s.answer st d).parts = s.parts := rfl
@[simp] theorem State.answer_ctxs (st : Status) (d : List Byte) : (s.answer st d).ctxs = s.ctxs := rfl
@[simp] theorem State.answer_engines (st : Status) (d : List Byte) : (s.answer st d).engines = s.engines := rfl
@[simp] theorem State.answer_decs (st : Status) (d : List Byte) : (s.answer st d).decs = s.decs := rfl
@[simp] theorem State.answer_cancels (st : Status) (d : List Byte) : (s.answer st d).cancels = s.cancels := rfl
@[simp] theorem State.answer_dieRoots (st : Status) (d : List Byte) : (s.answer st d).dieRoots = s.dieRoots := rfl
@[simp] theorem State.answer_chipRoots (st : Status) (d : List Byte) : (s.answer st d).chipRoots = s.chipRoots := rfl
@[simp] theorem State.answer_barMsgs (st : Status) (d : List Byte) : (s.answer st d).barMsgs = s.barMsgs := rfl
@[simp] theorem State.answer_barFlips (st : Status) (d : List Byte) : (s.answer st d).barFlips = s.barFlips := rfl
@[simp] theorem State.answer_heldFlips (st : Status) (d : List Byte) : (s.answer st d).heldFlips = s.heldFlips := rfl
@[simp] theorem State.answer_pens (st : Status) (d : List Byte) : (s.answer st d).pens = s.pens := rfl
@[simp] theorem State.answer_ports (st : Status) (d : List Byte) : (s.answer st d).ports = s.ports := rfl
@[simp] theorem State.answer_devid (st : Status) (d : List Byte) : (s.answer st d).devid = s.devid := rfl
@[simp] theorem State.answer_e2et (st : Status) (d : List Byte) : (s.answer st d).e2et = s.e2et := rfl
@[simp] theorem State.answer_dupcnt (st : Status) (d : List Byte) : (s.answer st d).dupcnt = s.dupcnt := rfl
@[simp] theorem State.answer_peers (st : Status) (d : List Byte) : (s.answer st d).peers = s.peers := rfl
@[simp] theorem State.answer_groups (st : Status) (d : List Byte) : (s.answer st d).groups = s.groups := rfl
@[simp] theorem State.answer_collCount (st : Status) (d : List Byte) : (s.answer st d).collCount = s.collCount := rfl
@[simp] theorem State.answer_switch (st : Status) (d : List Byte) : (s.answer st d).switch = s.switch := rfl
@[simp] theorem State.answer_sent (st : Status) (d : List Byte) : (s.answer st d).sent = s.sent := rfl
@[simp] theorem State.answer_unsent (st : Status) (d : List Byte) : (s.answer st d).unsent = s.unsent := rfl
@[simp] theorem State.answer_remote (st : Status) (d : List Byte) : (s.answer st d).remote = s.remote := rfl
@[simp] theorem State.answer_invals (st : Status) (d : List Byte) : (s.answer st d).invals = s.invals := rfl
@[simp] theorem State.answer_migs (st : Status) (d : List Byte) : (s.answer st d).migs = s.migs := rfl
@[simp] theorem State.answer_msgs (st : Status) (d : List Byte) : (s.answer st d).msgs = s.msgs := rfl
@[simp] theorem State.answer_answers (st : Status) (d : List Byte) : (s.answer st d).answers = s.answers := rfl
@[simp] theorem State.answer_health (st : Status) (d : List Byte) : (s.answer st d).health = s.health := rfl
@[simp] theorem State.answer_temp (st : Status) (d : List Byte) : (s.answer st d).temp = s.temp := rfl
@[simp] theorem State.answer_fcur (st : Status) (d : List Byte) : (s.answer st d).fcur = s.fcur := rfl
@[simp] theorem State.answer_fmax (st : Status) (d : List Byte) : (s.answer st d).fmax = s.fmax := rfl
@[simp] theorem State.answer_pst (st : Status) (d : List Byte) : (s.answer st d).pst = s.pst := rfl
@[simp] theorem State.answer_held (st : Status) (d : List Byte) : (s.answer st d).held = s.held := rfl
@[simp] theorem State.answer_booted (st : Status) (d : List Byte) : (s.answer st d).booted = s.booted := rfl
@[simp] theorem State.answer_fwStatus (st : Status) (d : List Byte) : (s.answer st d).fwStatus = s.fwStatus := rfl
@[simp] theorem State.answer_fwVersion (st : Status) (d : List Byte) : (s.answer st d).fwVersion = s.fwVersion := rfl
@[simp] theorem State.answer_minVersion (st : Status) (d : List Byte) : (s.answer st d).minVersion = s.minVersion := rfl
@[simp] theorem State.answer_fuses (st : Status) (d : List Byte) : (s.answer st d).fuses = s.fuses := rfl
@[simp] theorem State.answer_counter (st : Status) (d : List Byte) : (s.answer st d).counter = s.counter := rfl
@[simp] theorem State.answer_vendor (st : Status) (d : List Byte) : (s.answer st d).vendor = s.vendor := rfl

/-! ### What the updates change -/

@[simp] theorem State.push_agenda (ts : List Turn) : (s.push ts).agenda = ts ++ s.agenda := rfl
@[simp] theorem State.tell_msgs (m : DevMsg) : (s.tell m).msgs = s.msgs ++ [m] := rfl
@[simp] theorem State.answer_resp (st : Status) (d : List Byte) : (s.answer st d).resp = ⟨st, d⟩ := rfl

/-- The core that is replaced. -/
theorem State.core_setCore_same {c : Nat} (h : c < 64) (k : Core) : (s.setCore c k).core c = k := by
  simp [State.core, State.setCore, h]
/-- The other cores. -/
theorem State.core_setCore_ne {c d : Nat} (h : d ≠ c) (k : Core) : (s.setCore c k).core d = s.core d := by
  simp [State.core, State.setCore, Vector.getElem?_setIfInBounds, Ne.symm h]
/-- The core that is changed. -/
theorem State.core_onCore_same {c : Nat} (h : c < 64) (f : Core → Core) : (s.onCore c f).core c = f (s.core c) :=
  s.core_setCore_same h _
/-- The other cores. -/
theorem State.core_onCore_ne {c d : Nat} (h : d ≠ c) (f : Core → Core) : (s.onCore c f).core d = s.core d :=
  s.core_setCore_ne h _
/-- The partition that is changed. -/
theorem State.part_onPart_same {p : Nat} (h : p < 16) (f : Partition → Partition) : (s.onPart p f).part p = f (s.part p) := by
  simp [State.part, State.onPart, h]
/-- The other partitions. -/
theorem State.part_onPart_ne {p q : Nat} (h : q ≠ p) (f : Partition → Partition) : (s.onPart p f).part q = s.part q := by
  simp [State.part, State.onPart, Vector.getElem?_setIfInBounds, Ne.symm h]
/-- The context that is changed. -/
theorem State.ctx_onCtx_same {x : Nat} (h : x < 256) (f : Context → Context) : (s.onCtx x f).ctx x = f (s.ctx x) := by
  simp [State.ctx, State.onCtx, h]
/-- The other contexts. -/
theorem State.ctx_onCtx_ne {x y : Nat} (h : y ≠ x) (f : Context → Context) : (s.onCtx x f).ctx y = s.ctx y := by
  simp [State.ctx, State.onCtx, Vector.getElem?_setIfInBounds, Ne.symm h]
/-- The band that is changed. -/
theorem State.band_onBand_same {c n : Nat} (h : c < 64) (f : Band → Band) :
    (s.onBand c n f).band c n = (s.band c n).map f := by
  simp [State.band, State.onBand, s.core_onCore_same h, aget_amod]
/-- The other bands of the core. -/
theorem State.band_onBand_ne {c n m : Nat} (h : c < 64) (hm : m ≠ n) (f : Band → Band) :
    (s.onBand c n f).band c m = s.band c m := by
  simp [State.band, State.onBand, s.core_onCore_same h, aget_amod, hm]
/-- The bands of the other cores. -/
theorem State.band_onBand_core {c d n m : Nat} (h : d ≠ c) (f : Band → Band) : (s.onBand c n f).band d m = s.band d m := by
  simp [State.band, State.onBand, s.core_onCore_ne h]
/-- Changing the cores leaves the partitions and contexts alone. -/
@[simp] theorem State.part_setCore (c p : Nat) (k : Core) : (s.setCore c k).part p = s.part p := rfl
@[simp] theorem State.ctx_setCore (c x : Nat) (k : Core) : (s.setCore c k).ctx x = s.ctx x := rfl
@[simp] theorem State.home_setCore (c h : Nat) (k : Core) : (s.setCore c k).home h = s.home h := rfl
@[simp] theorem State.core_onPart (p c : Nat) (f : Partition → Partition) : (s.onPart p f).core c = s.core c := rfl
@[simp] theorem State.ctx_onPart (p x : Nat) (f : Partition → Partition) : (s.onPart p f).ctx x = s.ctx x := rfl
@[simp] theorem State.core_onCtx (x c : Nat) (f : Context → Context) : (s.onCtx x f).core c = s.core c := rfl
@[simp] theorem State.part_onCtx (x p : Nat) (f : Context → Context) : (s.onCtx x f).part p = s.part p := rfl

/-! ### Homes -/

/-- Replacing a home's bytes leaves the cores, partitions and contexts alone. -/
@[simp] theorem State.setHome_cores (h : Nat) (m : Memory) : (s.setHome h m).cores = s.cores := by
  unfold State.setHome; split <;> rfl
@[simp] theorem State.setHome_parts (h : Nat) (m : Memory) : (s.setHome h m).parts = s.parts := by
  unfold State.setHome; split <;> rfl
@[simp] theorem State.setHome_ctxs (h : Nat) (m : Memory) : (s.setHome h m).ctxs = s.ctxs := by
  unfold State.setHome; split <;> rfl
/-- The home that is replaced. -/
theorem State.home_setHome_same (h : Nat) (m : Memory) : (s.setHome h m).home h = m := by
  unfold State.setHome State.home; split <;> simp_all
/-- A byte of a home after bytes were written outside it. -/
theorem State.read_homeWrite_out {h a x : Nat} {bs : List Byte} (hx : x < a ∨ a + bs.length ≤ x) :
    ((s.homeWrite h a bs).home h).read x = (s.home h).read x := by
  rw [State.homeWrite, State.home_setHome_same, Memory.read_writeBytes_out _ _ _ hx]
/-- Writing to a home keeps its canonical form. -/
theorem State.wf_homeWrite {h : Nat} (hw : (s.home h).wf = true) (a : Nat) (bs : List Byte) :
    ((s.homeWrite h a bs).home h).wf = true := by
  rw [State.homeWrite, State.home_setHome_same]
  exact Memory.wf_writeBytes hw a bs

/-! ### Taking an exception -/

/-- What `takeFault` can do, said once: one record is written at the place that FREC and its counter give, the counter advances, and
one FAULT sluice that holds the record is added to the partition. -/
theorem State.takeFault_eq (x : Nat) (r : FRec) (who : Agent) (kind prio tflags : Nat) :
    s.takeFault x r who kind prio tflags =
      (((s.homeWrite (baseHome (s.ctx x).frec) (baseFrame (s.ctx x).frec * 4096 + 64 * ((s.ctx x).frecNext % 64))
            ((r.words x).flatMap (bytesOfNat 8))).onCtx x fun k => { k with frecNext := (k.frecNext + 1) % 64 }).raiseSluice (x / 16)
        { sl := .fault, core := r.core.toNat, queue := 0xFF, kind := kind, prio := prio, ctx := some (BitVec.ofNat 4 x),
          tflags := tflags, task := (s.writeRecord x r).2.agentTask who, record := some r, recAddr := (s.writeRecord x r).1, who := who,
          raised := 0, handler := (r.seqf || r.rtn) && ((s.writeRecord x r).2.core r.core.toNat).seq.handler }) := rfl
/-- Taking an exception changes no core. -/
theorem State.takeFault_cores (x : Nat) (r : FRec) (who : Agent) (kind prio tflags : Nat) :
    (s.takeFault x r who kind prio tflags).cores = s.cores := by
  rw [State.takeFault_eq]
  simp [State.raiseSluice, State.homeWrite]

end Sys2Proof.Machine
end

