-- ==== Sys2Proof/Laws/Seq.lean ====
section
/-!
SUPPORT. Laws of the sequencer's results: what a write to a register that nothing is on its way to does, and how a slot with a false
predicate ends.
-/

namespace Sys2Proof.Machine

/-- A slot with a false predicate does nothing (R61). -/
theorem State.slotRun_false {s : State} {p : Pred} (h : s.predHolds p = false) (f : State → State) : s.slotRun p f = .next s := by
  simp [State.slotRun, h]
/-- A slot whose predicate holds has its effect. -/
theorem State.slotRun_true {s : State} {p : Pred} (h : s.predHolds p = true) (f : State → State) : s.slotRun p f = .next (f s) := by
  simp [State.slotRun, h]

/-- The sequencer that acts. -/
theorem State.seqId_eq {s : State} {c : Nat} (h : s.cur = .seq c) : s.seqId = c := by simp [State.seqId, h]

/-- A write to a register that nothing is on its way to adds one landing and changes nothing else (R74). -/
theorem Seq.write_settled (q : Seq) (file reg now L : Nat) (v : Option Word)
    (h : ∀ l ∈ q.land, l.file = file → l.reg = reg → l.last ≤ now) :
    (q.settle now).write file reg now L v =
      { q.settle now with land := (q.settle now).land ++ [⟨file, reg, v, now + 1, now + L⟩] } := by
  have hl : (q.settle now).land = q.land.filter fun l => now < l.last := rfl
  have hr : (q.settle now).inRange file reg now = false := by
    simp only [Seq.inRange, hl, List.any_eq_false, List.mem_filter, decide_eq_true_eq, Bool.and_eq_true, not_and]
    intro l hl hlt
    have := h l hl.1 hlt.1 hlt.2
    omega
  have hm : ∀ l ∈ (q.settle now).land, (if l.file = file && l.reg = reg then { l with value := if false = true then none else l.value } else l) = l := by
    intro l _
    split <;> simp
  simp only [Seq.write, hr]
  rw [List.map_congr_left hm, List.map_id']
  simp

/-- A result for `s0` is discarded (R58). -/
@[simp] theorem State.ws_zero (s : State) (L : Nat) (v : Word) : s.ws 0 L v = s := by simp [State.ws]

/-- What a write of an `s` name can do. -/
theorem State.ws_eq {s : State} {c L : Nat} {d : BitVec 6} (v : Word) (hc : s.cur = .seq c) (hd : d ≠ 0)
    (h : ∀ l ∈ (s.core c).seq.land, l.file = 0 → l.reg = physS s.preCore.seq.rot d.toNat → l.last ≤ s.cycle) :
    s.ws d L v =
      s.setCore c { s.core c with seq :=
        { (s.core c).seq.settle s.cycle with
          land := ((s.core c).seq.settle s.cycle).land ++ [⟨0, physS s.preCore.seq.rot d.toNat, some v, s.cycle + 1, s.cycle + L⟩] } } := by
  simp only [State.ws, hd, if_false, State.onSeq, State.onSeqCore, State.onCore, State.seqId_eq hc]
  rw [Seq.write_settled _ _ _ _ _ _ h]

/-- What a write of a `c` name can do. -/
theorem State.wc_eq {s : State} {c L : Nat} {d : BitVec 4} (v : Bool) (hc : s.cur = .seq c)
    (h : ∀ l ∈ (s.core c).seq.land, l.file = 1 → l.reg = physC s.preCore.seq.rot d.toNat → l.last ≤ s.cycle) :
    s.wc d L v =
      s.setCore c { s.core c with seq :=
        { (s.core c).seq.settle s.cycle with
          land := ((s.core c).seq.settle s.cycle).land
            ++ [⟨1, physC s.preCore.seq.rot d.toNat, some (b2w v), s.cycle + 1, s.cycle + L⟩] } } := by
  simp only [State.wc, State.onSeq, State.onSeqCore, State.onCore, State.seqId_eq hc]
  rw [Seq.write_settled _ _ _ _ _ _ h]

/-- What a write of a `t` register can do. -/
theorem State.wt_eq {s : State} {c L : Nat} {n : BitVec 6} (v : Word) (hc : s.cur = .seq c)
    (h : ∀ l ∈ (s.core c).seq.land, l.file = 2 → l.reg = n.toNat → l.last ≤ s.cycle) :
    s.wt n L v =
      s.setCore c { s.core c with seq :=
        { (s.core c).seq.settle s.cycle with
          land := ((s.core c).seq.settle s.cycle).land ++ [⟨2, n.toNat, some v, s.cycle + 1, s.cycle + L⟩] } } := by
  simp only [State.wt, State.onSeq, State.onSeqCore, State.onCore, State.seqId_eq hc]
  rw [Seq.write_settled _ _ _ _ _ _ h]

/-- Landing what has passed twice is landing it once. -/
theorem Seq.settle_settle (q : Seq) (n : Nat) : (q.settle n).settle n = q.settle n := by
  have h : ((q.settle n).land.filter fun l => l.last ≤ n) = [] := by
    simp [Seq.settle, List.filter_eq_nil_iff]
  have h2 : ((q.settle n).land.filter fun l => n < l.last) = (q.settle n).land := by
    simp [Seq.settle]
  show ({ ((q.settle n).land.filter fun l => l.last ≤ n).foldl Seq.land1 (q.settle n) with
    land := (q.settle n).land.filter fun l => n < l.last } : Seq) = _
  rw [h, h2]
  rfl

/-- Replacing a core twice. -/
@[simp] theorem State.setCore_setCore (s : State) (c : Nat) (k j : Core) : (s.setCore c k).setCore c j = s.setCore c j := by
  simp [State.setCore]

end Sys2Proof.Machine
end

