-- ==== Sys2Proof/Safety.lean ====
section
/-!
DEFINITION. What counts as a safe run: the states that steps reach, the policy programs that a device may hold, and the invariants that
claims rest on.
-/

namespace Sys2Proof.Machine

/-- The states that steps lead to from a state. -/
inductive Reaches (s : State) : State → Prop where
  | start : Reaches s s
  | next (t u : State) : Reaches s t → step t = .next u → Reaches s u

/-- Every program that an engine runs passed the admission check, in the sense of R90: its words are instructions. A step of such a state
never meets a word that is none. -/
def State.admitted (s : State) : Prop :=
  ∀ e ∈ s.engines.toList, ∀ g, e = some g → ∀ w ∈ g.prog, (decodePol w).isSome = true

/-- The engine that acts next stands on a word of its program. -/
def State.inProgram (s : State) : Prop :=
  ∀ e rest g, s.agenda = .engine e :: rest → s.engines[e]? = some (some g) → g.pc < g.prog.length

/-- A step answers a next state. -/
def State.goesOn (s : State) : Prop := ∃ t, step s = .next t

/-- A run is safe when every state that it reaches goes on. -/
def State.safe (s : State) : Prop := ∀ t, Reaches s t → t.goesOn

/-- An invariant: it holds after every step from a state in which it holds. -/
def Invariant (p : State → Prop) : Prop := ∀ s t, p s → step s = .next t → p t

end Sys2Proof.Machine
end

