-- ==== Sys2Proof/Tests/Slice0.lean ====
section
/-!
SUPPORT. Tests: words that the specification's encodings give decode to their instructions, ill-formed terms are refused, and states
that meet the hypotheses of the statements.
-/

open Sys2Proof Sys2Proof.Machine Sys2Proof.Claims

namespace Sys2Proof.Tests

set_option Elab.async false

/-! ### Small states -/

/-- The predicate that always holds. -/
def p0 : Pred := ⟨0, false⟩

/-- Core 0 with a running unit of context 0 and a change of yours; its sequencer issues a bundle. -/
def seqAt (f : Core → Core) : State :=
  let k := f { Core.reset with
    unit := some ⟨0, 0, 1, none, 0, 0, false⟩
    seq := { Seq.reset with phase := .run, pc := 0x1000000001000 } }
  { State.reset.setCore 0 k with cur := .seq 0, pre := some k }

/-- Registers `s` with values. -/
def withS (l : List (Nat × Word)) (k : Core) : Core :=
  { k with seq := { k.seq with s := l.foldl (fun v e => v.setIfInBounds e.1 (some e.2)) k.seq.s } }

/-- A tile register with a scoreboard entry. -/
def withT (n : Nat) (h : Word) (e : TEntry) (k : Core) : Core :=
  { k with seq := { k.seq with t := k.seq.t.setIfInBounds n (some h) }, tiles := aput k.tiles n e }

/-- A band of context 0 that issues on core 0 in slot 3: a lane unit's, with `v` and `b` registers. -/
def band1 (v : List (Nat × Word)) (b : List (Nat × Word)) : Band :=
  { Band.start 0 0 (.unit 0 0 0) 128 b 0 0x1000000002000 0 0 allStrands with st := .issuing, v := v }

/-- The device with a band in slot 3 of core 0 and a change of the core. -/
def bandAt (b : Band) (f : Core → Core) : State :=
  { State.reset.setCore 0 { f Core.reset with bands := [(3, b)] } with cur := .band 0 3 }

/-- A header without predicate. -/
def h0 : LHdr := ⟨false, 7, false, false⟩
/-- A uniform header. -/
def hU : LHdr := ⟨false, 7, true, false⟩

/-- An engine that runs a policy instruction. -/
def engineAt (k : List (Nat × Word)) : State :=
  let e : Engine := ⟨0, ⟨.fault, 0, 0, 0, 0, some 0, 0, none, none, 0, .env, 0, false⟩, [], [], k.foldl (fun v x => v.setIfInBounds x.1 x.2) (Vector.replicate 16 0), 0, 0, []⟩
  { State.reset with engines := State.reset.engines.setIfInBounds 0 (some e) }

theorem takes_of {v : Band} {h : LHdr} {st : Nat} (hu : v.unfinished = none)
    (hx : st < 64 ∧ v.live.getLsbD st = true ∧ predAt v h st = true) : takes v h st := by
  unfold takes
  rw [hu]
  exact hx

theorem taking_of {v : Band} {h : LHdr} {m : Word} (hu : v.unfinished = none)
    (hx : ∀ st < 64, m.getLsbD st = (v.live.getLsbD st && predAt v h st)) : taking v h m := by
  intro st hs
  unfold takes
  rw [hu, hx st hs]
  simp [hs]


/-! ### Witnesses: the sequencer -/

theorem witness_seq_false_predicate : seqPred (.seqAdd ⟨0, true⟩ 1 2 3) = some ⟨0, true⟩ ∧ (seqAt id).predHolds ⟨0, true⟩ = false := by
  decide +kernel

theorem witness_seq_integer :
    (∃ L f, regForm (.seqMulh p0 63 1 2 true) = some (p0, 63, L, f)) ∧ (∃ L f, immForm (.seqMovh p0 63 3 0xFFFF) = some (p0, 63, L, f))
    ∧ (∃ f, bitForm (.seqSel p0 63 15 1 2) = some (p0, 63, f)) ∧ (∃ f, fpForm (.seqFfma p0 63 1 2 3 0 true) = some (p0, 63, f))
    ∧ (∃ L f, regForm (.seqAdd p0 0 1 2) = some (p0, 0, L, f)) ∧ (∃ L f, immForm (.seqAddImm p0 0 1 2) = some (p0, 0, L, f))
    ∧ (∃ f, bitForm (.seqAnd p0 0 1 2) = some (p0, 0, f)) ∧ (∃ f, fpForm (.seqFadd p0 0 1 2 0 false) = some (p0, 0, f))
    ∧ slotOn (seqAt id) 0 p0 ∧ noFlight (seqAt id) 0 0 (physOf (seqAt id) 63) ∧ noFlight (seqAt id) 0 1 (physCOf (seqAt id) 15)
    ∧ (∃ fd fs, Fmt.ofCode 10 = some fd ∧ Fmt.ofCode 6 = some fs) := by
  refine ⟨⟨_, _, rfl⟩, ⟨_, _, rfl⟩, ⟨_, rfl⟩, ⟨_, rfl⟩, ⟨_, _, rfl⟩, ⟨_, _, rfl⟩, ⟨_, rfl⟩, ⟨_, rfl⟩, ?_, ?_, ?_, ⟨_, _, rfl, rfl⟩⟩ <;>
    (first | unfold slotOn | unfold noFlight) <;> decide +kernel

/-- A sequencer with a result on its way to `s1` from cycle 1 to 3. -/
def inFlight : Seq := { Seq.reset with land := [⟨0, 1, some 5, 1, 3⟩] }

theorem witness_landing_ranges :
    Seq.reset.inRange 0 63 0 = false ∧ (∀ l ∈ Seq.reset.land, l.file = 0 → l.reg = 63 → l.last ≤ 0)
    ∧ (∃ l ∈ inFlight.land, l.file = 0 ∧ l.reg = 1 ∧ 2 < l.last) := by
  decide +kernel

theorem witness_seq_loads_and_stores :
    let s := seqAt (withS [(1, 0xFFF8), (2, 0xFFFFFF), (3, 0xFFF9)])
    slotOn s 0 p0 ∧ noFlight s 0 0 (physOf s 63)
    ∧ (0 ≤ ((s.rs 0 1).toNat : Int) ∧ (s.rs 0 1).toNat + 8 ≤ 0x10000 ∧ (s.rs 0 1).toNat % 8 = 0)
    ∧ ((s.rs 0 2).toNat + 1 ≤ 0x1000000 ∧ s.preCore.held 0xFFFFFF 0x1000000 = false)
    ∧ 0x10000 < (s.rs 0 3).toNat + 8 ∧ ((s.rs 0 3).toNat + 4 ≤ 0x10000 ∧ (s.rs 0 3).toNat % 4 ≠ 0)
    ∧ s.frame.fault = none ∧ (s.core 0).tile.wf = true := by
  simp only [slotOn, noFlight]
  decide +kernel

/-- A handle of one row of 32 I8 elements at byte 0. -/
def hTile : Word := 0x1F100030
/-- A copy descriptor of one row of 32 elements of tensor 1. -/
def dCopy : Nat := 1 <<< 160 + 1 <<< 176 + 31 <<< 202
/-- A binding entry of a routine with one band and no tiles. -/
def eBind : Nat := 1 + 1 <<< 104 + 0x1000000002000 <<< 192
/-- The same with the right to be restarted. -/
def eBind2 : Nat := eBind + 1 <<< 97
/-- A task record of one sequencer unit for core 0. -/
def rTask : Nat := 0x1000000001000 + 1 <<< 128 + 1 <<< 360 + 1 <<< 384 + 2 <<< 389
/-- A region record of 64 bytes of tensor 1. -/
def rRegion : Nat := 1 <<< 36 + 64 <<< 128 + 0x1000000000000 <<< 192
/-- A core with bytes in its scalar store. -/
def withBytes (a n w : Nat) (k : Core) : Core := { k with scalar := k.scalar.writeBytes a (bytesOfNat n w) }
/-- A core with a binding entry. -/
def withBind (n e : Nat) (k : Core) : Core := { k with bind := k.bind.writeBytes (32 * n) (bytesOfNat 32 e) }
/-- A queued or faulted invocation of opcode 7. -/
def inv0 (st : IState) (e : Nat) : Inv := ⟨4, 7, BitVec.ofNat 256 e, [], [], [], none, 0, 0, st, false, [], false, 0⟩

theorem witness_seq_tiles :
    let s := seqAt (fun k => withT 63 hTile ⟨.ready, 62, 62⟩ (withT 5 hTile ⟨.free, 0, 0⟩ (withS [(1, hTile)] k)))
    slotOn s 0 p0 ∧ noFlight s 0 2 63 ∧ noFlight s 0 2 5 ∧ hOk (s.rs 0 1 &&& ~~~0x10#64) = true
    ∧ (s.preCore.entry 5).st = .free ∧ (s.preCore.entry 63).st = .ready ∧ noFlight s 0 0 (physOf s 63) := by
  simp only [slotOn, noFlight]
  decide +kernel

theorem witness_seq_copies :
    let s := seqAt (fun k => withT 5 hTile ⟨.alloc, 0, 0⟩ (withT 63 hTile ⟨.ready, 0, 62⟩ (withS [(1, 0xFFE0)] (withBytes 0xFFE0 32 dCopy k))))
    slotOn s 0 p0 ∧ ((s.core 0).chan 3).length < 16 ∧ fillable s 5 ∧ (s.core 0).ranges.length < 32 ∧ (s.rs 0 1).toNat % 32 = 0
    ∧ (s.rs 0 1).toNat ≤ 0xFFE0 ∧ copyDescOk (s.descAt (s.rs 0 1)) (s.rt 2 5) false true = true
    ∧ readable s 63 ∧ (s.preCore.entry 63).xrd < 63 ∧ copyDescOk (s.descAt (s.rs 0 1)) (s.rt 2 63) false false = true
    ∧ bf (s.rs 1 2).toNat 6 2 = 0 ∧ bf (s.rs 1 2).toNat 14 50 = 0
    ∧ (s.core 0).fenceRoom 0x7F = true := by
  simp only [slotOn, fillable, readable]
  decide +kernel

/-- A channel's queue that is full of markers. -/
def fullChan : List CopyCmd := (List.range 16).map fun i => CopyCmd.start0 i .marker (.seq 0) none 0 0

theorem witness_seq_fence_waits :
    let s := seqAt (fun k => { k with chans := k.chans.setIfInBounds 3 fullChan })
    slotOn s 0 p0 ∧ (s.core 0).fenceRoom 8 = false ∧ s.frame.stall = none := by
  simp only [slotOn]
  decide +kernel

theorem witness_seq_array :
    let s := seqAt (fun k =>
      let k := withT 63 hTile ⟨.ready, 62, 0⟩ (withT 5 hTile ⟨.alloc, 0, 0⟩ (withS [(1, 0xFFC0)] (withBytes 0xFFC0 64 2 k)))
      { k with arr := { k.arr with ldwSince := true, swapped := true, pendFmt := 2 } })
    slotOn s 0 p0 ∧ s.preCore.arr.degraded = false ∧ (s.core 0).arr.queue.length < 8 ∧ readable s 63 ∧ (s.preCore.entry 63).crd < 63
    ∧ bf (s.rs 1 2).toNat 10 6 = 0 ∧ bf (s.rs 1 2).toNat 28 36 = 0 ∧ mxClass (hFmt (s.rt 2 63)) ≠ 0 ∧ s.preCore.arr.ldwSince = true
    ∧ s.preCore.arr.monitor = none ∧ s.preCore.arr.swapped = true ∧ bf (s.rs 1 2).toNat 12 52 = 0 ∧ bf (s.rs 1 2).toNat 8 4 = 0
    ∧ mxClass (hFmt (s.rt 2 63)) = mxClass s.preCore.arr.pendFmt ∧ bf (s.rs 1 2).toNat 0 8 = 0
    ∧ (s.core 0).arr.epi.length < 8 ∧ fillable s 5 ∧ (s.rs 0 1).toNat % 64 = 0 ∧ (s.rs 0 1).toNat ≤ 0xFFC0
    ∧ (let blk := BitVec.ofNat 512 (natOfBytes (s.scalarBytes s.preCore (s.rs 0 1).toNat 64))
       ebOk blk = true ∧ ebBv blk = false ∧ hFmt (s.rt 2 5) = eb blk 0 5)
    ∧ (seqAt id).preCore.arr.ldwSince = false ∧ (seqAt id).frame.fault = none := by
  simp only [slotOn, readable, fillable]
  decide +kernel

/-- A group of two members of partition 0: this device has rank 0. -/
def group0 : Word := 0x8000000800000000
/-- A collective over it of one FP32 element. -/
def dColl : Nat := 1 <<< 128 + 10 <<< 160

theorem witness_seq_link :
    let s := { seqAt (fun k =>
      let k := withT 63 hTile ⟨.ready, 0, 62⟩ (withT 5 hTile ⟨.alloc, 0, 0⟩ (withS [(1, 3), (2, 0x12345678), (3, 0xFFC0)] (withBytes 0xFFC0 64 dColl k)))
      { k with rq := [(15, ⟨.seq, some (5, 0), [⟨9, 1, 32, 2⟩], [], [], false⟩)] }) with groups := [(0, group0)] }
    slotOn s 0 p0 ∧ (s.preCore.sendQ 3).length < 16 ∧ readable s 63 ∧ (s.preCore.entry 63).xrd < 63 ∧ bf (s.rs 0 1).toNat 22 42 = 0
    ∧ bf (s.rs 1 2).toNat 32 32 = 0 ∧ s.preCore.chanFor (s.rs 0 1) = some (0, ⟨3, 0, 0, 0⟩)
    ∧ (s.rs 0 3).toNat % 64 = 0 ∧ (s.rs 0 3).toNat ≤ 0xFFC0
    ∧ s.collOk (s.preCore.unitCtx / 16) (s.rs 0 3).toNat 0 0 false (BitVec.ofNat 512 (natOfBytes (s.scalarBytes s.preCore (s.rs 0 3).toNat 64))) = true
    ∧ fillable s 5 ∧ s.preCore.ranges.length < 32 ∧ s.preCore.recvQ 15 = (s.core 0).recvQ 15 ∧ ((s.core 0).recvQ 15).owner = .seq ∧ ((s.core 0).recvQ 15).chan.isSome = true
    ∧ s.loggedMessage s.preCore.unitCtx 0 15 = none ∧ ((s.core 0).recvQ 15).notes = [⟨9, 1, 32, 2⟩]
    ∧ hRows (s.rt 2 5) = 1 ∧ hCols (s.rt 2 5) = 32 ∧ hFmt (s.rt 2 5) = 2 := by
  simp only [slotOn, readable, fillable]
  decide +kernel

theorem witness_seq_tile_opcodes :
    let s := seqAt (fun k => { withBind 255 eBind (withS [(1, 0xFFE0), (2, 255), (3, 4)] (withBytes 0xFFE0 32 eBind2 k)) with invs := [inv0 .faulted eBind2] })
    slotOn s 0 p0 ∧ bindF (s.bindEntry s.preCore 255) 0 3 = 1 ∧ bindTiles (s.bindEntry s.preCore 255) = 0
    ∧ bindSnap (s.bindEntry s.preCore 255) = false ∧ (s.preCore.invs.filter fun i => i.st = .queued).length < 16
    ∧ bindF (s.bindEntry s.preCore 0) 0 3 = 0 ∧ s.frame.fault = none ∧ (s.rs 1 2).toNat ≤ 255 ∧ (s.rs 0 1).toNat % 32 = 0
    ∧ (s.rs 0 1).toNat + 32 ≤ 0x10000
    ∧ (let e := BitVec.ofNat 256 (natOfBytes (s.scalarBytes s.preCore (s.rs 0 1).toNat 32))
       let old := s.bindEntry s.preCore (s.rs 1 2).toNat
       bindOk e = true ∧ (s.preCore.invs.any fun i => i.opc.toNat = (s.rs 1 2).toNat) = false ∧ bindF old 0 3 = 1 ∧ bindF e 0 3 = 1
       ∧ bindTiles old = bindTiles e ∧ bindF old 112 16 = bindF e 112 16)
    ∧ (s.preCore.invs.find? fun i => i.id = (s.rs 0 3).toNat && i.parent.isNone && i.st = .faulted) = some (inv0 .faulted eBind2) := by
  simp only [slotOn]
  decide +kernel

theorem witness_seq_restart :
    let s := seqAt (fun k => { withBind 7 eBind2 (withS [(3, 4)] k) with invs := [inv0 .faulted eBind2] })
    let i := inv0 .faulted eBind2
    slotOn s 0 p0 ∧ (s.preCore.invs.find? fun i => i.id = (s.rs 0 3).toNat && i.parent.isNone && i.st = .faulted) = some i
    ∧ bindRestart i.entry = true
    ∧ (let f := s.bindEntry s.preCore i.opc.toNat
       bindF f 0 3 = 1 ∧ bindTiles f = bindTiles i.entry ∧ bindF f 112 16 = bindF i.entry 112 16 ∧ bindF f 99 1 = bindF i.entry 99 1
       ∧ bindF f 174 18 = bindF i.entry 174 18) := by
  simp only [slotOn]
  decide +kernel

theorem witness_seq_waits :
    let s := seqAt (fun k => { withT 63 hTile ⟨.ready, 0, 0⟩ (withS [(1, 5), (2, 5), (3, 6)] k) with
      invs := [inv0 .queued eBind], chans := k.chans.setIfInBounds 3 fullChan, watch := { k.watch with drift := true } })
    slotOn s 0 p0 ∧ s.rs 0 1 = s.rs 1 2 ∧ s.rs 0 1 ≠ s.rs 1 3 ∧ s.frame.trap = none ∧ s.frame.fault = none ∧ s.frame.stall = none
    ∧ (0x7F#7).getLsbD (s.preCore.entry 63).st.bit = true ∧ (0x01#7).getLsbD (s.preCore.entry 63).st.bit = false ∧ s.preCore.invs ≠ []
    ∧ s.preCore.chan 3 ≠ [] ∧ s.preCore.chan 0 = [] ∧ s.preCore.watch.drift = true
    ∧ (seqAt id).preCore.watch.drift = false ∧ (seqAt id).preCore.invs = [] := by
  simp only [slotOn]
  decide +kernel

theorem witness_seq_tasks :
    let s := seqAt (fun k => { withS [(1, 0xFFC0), (2, 255), (3, 0x7FFFFFFF), (4, 63)] (withBytes 0xFFC0 64 rTask k) with credits := 1 })
    let s := s.onCtx 0 fun k => { k with cores := 1 }
    slotOn s 0 p0 ∧ (s.rs 0 1).toNat % 64 = 0 ∧ (s.rs 0 1).toNat + 64 ≤ 0x10000
    ∧ recValid (BitVec.ofNat 512 (natOfBytes (s.scalarBytes s.preCore (s.rs 0 1).toNat 64))) true (s.ctx s.preCore.unitCtx).cores = true
    ∧ s.preCore.credits ≠ 0 ∧ s.preCore.unitCtx < 256 ∧ s.frame.stall = none ∧ s.frame.fault = none
    ∧ (s.rs 0 2).toNat < 256 ∧ (-2 ^ 31 ≤ (s.rs 1 3).toInt ∧ (s.rs 1 3).toInt < 2 ^ 31) ∧ s.rs 0 4 ≠ 0 ∧ (s.rs 0 4).toNat < 64 ∧ s.rs 0 5 = 0 := by
  simp only [slotOn]
  decide +kernel

theorem witness_seq_system :
    let s := seqAt (withS [(1, 0xFFF), (2, 0x10), (3, 0x13), (4, 0x14), (5, 16), (6, 63), (7, 15), (8, 64)])
    slotOn s 0 p0 ∧ noFlight s 0 0 (physOf s 63) ∧ s.seqCsr (csrOf s 1 4) = some s.cycle ∧ s.seqCsr (csrOf s 1 0x101) = none
    ∧ csrOf s 1 1 = 0 ∧ csrOf s 1 2 = 1 ∧ csrOf s 2 0 = 0x10 ∧ csrOf s 3 0 = 0x13 ∧ csrOf s 4 0 = 0x14
    ∧ csrOf s 1 3 ∉ [0x000, 0x001, 0x010, 0x013, 0x014] ∧ s.frame.trap = none ∧ s.frame.fault = none
    ∧ csrOf s 1 3 = 2 ∧ csrOf s 1 4 = 3 ∧ csrOf s 1 8 ∉ [0x000, 0x001, 0x002, 0x003, 0x010, 0x011, 0x012, 0x013, 0x014] ∧ s.preCore.unit.isSome = true
    ∧ (s.part 0).vecs.toNat.testBit 63 = false ∧ ((s.onPart 0 fun q => { q with vecs := 1 <<< 63 }).part 0).vecs.toNat.testBit 63 = true
    ∧ (16 ≤ (s.rs 0 5).toNat ∧ (s.rs 0 6).toNat ≤ 63) ∧ s.preCore.unitCtx < 256 ∧ (s.rs 0 7).toNat < 16 ∧ 63 < (s.rs 0 8).toNat := by
  simp only [slotOn, noFlight]
  decide +kernel

/-- Context 0 with a key table at frame 0x40 and a registered region 0 with CHECK 1. -/
def keyed (s : State) : State :=
  (s.onCtx 0 fun k => { k with keys := 0x8000000000000040, cores := 1 }).homeWrite 0 0x44000 (bytesOfNat 32 (rRegion + 1 <<< 63 + 1))

theorem witness_seq_keys :
    let s := keyed ((fun (s : State) => { State.reset.placeCode [] with cores := s.cores, cur := s.cur, pre := s.pre }) (seqAt (fun k => withS [(1, 0xFFE0), (2, 4095), (3, 1), (4, 0x1001)] (withBytes 0xFFE0 32 rRegion k))))
    slotOn s 0 p0 ∧ (s.rs 0 1).toNat % 32 = 0 ∧ (s.rs 0 1).toNat + 32 ≤ 0x10000 ∧ (s.rs 1 2).toNat ≤ 4095
    ∧ baseSet (s.ctx s.preCore.unitCtx).keys = true
    ∧ regionOk (BitVec.ofNat 256 (natOfBytes (s.scalarBytes s.preCore (s.rs 0 1).toNat 32))) (s.ctx s.preCore.unitCtx).cores = true
    ∧ (s.region 0 (s.rs 1 2).toNat).getLsbD 63 = false ∧ s.regionInside 0 (s.rs 1 2).toNat = true ∧ s.regionInside 0 0 = true
    ∧ (keyed (seqAt id)).regionInside 0 4095 = false ∧ s.preCore.seq.callAt.map (fun i => i + 1) ≠ some s.cycle
    ∧ (s.rs 0 3).toNat < 2 ^ 32 ∧ bf (s.rs 0 3).toNat 24 8 = s.preCore.unitCtx ∧ (s.region 0 0).getLsbD 63 = true
    ∧ bf (s.region 0 0).toNat 0 12 = bf (s.rs 0 3).toNat 0 12 ∧ (s.region 0 (bf (s.rs 0 4).toNat 12 12)).getLsbD 63 = false := by
  simp only [slotOn]
  decide +kernel

theorem witness_seq_patch :
    let s := (seqAt (withS [(1, 0x1000000000000), (2, 0xFFE0), (3, 0xFFE1)])).placeCode (bytesOfNat 32 1)
    slotOn s 0 p0 ∧ (s.rs 0 1).toNat % 32 = 0 ∧ (s.rs 1 2).toNat % 32 = 0 ∧ (s.rs 1 2).toNat + 32 ≤ 0x10000 ∧ (s.rs 1 3).toNat % 32 ≠ 0
    ∧ s.frame.fault = none ∧ s.preCore.seq.handler = false
    ∧ s.checkTensor (some 0) 0 (s.rs 0 1) 32 = .ok codeTlr := by
  simp only [slotOn]
  decide +kernel


/-! ### Witnesses: the bands -/

/-- A band with queues: `q0` takes results, of which one waits, `q1` gives joint operands. -/
def bandQ : Band := { band1 [] [] with q := [(0, ⟨1, 0, 0, 0⟩), (1, ⟨2, 0, 0, 0⟩)], resultQ := [List.replicate 64 1], of := .gang 4 0 }

theorem witness_lane_elementwise :
    let b := band1 [(64 * 127 + 63, 5)] []
    let i := Instr.laneIadd h0 ⟨6, 127, 127, 0x80, 0, 0, false, false, 0, 0⟩
    ∃ e, elementwise i = some e ∧ i.wf = true ∧ e.h.u = false ∧ laneOn (bandAt b id) 0 3 b b
      ∧ reads (bandAt b id) b b e.srcs (srcWord (bandAt b id) b e.srcs) b.resultQ ∧ accepts b b e.d ∧ (∃ st, takes b e.h st)
      ∧ noTrap i e b (takes b e.h) (srcWord (bandAt b id) b e.srcs) :=
  ⟨_, rfl, by decide, rfl, by unfold laneOn; decide +kernel, Or.inl ⟨by unfold ready1; decide +kernel, rfl, rfl⟩,
    Or.inl (by unfold ready1; decide +kernel), ⟨63, takes_of rfl (by decide +kernel)⟩, fun h => nomatch h⟩

theorem witness_lane_queues :
    let i := Instr.laneIadd h0 ⟨6, 0xF1, 0xF0, 5, 0, 0, false, false, 0, 0⟩
    ∃ e, elementwise i = some e ∧ i.wf = true ∧ laneOn (bandAt bandQ id) 0 3 bandQ bandQ
      ∧ reads (bandAt bandQ id) bandQ bandQ e.srcs
          (fun st pos => if pos = 0 then (List.replicate 64 (1 : Word)).getD st 0 else srcWord (bandAt bandQ id) bandQ e.srcs st pos) []
      ∧ accepts bandQ bandQ e.d ∧ ∃ st, takes bandQ e.h st := by
  refine ⟨_, rfl, by decide, by unfold laneOn; decide +kernel, Or.inr ⟨0, 0xF0, ⟨1, 0, 0, 0⟩, List.replicate 64 1, rfl, by decide, ?_, by decide +kernel, by decide +kernel, rfl, by decide +kernel, rfl, rfl⟩,
    Or.inr ⟨by decide, ⟨2, 0, 0, 0⟩, by decide +kernel, by decide +kernel, rfl, ⟨by decide +kernel, by decide +kernel⟩⟩, ⟨0, takes_of rfl (by decide +kernel)⟩⟩
  intro i y hi hn
  match i with
  | 0 => exact absurd rfl hn
  | 1 => cases hi; unfold ready1; decide +kernel
  | n + 2 => cases hi

/-- A band whose mode word has IDZT set. -/
def bandTrap : Band := { band1 [(64 * 4 + 63, 5)] [] with mode := 8 }

theorem witness_lane_division_trap :
    let i := Instr.laneIdiv h0 ⟨6, 0, 4, 5, 0, 0, false, false, 0, 0⟩
    let j := Instr.laneIrem hU ⟨14, 0x80, 0x81, 0x82, 0, 0, false, false, 0, 0⟩
    (∃ e, elementwise i = some e ∧ divides i = true ∧ i.wf = true ∧ e.h.u = false
      ∧ reads (bandAt { bandTrap with v := [(64 * 5 + 1, 0)] } id) { bandTrap with v := [(64 * 5 + 1, 0)] } { bandTrap with v := [(64 * 5 + 1, 0)] } e.srcs
          (srcWord (bandAt { bandTrap with v := [(64 * 5 + 1, 0)] } id) { bandTrap with v := [(64 * 5 + 1, 0)] } e.srcs) []
      ∧ takes { bandTrap with v := [(64 * 5 + 1, 0)] } e.h 1
      ∧ elem e.w (srcWord (bandAt { bandTrap with v := [(64 * 5 + 1, 0)] } id) { bandTrap with v := [(64 * 5 + 1, 0)] } e.srcs 1 1) 0 = 0)
    ∧ (∃ e, elementwise j = some e ∧ divides j = true ∧ j.wf = true ∧ e.h.u = true ∧ predAt bandTrap e.h 0 = true
      ∧ elem e.w (srcWord (bandAt bandTrap id) bandTrap e.srcs 0 1) 0 = 0)
    ∧ laneOn (bandAt bandTrap id) 0 3 bandTrap bandTrap ∧ bandTrap.mode.getLsbD 3 = true :=
  ⟨⟨_, rfl, rfl, by decide, rfl, Or.inl ⟨by unfold ready1; decide +kernel, rfl, rfl⟩, takes_of rfl (by decide +kernel), by decide +kernel⟩,
    ⟨_, rfl, rfl, by decide, rfl, by decide +kernel, by decide +kernel⟩, by unfold laneOn; decide +kernel, by decide⟩

theorem witness_lane_stops :
    let out := Instr.laneIadd h0 ⟨6, 127, 5, 5, 0, 0, false, false, 0, 0⟩
    let unbound := Instr.laneIadd h0 ⟨6, 0xFF, 5, 5, 0, 0, false, false, 0, 0⟩
    let small := { band1 [] [] with vregs := 112 }
    (∃ e, elementwise out = some e ∧ out.wf = true ∧ ¬ (∀ x ∈ e.d :: e.srcs, byteV x = true → x.toNat < small.vregs))
    ∧ (∃ e, elementwise unbound = some e ∧ unbound.wf = true ∧ (∀ x ∈ e.d :: e.srcs, byteV x = true → x.toNat < small.vregs)
        ∧ ¬ (∀ x ∈ e.d :: e.srcs, byteQ x = true → (aget small.q (x.toNat - 240)).isSome = true))
    ∧ laneOn (bandAt small id) 0 3 small small ∧ small.part1 h0 ≠ 0
    ∧ (aget bandQ.q 1 = some ⟨2, 0, 0, 0⟩ ∧ (2 : Nat) ≠ 1 ∧ (2 : Nat) ≠ 4) ∧ aget bandQ.q 0 = some ⟨1, 0, 0, 0⟩ := by
  refine ⟨⟨_, rfl, by decide, by decide⟩, ⟨_, rfl, by decide, by decide, by decide⟩, by unfold laneOn; decide +kernel, by decide +kernel, by decide, by decide⟩

theorem witness_lane_comparisons :
    let i := Instr.laneIcmp h0 ⟨2, 6, 5, 6, 0, 0, false, false, 5, 7⟩
    let j := Instr.laneFcmp hU ⟨10, 14, 0x80, 0xEF, 0, 0, false, false, 7, 1⟩
    (∃ e, comparison i = some e ∧ i.wf = true ∧ e.h.u = false) ∧ (∃ e, comparison j = some e ∧ j.wf = true ∧ e.h.u = true)
    ∧ predAt (band1 [] []) hU 0 = true :=
  ⟨⟨_, rfl, by decide, rfl⟩, ⟨_, rfl, by decide, rfl⟩, by decide +kernel⟩

theorem witness_lane_groups :
    let i := Instr.lanePack h0 ⟨2, 0, 124, 0, 0, 0, false, true, 0, 6⟩
    let j := Instr.laneCvtw h0 ⟨10, 126, 0, 0, 0, 0, false, false, 0, 8⟩
    let b := band1 [] []
    (∃ e, narrows i = some e ∧ i.wf = true ∧ readyN b b e.f.a 4 ∧ accepts b b e.f.dst)
    ∧ ∃ e, widens j = some e ∧ j.wf = true ∧ readyN b b e.f.dst 2 ∧ reads (bandAt b id) b b [e.f.a] (srcWord (bandAt b id) b [e.f.a]) [] :=
  ⟨⟨_, rfl, by decide, by unfold readyN; decide +kernel, Or.inl (by unfold ready1; decide +kernel)⟩,
    ⟨_, rfl, by decide, by unfold readyN; decide +kernel, Or.inl ⟨by unfold ready1; decide +kernel, rfl, rfl⟩⟩⟩

/-- A band in which strand 63 is dead and only strand 0 is LIVE. -/
def bandDead : Band := { band1 [] [(5, 63)] with dead := 0x8000000000000000, live := 1 }

theorem witness_lane_strand_moves :
    (Instr.laneB2v h0 ⟨0, 127, 0x80, 0x85, 0, 0, false, false, 0, 0⟩).wf = true
    ∧ (Instr.laneV2b h0 ⟨0, 0xEF, 127, 0x85, 0, 0, false, false, 0, 0⟩).wf = true
    ∧ (Instr.laneV2b h0 ⟨0, 0xEF, 127, 0, 0, 0, false, false, 1, 0⟩).wf = true
    ∧ (Instr.laneShfl h0 ⟨0, 127, 0, 0x85, 0, 0, false, false, 3, 0⟩).wf = true
    ∧ laneOn (bandAt bandDead id) 0 3 bandDead bandDead ∧ ready1 bandDead bandDead 127 ∧ ready1 bandDead bandDead 0x85
    ∧ bandDead.dead.getLsbD ((bandDead.breg (0x85 - 128)).toNat % 64) = true ∧ takes bandDead h0 0 ∧ once bandDead h0
    ∧ (∀ st, takes bandDead h0 st → 0 ≤ st) ∧ ¬ takes bandDead h0 63 ∧ (∀ st, ¬ takes bandDead ⟨true, 0, false, false⟩ st → True) := by
  refine ⟨by decide, by decide, by decide, by decide, by unfold laneOn; decide +kernel, by unfold ready1; decide +kernel,
    by unfold ready1; decide +kernel, by decide +kernel, takes_of rfl (by decide +kernel), Or.inl ⟨0, takes_of rfl (by decide +kernel)⟩,
    fun _ _ => Nat.zero_le _, fun h => absurd h.2.1 (by decide +kernel), fun _ _ => trivial⟩

theorem witness_lane_reductions :
    (Instr.laneVote h0 ⟨0, 14, 15, 0, 0, 0, false, false, 2, 0⟩).wf = true ∧ (Instr.laneVote h0 ⟨0, 127, 15, 0, 0, 0, false, false, 3, 0⟩).wf = true
    ∧ (Instr.laneBred h0 ⟨10, 127, 0, 0, 0, 3, false, false, 0, 0⟩).wf = true
    ∧ (Instr.laneBred h0 ⟨7, 127, 0, 0, 0, 0, false, false, 5, 0⟩).wf = true
    ∧ taking bandDead h0 1 :=
  ⟨by decide, by decide, by decide, by decide, taking_of rfl (by decide +kernel)⟩

/-- A full divergence stack. -/
def fullStack : List DivEntry := List.replicate 32 ⟨0x1000000003000, false, 2⟩

theorem witness_lane_branches :
    let b := band1 [] [(0, 0x1000000002008), (1, 1)]
    let d := { b with stack := fullStack }
    let some_ : LHdr := ⟨false, 0, false, false⟩
    let e := { b with p := b.p.setIfInBounds 0 1 }
    laneOn (bandAt b id) 0 3 b b ∧ taking b h0 allStrands ∧ b.live ≠ 0 ∧ (b.pc + 8 * (0x7FFFFFFF#32).signExtend 64).toNat % 8 = 0
    ∧ taking e some_ 1 ∧ (1 : Word) ≠ e.live ∧ b.stack.length < 32 ∧ 32 ≤ d.stack.length ∧ taking b ⟨true, 7, false, false⟩ 0
    ∧ (b.breg 1).toNat % 8 ≠ 0 ∧ ready1 b b 0x80 ∧ predAt b h0 0 = true ∧ (Instr.laneExit h0 ⟨0, 0, 0, 0, 0, 0, false, false, 0, 0⟩).wf = true
    ∧ (∀ st, takes b h0 st → (bandAt b id).lval b [] 0 0x80 0 st = 0x1000000002008) := by
  refine ⟨by unfold laneOn; decide +kernel, taking_of rfl (by decide +kernel), by decide +kernel, by decide +kernel, taking_of rfl (by decide +kernel),
    by decide +kernel, by decide +kernel, by decide +kernel, taking_of rfl (by decide +kernel), by decide +kernel, by unfold ready1; decide +kernel, by decide +kernel, by decide, ?_⟩
  intro st _
  exact (by decide +kernel : (bandAt (band1 [] [(0, 0x1000000002008), (1, 1)]) id).lval (band1 [] [(0, 0x1000000002008), (1, 1)]) [] 0 0x80 0 0 = 0x1000000002008)

theorem witness_band_reconverges :
    let e : DivEntry := ⟨0x1000000003000, true, 3⟩
    let b := { band1 [] [] with stack := [e] }
    ({ band1 [] [] with live := 0 } : Band).stack = [] ∧ (b.live ≠ 0 ∧ ∀ e ∈ b.stack, b.pc ≠ e.pc &&& ~~~7#64) ∧ b.stack = [] ++ [e]
    ∧ (∃ k j l, ({ b with pc := 0x1000000003000 } : Band).stack = k ++ j :: l ∧ j.join = true ∧ (∀ d ∈ l, d.join = false)
      ∧ (0x1000000003000 : Word) = j.pc &&& ~~~7#64) :=
  ⟨rfl, by decide +kernel, rfl, [], _, [], rfl, rfl, by decide, by decide⟩

theorem witness_lane_waits :
    let b := { band1 [(64 * 3 + 5, 9)] [] with tileCtr := 1 }
    (Instr.laneNop h0 ⟨0, 0, 0, 0, 0, 0, false, false, 0, 0⟩).wf = true ∧ (Instr.laneYield h0 ⟨0, 0, 0, 0, 0, 0, false, false, 0, 0⟩).wf = true
    ∧ (Instr.laneChkt h0 ⟨0, 0, 3, 0x80, 0, 0, false, false, 0, 0⟩).wf = true ∧ (Instr.laneFlgr h0 ⟨0, 127, 0, 0, 0, 0, false, false, 1, 0⟩).wf = true
    ∧ (Instr.laneFlgr h0 ⟨0, 0xEF, 0, 0, 0, 0, false, false, 0, 0⟩).wf = true
    ∧ laneOn (bandAt b id) 0 3 b b ∧ taking b h0 allStrands ∧ b.tileCtr ≠ 0 ∧ ready1 b b 3 ∧ ready1 b b 0x80 ∧ ready1 b b 127 ∧ byteV 0xEF = false
    ∧ (bandAt b id).lval b [] 0 3 0 5 ≠ (bandAt b id).lval b [] 1 0x80 0 5 := by
  refine ⟨by decide, by decide, by decide, by decide, by decide, by unfold laneOn; decide +kernel, taking_of rfl (by decide +kernel), by decide, ?_⟩
  unfold ready1
  decide +kernel


/-! ### Witnesses: lane memory and synchronisation -/

/-- A device with a page of tensor 1 of context 0, whose leaf entry is `e`. -/
def tensored (e : Nat) (s : State) : State := (s.placeCode []).homeWrite 0 0x20000 (bytesOfNat 8 e)
/-- A leaf entry of a page that may be read, written and run, in frame 0x30 of the HBM. -/
def eRW : Nat := 1 <<< 63 + 7 <<< 45 + 0x30
/-- The layout unit's copy of that entry, through which it has written. -/
def tlb1 : TlbEntry := ⟨0, 1, 0, 0x20000, 0, BitVec.ofNat 64 eRW, 0, none, true, 0⟩
/-- Such a core. -/
def withTlb (k : Core) : Core := { k with tlb := [tlb1] }

theorem witness_seq_patch_place :
    let s := tensored eRW (seqAt (withS [(1, 0x1000000000000), (2, 0xFFE0)]))
    s.translate (some 0) 0 codeTlr (s.rs 0 1) 32 .write = .ok (.home 0 0x30000) := by
  decide +kernel

/-- A band whose strands address 8 bytes each of tensor 1. -/
def bandMem : Band := { band1 [(64 * 2, 0x1000000000FF8)] [(0, 0x1000000000000), (1, 0xFFFF)] with live := 1 }

theorem witness_lane_accesses :
    let s := tensored eRW (bandAt bandMem withTlb)
    let i := Instr.laneAtom h0 ⟨6, 127, 2, 0, 8, 4⟩
    let m := Instr.laneAtom h0 ⟨6, 127, 2, 0x7FFF0, 8, 4⟩
    ∃ r, reach i = some r ∧ i.wf = true ∧ laneOn s 0 3 bandMem bandMem ∧ readyRegs bandMem bandMem r.regs ∧ taking bandMem r.h 1
      ∧ unwatched s 0
      ∧ (∃ acc, strandOf s 0 bandMem r 0 = .ok acc ∧ atHome s 0 bandMem r acc)
      ∧ m.wf = true ∧ taking bandMem ⟨true, 7, false, false⟩ 0 := by
  refine ⟨_, rfl, by decide, by unfold laneOn; decide +kernel, by unfold readyRegs; decide +kernel, taking_of rfl (by decide +kernel),
    by unfold unwatched; decide +kernel, ⟨(codeTlr, [(0, 8, 0x1000000000FF8, .ok (.home 0 0x30FF8))]), by decide +kernel, ?_⟩, by decide, taking_of rfl (by decide +kernel)⟩
  refine ⟨by decide, ?_⟩
  intro p hp
  simp only [List.mem_singleton] at hp
  subst hp
  exact ⟨⟨0, 0x30FF8, rfl⟩, Or.inr ⟨⟨tlb1, by decide +kernel, rfl⟩, ⟨tlb1, by decide +kernel, rfl⟩⟩⟩

theorem witness_lane_lines :
    let m := { CopyCmd.start0 1 .marker (.seq 0) none 0 0 with remote := List.range 32 }
    let s := bandAt bandMem fun k => { k with chans := Vector.replicate 4 (List.replicate 16 m) }
    laneOn s 0 3 bandMem bandMem ∧ (s.core 0).linesFull = true ∧ ((bandAt bandMem id).core 0).linesFull = false
    ∧ inLines 0x7F 8 = [(0, 1), (1, 7)] ∧ inLines 0x78 8 = [(0, 8)] := by
  unfold laneOn
  decide +kernel

theorem witness_lane_access_faults :
    let i := Instr.laneLd h0 ⟨0, 127, 2, 0, 3, 0⟩
    let s := bandAt bandMem id
    let far := tensored (1 <<< 63 + 2 <<< 45 + 0x30) s
    let moving := tensored (1 <<< 40) s
    (∃ r, reach i = some r ∧ i.wf = true
      ∧ (strandOf s 0 bandMem r 0).fault = some (FKind.polderFault, 0x1000000000FF8, 0) ∧ parkKind .polderFault = false
      ∧ (strandOf far 0 bandMem r 0).fault = some (FKind.pageAccess, (0x1000000000FF8 : Word), BitVec.ofNat 64 (1 <<< 63 + 2 <<< 45 + 0x30))
      ∧ parkKind .pageAccess = true
      ∧ (strandOf moving 0 bandMem r 0).any TOut.isHold = true)
    ∧ bandMem.acc = [] ∧ (far.core 0).watch.stops = []
    ∧ (let base : Word := 0x1FFFFFFFFFFFF
       let o := ((base.toNat % 2 ^ 48 : Nat) : Int)
       2 ^ 48 < o + 8 ∧ (0 ≤ o ∧ o + 1 ≤ 2 ^ 48)) := by
  exact ⟨⟨_, rfl, by decide, by decide +kernel, by decide, by decide +kernel, by decide, by decide +kernel⟩, rfl, by decide +kernel, by decide⟩

/-- A load of strand 63 that is on its way. -/
def access1 (k : AccKind) : Access :=
  { id := 9, kind := k, tile := false, dst := 4, size := 4, sx := true, op := 0, ty := 6, scope := 4, pc := 0, whole := 0x8000000000000000
    pieces := [⟨63, 0, 4, .home 0 0x30000, 0x1000000000000, 7, 0, none, none, false, 0⟩] }

theorem witness_lane_completion :
    let b := { bandMem with acc := [access1 .atom] }
    let s := { bandAt b id with req := { Request.zero with core := 0, n := 3, m := 9 } }
    s.req.core = 0 ∧ s.req.n = 3 ∧ s.band 0 3 = some b ∧ b.acc = [] ++ access1 .atom :: [] ∧ (access1 .atom).id = s.req.m ∧ s.req.addr = 0
    ∧ (4 : Nat) ∈ [1, 2, 4, 8] ∧ (access1 .atom).whole = BitVec.ofNat 64 (2 ^ 63) ∧ b.dead.getLsbD 63 = false ∧ b.parkRec = none := by
  decide +kernel

theorem witness_lane_tile :
    let b := { band1 [] [(0, 0xFFFFF8), (1, 0xFFFFF9), (2, 0xFFFFFF)] with live := 0x8000000000000001 }
    let s := bandAt b id
    laneOn s 0 3 b b ∧ readyRegs b b [(0x80, 1), (127, 1)] ∧ taking b h0 0x8000000000000001 ∧ b.tileCtr < 64 ∧ b.inv = none
    ∧ (((s.lval b [] 0 0x80 0 0).toNat : Int) + 8 ≤ 0x1000000 ∧ (8 : Int) ∣ ((s.lval b [] 0 0x80 0 0).toNat : Int))
    ∧ ¬ ((s.lval b [] 0 0x82 0 0).toNat : Int) + 2 ≤ 0x1000000 ∧ ¬ (4 : Int) ∣ ((s.lval b [] 0 0x81 0 0).toNat : Int)
    ∧ (64 ≤ ({ b with tileCtr := 64 } : Band).tileCtr) := by
  refine ⟨by unfold laneOn; decide +kernel, by unfold readyRegs; decide +kernel, taking_of rfl (by decide +kernel), by decide +kernel, rfl, ?_⟩
  decide +kernel

theorem witness_lane_copies :
    let d : BitVec 256 := BitVec.ofNat 256 dCopy
    let b := band1 [] [(0, hTile), (108, d.extractLsb' 0 64), (109, d.extractLsb' 64 64), (110, d.extractLsb' 128 64), (111, d.extractLsb' 192 64)]
    let s := bandAt b id
    let f : VForm := ⟨0, 0, 0x80, 0, 0xEC, 0, false, false, 0, 3⟩
    laneOn s 0 3 b b ∧ readyRegs b b [(0x80, 1)] ∧ (Instr.laneCpy h0 f).wf = true ∧ once b h0 ∧ ((s.core 0).chan 3).length < 16
    ∧ hOk (b.breg 0) = true ∧ (s.core 0).ranges.length < 32 ∧ b.inv = none
    ∧ copyDescOk (b.breg 111 ++ b.breg 110 ++ b.breg 109 ++ b.breg 108) (b.breg 0) false false = true
    ∧ (Instr.laneCpy h0 ⟨0, 0, 0x80, 0x81, 0, 0, false, false, 2, 0⟩).wf = true ∧ bf (b.breg 1).toNat 6 2 = 0 ∧ bf (b.breg 1).toNat 14 50 = 0 := by
  refine ⟨by unfold laneOn; decide +kernel, by unfold readyRegs; decide +kernel, by decide, Or.inr (by decide +kernel), ?_⟩
  decide +kernel

/-- Context 0 with a pennant table at frame 0x50 whose pennant 65535 is held. -/
def penned (w : Nat) (s : State) : State :=
  ((s.placeCode []).onCtx 0 fun k => { k with ptab := 0x8000000000000050 }).homeWrite 0 (0x50000 + 8 * 65535) (bytesOfNat 8 w)

theorem witness_lane_pennants :
    let b := band1 [] [(0, 0xFFFF), (1, 0x10000)]
    let i := Instr.lanePacq h0 ⟨0, 127, 0x80, 0⟩
    let j := Instr.lanePrel h0 ⟨0, 0, 0, 0x4FFFF⟩
    let s := penned (1 <<< 63) (bandAt b id)
    i.wf = true ∧ j.wf = true ∧ laneOn s 0 3 b b ∧ ready1 b b 127 ∧ predAt b h0 0 = true ∧ 65535 < penOf b ⟨0, 127, 0x81, 0⟩
    ∧ penOf b ⟨0, 127, 0x80, 0⟩ = 65535 ∧ pennantAt s b.slot 65535 0 (0x50000 + 8 * 65535) 0x8000000000000000
    ∧ pennantAt (penned 0 (bandAt b id)) b.slot 65535 0 (0x50000 + 8 * 65535) 0
    ∧ ((bandAt b id).partOf b.slot).inPolder 0 0xCF = false ∧ predAt b ⟨true, 15, false, false⟩ 0 = false := by
  refine ⟨by decide, by decide, by unfold laneOn; decide +kernel, by unfold ready1; decide +kernel, by decide +kernel, by decide +kernel,
    by decide +kernel, by unfold pennantAt; decide +kernel, by unfold pennantAt; decide +kernel, by decide +kernel, by decide +kernel⟩

theorem witness_lane_fences :
    let b := { bandMem with acc := [access1 .store] }
    let w := { bandMem with acc := [access1 .store], wait := .fence [9] [] }
    let s := bandAt b fun k => { k with chans := k.chans.setIfInBounds 3 fullChan }
    laneOn s 0 3 b b ∧ predAt b h0 0 = true ∧ h0.pred.toNat ≥ 7 ∧ (∃ a ∈ b.acc, a.tile = false ∧ a.kind ≠ .load) ∧ (∃ a ∈ w.acc, a.id ∈ [9])
    ∧ bandMem.acc = [] ∧ (s.core 0).fenceRoom 8 = false ∧ (s.core 0).fenceRoom 0x77 = true := by
  refine ⟨by unfold laneOn; decide +kernel, by decide +kernel, by decide, ⟨access1 .store, by decide +kernel, rfl, by decide⟩,
    ⟨access1 .store, by decide +kernel, by decide⟩, rfl, ?_⟩
  decide +kernel

theorem witness_lane_barrier :
    let b := band1 [] []
    let s := (bandAt b id).onPart 0 fun q => { q with roots := 0x8000 }
    let imm : BitVec 28 := BitVec.ofNat 28 (63 + 1 <<< 14 + 15 <<< 16)
    laneOn s 0 3 b b ∧ h0.pred.toNat ≥ 7 ∧ predAt b h0 0 = true ∧ (s.partOf b.slot).roots.getLsbD (imm.toNat / 2 ^ 16 % 16) = true
    ∧ (s.partOf b.slot).roots.getLsbD 0 = false ∧ (∀ st < 64, b.dead.getLsbD st = true ∨ b.exited.getLsbD st = true ∨ b.live.getLsbD st = true)
    ∧ (∀ a ∈ b.acc, a.tile = true) ∧ ((s.core 0).leaf 63).st = .idle
    ∧ (let d := { b with live := 1 }
       ∃ st < 64, d.dead.getLsbD st = false ∧ d.exited.getLsbD st = false ∧ d.live.getLsbD st = false) := by
  refine ⟨by unfold laneOn; decide +kernel, by decide, by decide +kernel, by decide +kernel, by decide +kernel, by decide +kernel, by decide +kernel,
    by decide +kernel, 63, by decide, by decide +kernel⟩

/-- A running invocation of one band, and an entry that may nest. -/
def invUp (e : Nat) : Inv := { inv0 .running e with formed := true, bands := [3] }

theorem witness_lane_queue_binding :
    let g := { band1 [] [(0, 0x1000000000000), (1, 15)] with of := .gang 4 0 }
    let u := band1 [] []
    laneOn (bandAt g id) 0 3 g g ∧ once g h0 ∧ g.staging = [] ∧ aget g.q 15 = none ∧ g.inv.isSome = true ∧ u.inv = none
    ∧ (g.breg 0).toNat % 512 = 0 ∧ (g.breg 1).toNat < 16 ∧ ((bandAt g id).core 0).rq = []
    ∧ aget ({ g with q := [(15, ⟨1, 0, 0, 0⟩)] } : Band).q 15 = some ⟨1, 0, 0, 0⟩ ∧ taking u h0 allStrands := by
  refine ⟨by unfold laneOn; decide +kernel, Or.inr (by decide +kernel), rfl, rfl, by decide, rfl, by decide +kernel, by decide +kernel, by decide +kernel, rfl,
    taking_of rfl (by decide +kernel)⟩

theorem witness_lane_joint :
    let b := { band1 [] [(0, 0x100)] with of := .gang 4 0, q := [(1, ⟨2, 0, 0, 0⟩), (0, ⟨1, 0, 0, 0⟩)] }
    let s := bandAt b fun k => { k with invs := [invUp eBind] }
    let f : VForm := ⟨2, 0, 0x80, 0xF1, 0xF0, 0, false, false, 0, 0⟩
    laneOn s 0 3 b b ∧ once b h0 ∧ b.of = .gang 4 0 ∧ (s.core 0).inv 4 = some (invUp eBind) ∧ (Instr.laneMmj h0 f).wf = true
    ∧ (aget b.q (f.b.toNat - 240)).map (fun e => e.kind) = some 2 ∧ (aget b.q (f.c.toNat - 240)).map (fun e => e.kind) = some 1
    ∧ (b.breg 0).getLsbD 16 = false ∧ (s.core 0).arr.degraded = false ∧ (s.core 0).arr.joint = none := by
  refine ⟨by unfold laneOn; decide +kernel, Or.inr (by decide +kernel), rfl, by decide +kernel, by decide, by decide +kernel, by decide +kernel,
    by decide +kernel, by decide +kernel, by decide +kernel⟩

theorem witness_lane_nested :
    let up := invUp (eBind + 1 <<< 98)
    let b := { band1 [] [] with of := .gang 4 0 }
    let s := bandAt b fun k => { withBind 255 eBind k with invs := [up] }
    laneOn s 0 3 b b ∧ (∃ st, takes b h0 st) ∧ b.inv.bind (s.core 0).inv = some up ∧ (∀ i ∈ (s.core 0).invs, i.parent ≠ some up.id)
    ∧ ((s.core 0).invs.filter fun i => i.st = .queued).length < 16 ∧ bindF up.entry 98 1 = 1 ∧ up.parent = none
    ∧ bindF (s.bindEntry (s.core 0) 255) 0 3 = 1 ∧ (255 : BitVec 8) ≠ up.opc ∧ bindSnap (s.bindEntry (s.core 0) 255) = false
    ∧ bindTiles (s.bindEntry (s.core 0) 255) = 0 ∧ bindF (invUp eBind).entry 98 1 = 0 ∧ bindF (s.bindEntry (s.core 0) 0) 0 3 ≠ 1 := by
  refine ⟨by unfold laneOn; decide +kernel, ⟨0, takes_of rfl (by decide +kernel)⟩, ?_⟩
  decide +kernel

theorem witness_lane_tasks :
    let r : BitVec 512 := BitVec.ofNat 512 rTask
    let b := band1 [] ((List.range 8).map fun i => (104 + i, r.extractLsb' (64 * i) 64))
    let s := (bandAt b fun k => { k with credits := 1 }).onCtx 0 fun k => { k with cores := 1 }
    let d := band1 [] [(0, 255), (1, 0xFFFFFFFF80000000), (2, 256), (3, 63)]
    laneOn s 0 3 b b ∧ once b h0 ∧ (Instr.laneLaunch h0 ⟨0, 14, 0xE8, 0, 0, 0, false, false, 1, 0⟩).wf = true
    ∧ recValid (recordAt b 0xE8) true (s.ctx b.slot).cores = true ∧ (s.core 0).credits ≠ 0 ∧ b.slot < 256
    ∧ ((bandAt b id).core 0).credits = 0 ∧ recValid (recordAt b 0x80) true (s.ctx b.slot).cores = false
    ∧ (d.breg 0).toNat < 256 ∧ (-2 ^ 31 ≤ (d.breg 1).toInt ∧ (d.breg 1).toInt < 2 ^ 31) ∧ 256 ≤ (d.breg 2).toNat ∧ (d.breg 3 ≠ 0 ∧ (d.breg 3).toNat < 64)
    ∧ taking d h0 allStrands := by
  refine ⟨by unfold laneOn; decide +kernel, Or.inr (by decide +kernel), by decide, by decide +kernel, by decide +kernel, by decide +kernel, by decide +kernel,
    by decide +kernel, by decide +kernel, by decide +kernel, by decide +kernel, by decide +kernel, taking_of rfl (by decide +kernel)⟩

theorem witness_lane_registers :
    let b := band1 [] [(0, 5)]
    let s := bandAt b id
    let d := s.onPart 0 fun q => { q with debug := 1 }
    laneOn s 0 3 b b ∧ taking b h0 allStrands ∧ (s.part b.part.toNat).debug = 0 ∧ (d.part b.part.toNat).debug ≠ 0 ∧ b.st = .issuing
    ∧ ready1 b b 0xEF ∧ ready1 b b 127 ∧ byteV 0xEF = false ∧ byteV 127 = true ∧ once b h0 := by
  refine ⟨by unfold laneOn; decide +kernel, taking_of rfl (by decide +kernel), by decide +kernel, by decide +kernel, rfl, by unfold ready1; decide +kernel,
    by unfold ready1; decide +kernel, by decide, by decide, Or.inr (by decide +kernel)⟩

theorem witness_band_fault : (bandAt (band1 [] []) id).band 0 3 = some (band1 [] []) ∧ (band1 [] []).st = .issuing ∧ (band1 [] []).slot < 256 := by
  decide +kernel

/-! ### Witnesses: policy -/

/-- The state that an instruction leaves. -/
def after (i : Instr) (s : State) : State :=
  match exec i s with
  | .next u => u
  | .fault _ => s
  | .refused _ => s

/-- The engine of `engineAt`. -/
def engine0 (k : List (Nat × Word)) : Engine := (((engineAt k).engines[0]?).getD none).getD
  ⟨0, ⟨.fault, 0, 0, 0, 0, none, 0, none, none, 0, .env, 0, false⟩, [], [], Vector.replicate 16 0, 0, 0, []⟩

theorem witness_policy_registers :
    let s := engineAt [(1, 0xFFFFFFFFFFFFFFFF), (2, 1), (15, 63)]
    let e := engine0 [(1, 0xFFFFFFFFFFFFFFFF), (2, 1), (15, 63)]
    engineOn s e ∧ (polForm (.polAdd 15 1 2)).isSome = true ∧ (polForm (.polShl 0 1 15)).isSome = true ∧ (polForm (.polSel 3 1 2 0)).isSome = true
    ∧ polHolds 4 (kreg e 1) (kreg e 2) ∧ ¬ polHolds 2 (kreg e 1) (kreg e 2) ∧ ¬ polHolds 5 (kreg e 1) (kreg e 2) ∧ polHolds 3 (kreg e 1) (kreg e 2)
    ∧ e.part < 16 := by
  unfold engineOn polHolds
  decide +kernel

theorem witness_policy_control :
    let e := { engine0 [(1, 3)] with loops := [(2, 1)], view := [[[5, 9], [7, 9]]] }
    let g := { engine0 [(1, 3)] with loops := [(1, 1)] }
    engineOn { engineAt [] with engines := State.reset.engines.setIfInBounds 0 (some e) } e ∧ e.loops = [(2, 1)] ∧ 2 ≤ 2 ∧ g.loops = [(1, 1)] ∧ kreg e 0 = 0
    ∧ kreg e 1 ≠ 0 ∧ (after (.polScanMax 4 1 0 1) { engineAt [] with engines := State.reset.engines.setIfInBounds 0 (some e) }).engine = some (wrote e 4 0 8) := by
  unfold engineOn
  decide +kernel

/-- Partition 0 with a policy slot, and a request of it. -/
def slotted (sl : PSlot) (v : Nat) : State :=
  { State.reset.onPart 0 fun q => { q with slot := sl } with req := { Request.zero with value := v } }
/-- A program that falls off its end, one that ends, in a slot. -/
def slotWith (st : PState) (sh : PShadow) (w : BitVec 32) : PSlot := { PSlot.reset with st := st, shadow := sh, words := [(0, w)], active := [w] }

theorem witness_policy_slot :
    let b := { (slotted (slotWith .active .loaded 0) 4).onCtx 0 fun k => { k with st := .running } with req := { Request.zero with value := 4 } }
    (slotted (slotWith .loaded .loaded 0) 0).fwStatus = .ok ∧ ((slotted (slotWith .loaded .loaded 0) 0).part 0).slot.shadow ≠ .checking
    ∧ ((slotted (slotWith .active .checking 0) 1).part 0).slot.shadow = .checking ∧ 2 ^ 26 ≤ (2 ^ 26 : Nat) % 2 ^ 64 ∧ bf 0x11 4 12 ≠ 0
    ∧ (1 + 511 * 2 ^ 16 : Nat) % 2 ^ 26 = 1 + 511 * 2 ^ 16 ∧ ((slotted (slotWith .retired .empty 0) 5).part 0).slot.st = .retired
    ∧ ((slotted (slotWith .checked .checked 0) 2).part 0).slot.shadow = .checked ∧ ((slotted (slotWith .active .empty 0) 3).part 0).slot.st = .active
    ∧ (slotted (slotWith .active .empty 0) 4).partBusy 0 = false ∧ b.partBusy 0 = true ∧ (b.part 0).slot.shadow ≠ .checking := by
  decide +kernel

theorem witness_policy_checks :
    checkProgram [(0, 0x00000000#32)] 1 ≠ none ∧ checkProgram [(0, encodePol .polEnd)] 1 = none
    ∧ (let r : SReq := ⟨.dispatch, 0, 0, 0, 0, none, 0, none, none, 0, .env, 0, false⟩
       let s := (slotted (slotWith .active .empty (encodePol .polEnd)) 0).onPart 0 fun q => { q with sluices := [r] }
       let d := (slotted (slotWith .disabled .empty (encodePol .polEnd)) 0).onPart 0 fun q => { q with sluices := [r] }
       (∀ q < 16, q ≠ 0 → (s.part q).sluices = []) ∧ (s.part 0).sluices = [r] ∧ (s.part 0).inFlight = false ∧ (s.part 0).decided = none
       ∧ s.loggedDecision 0 r = none ∧ (s.part 0).slot.st = .active ∧ s.engines[0]? = some none ∧ (d.part 0).slot.st ≠ .active)
    ∧ (let e := { engine0 [] with prog := [encodePol .polNop], cost := 512 }
       e.overBudget = true ∧ { e with cost := 511 }.overBudget = false ∧ (e.prog[e.pc]?).bind decodePol = some .polNop ∧ e.part < 16) := by
  decide +kernel

/-! ### Witnesses: the scheduler -/

/-- Partition 0 on cores 0 and 63 with the task `t` in slot 5 of its store. -/
def tasked (t : Task) (f : Partition → Partition) : State :=
  (State.reset.onPart 0 fun q => f { q with cores := 0x8000000000000001, tasks := [(5, t)] }).onCtx 0 fun k => { k with cores := 0x8000000000000001, st := .running }
/-- A task of context 0 whose record is `r`. -/
def task5 (r : Nat) (st : TaskSt) : Task := ⟨5, 0, BitVec.ofNat 512 r, false, st, 7, 0, 0, [], 0, 0, 0, [], false, false⟩
/-- A launch that is RUNNING or PENDING. -/
def launch7 (st : LState) : Launch := ⟨7, st, none, 2, [], [], false⟩

theorem witness_scheduler_credits :
    let s := tasked (task5 rTask .ready) id
    let t := s.onPart 0 fun q => { q with creditNext := 63 }
    (s.part 0).tasks.length < 8192 ∧ (∀ d ∈ coresOf (s.part 0).cores, (s.core d).credits < 4) ∧ 0 ∈ coresOf (s.part 0).cores
    ∧ (∀ d ∈ coresOf (s.part 0).cores, ¬ (d < 0)) ∧ 63 ∈ coresOf (t.part 0).cores
    ∧ (∀ d ∈ coresOf (t.part 0).cores, 63 ≤ d → d < 63 → 4 ≤ (t.core d).credits)
    ∧ 8192 ≤ ((tasked (task5 rTask .ready) fun q => { q with tasks := List.replicate 8192 (0, task5 rTask .ready) }).part 0).tasks.length := by
  decide +kernel

theorem witness_scheduler_tasks :
    let s := (tasked (task5 rTask .pending) fun q => { q with enqs := [5] }).onCtx 0 fun k => { k with launches := [(7, launch7 .running)] }
    let d := (tasked (task5 rTask .pending) fun q => { q with enqs := [5] }).onCtx 0 fun k => { k with launches := [(7, launch7 .done)] }
    let b := task5 (rTask + 1 <<< 239 + 255 <<< 224) .pending
    let w := { s with decs := [⟨0, 0, 0, 255, 1⟩], parts := (s.onPart 0 fun q => { q with tasks := [(5, { task5 rTask .pending with order := 1 })] }).parts }
    (s.part 0).enqs = [5] ∧ aget (s.part 0).tasks 5 = some (task5 rTask .pending) ∧ (task5 rTask .pending).isLaunch = false
    ∧ s.schedWaits (task5 rTask .pending).lastCore (task5 rTask .pending).order = false ∧ w.schedWaits 0 1 = true
    ∧ aget (s.ctx 0).launches 7 = some (launch7 .running) ∧ (launch7 .running).st.active = true ∧ (launch7 .done).st.active = false
    ∧ aget (d.ctx 0).launches 7 = some (launch7 .done) ∧ tf (task5 rTask .pending).record 223 1 = 0 ∧ tf (task5 rTask .pending).record 207 1 = 0
    ∧ tf b.record 239 1 = 1 ∧ tf b.record 224 8 = 255 ∧ (s.dep 0 255).count ≤ 0
    ∧ 0 < ((s.onCtx 0 fun k => { k with deps := [(255, ⟨1, false⟩)] }).dep 0 255).count := by
  decide +kernel

theorem witness_scheduler_messages :
    let s := { (tasked (task5 rTask .ready) id).onCtx 0 fun k => { k with deps := [(255, ⟨-2147483648, false⟩)] } with
      decs := [⟨0, 1, 0, 255, 1⟩], cancels := [⟨0, 2, 0, 3, 7, 0⟩] }
    let d := { s with decs := [] }
    s.decs[s.req.n]? = some ⟨0, 1, 0, 255, 1⟩ ∧ s.cancels[s.req.n]? = some ⟨0, 2, 0, 3, 7, 0⟩ ∧ s.schedWaits 0 1 = false ∧ s.schedWaits 0 2 = true
    ∧ d.schedWaits 0 2 = false ∧ ((s.part 0).tasks.map fun t => t.1).Nodup
    ∧ State.reset.decs[State.reset.req.n]? = none
    ∧ (let u := after .depCounterDecrement s
       (u.dep 0 255).count = -2147483648 ∧ (u.dep 0 255).ovf = true ∧ u.decs = []) := by
  decide +kernel

theorem witness_scheduler_completion :
    let t := { task5 rTask .running with placed := 1, ended := [0] }
    let s := { tasked t id with req := { Request.zero with n := 5 } }
    aget (s.part 0).tasks 5 = some t ∧ t.finished = true ∧ t.completed = false ∧ s.taskDrained 0 5 0 = true ∧ tf t.record 223 1 = 0
    ∧ tf t.record 207 1 = 0 ∧ (task5 rTask .running).finished = false := by
  decide +kernel

/-- A start vector for core 63. -/
def vector63 : Launch := ⟨1, .pending, some [(63, 0x1000000002000)], 0, [], [], false⟩

theorem witness_units_vector :
    let s := { (tasked (task5 rTask .ready) id).onCtx 0 fun k => { k with launches := [(1, vector63)] } with req := { Request.zero with n := 1 } }
    let d := s.onCore 63 fun k => { k with failed := true }
    aget (s.ctx 0).launches 1 = some vector63 ∧ vector63.vector = some [(63, 0x1000000002000)] ∧ (s.core 63).unit = none ∧ (s.core 63).failed = false
    ∧ (∀ b ∈ (s.core 63).bands, b.2.slot = 0) ∧ (d.core 63).failed = true := by
  decide +kernel

/-- A list entry of unit 0 of the task in slot 5. -/
def listed : LEntry := ⟨.seqUnit, some 5, 0, [0], 0, false⟩

theorem witness_units_list :
    let s := (tasked { task5 rTask .placed with placed := 1 } id).onCore 0 fun k => { k with list := [listed] }
    (s.core 0).list = listed :: [] ∧ (s.core 0).owner = none ∧ (s.part 0).cores.getLsbD 0 = true ∧ listed.cores = [0]
    ∧ aget (s.part 0).tasks 5 = some { task5 rTask .placed with placed := 1 } ∧ (s.core 0).unit = none ∧ (s.core 0).failed = false ∧ s.freezes 0 = []
    ∧ s.vectorAhead 0 0 = false
    ∧ (let u := after .localListStart s
       (u.core 0).list = [] ∧ (u.core 0).seq.pc = 0x1000000001000) := by
  decide +kernel

theorem witness_units_return :
    let s := (tasked (task5 rTask .ready) id).onCore 0 fun k => { k with returning := [listed] }
    (s.core 0).list = [] ∧ (s.core 0).returning = [] ++ [listed] ∧ s.corePart 0 = some 0 ∧ (s.core 0).failed = false ∧ s.freezes 0 = []
    ∧ s.vectorAhead 0 0 = false ∧ ((after .localListStart s).core 0).list = [listed] := by
  decide +kernel

theorem witness_units_retire :
    let u : SeqUnit := ⟨0, 0, 7, some 5, 0, 0, false⟩
    let s := (tasked { task5 rTask .running with placed := 1, ended := [0] } id).onCore 0 fun k => { k with unit := some u, seq := { k.seq with phase := .ended } }
    let r := s.onCore 0 fun k => { k with seq := { k.seq with phase := .run } }
    (s.core 0).unit = some u ∧ (s.core 0).seq.phase = .ended ∧ s.unitMarked 0 u = true ∧ (s.core 0).drained = true ∧ (r.core 0).seq.phase ≠ .ended := by
  decide +kernel

theorem witness_units_save :
    let u : SeqUnit := ⟨0, 0, 7, some 5, 0, 0, false⟩
    let s := ((tasked { task5 rTask .running with placed := 1 } id).onCore 0 fun k => { k with unit := some u, seq := { k.seq with phase := .run } }).onCtx 0
      fun k => { k with freezing := [(0, 4, 0)] }
    let d := s.onCore 0 fun k => { k with invs := [invUp eBind] }
    ((s.ctx 0).freezing.find? fun f => f.1 = 0) = some (0, 4, 0) ∧ (s.core 0).bands = [] ∧ (s.core 0).seqLeaves 0 4 = true ∧ (s.core 0).unit = some u
    ∧ (s.core 0).atRest = true ∧ s.pens = [] ∧ (d.core 0).bands = [] := by
  decide +kernel

/-! ### Witnesses: decisions -/

/-- A pending invocation of a sluice. -/
def sreq (sl : Sluice) (r : Option FRec) (who : Agent) : SReq := ⟨sl, 0, 0, 0, 0, some 0, 0, none, r, 0x40, who, 0, false⟩
/-- A decision with its operands. -/
def decided (q : SReq) (k : BitVec 4) (a b : Word) (i : BitVec 14) : Decided := ⟨q, k, a, b, i, false, false, false, false⟩
/-- A device that has decided so in partition 0. -/
def withDecision (d : Decided) (s : State) : State := s.onPart 0 fun q => { q with decided := some d, inFlight := true }
/-- A record of a kind. -/
def rec0 (k : FKind) (pc va : Word) (m : Word) : FRec := { FRec.zero with kind := k, pc := pc, vaddr := va, mask := m }

theorem witness_decisions_checked :
    let d := decided (sreq .dispatch none .env) 1 8 1 0
    let s := withDecision d State.reset
    (s.part 0).decided = some d ∧ d.kind.toNat ≤ 11 ∧ s.decisionOk 0 d = false ∧ d.logged = false
    ∧ (let u := after .decisionPlace s
       ((u.part 0).decided.map fun e => (e.fb, e.rej)) = some (true, true)) := by
  decide +kernel

theorem witness_decides_place :
    let t := task5 rTask .ready
    let d := decided (sreq .dispatch none .env) 1 2 1 0
    let s := withDecision d (tasked t fun q => { q with queues := q.queues.setIfInBounds 2 [5] })
    decides s 0 d 0 ∧ d.kind = 1 ∧ d.req.sl = .dispatch ∧ (s.part 0).head 2 = some t ∧ aget (s.part 0).tasks 5 = some t ∧ recKind t.record = 1
    ∧ d.opb = BitVec.ofNat 64 (2 ^ 0) := by
  unfold decides
  refine ⟨⟨by decide +kernel, by decide, by decide +kernel, by decide +kernel, ?_, by decide, by decide +kernel, by decide +kernel, fun r h => nomatch h⟩,
    by decide +kernel⟩
  intro y h
  cases h
  rfl

theorem witness_decides_steal_and_preempt :
    let t := { task5 rTask .placed with placed := 1, record := BitVec.ofNat 512 (rTask + 1 <<< 191) }
    let d := decided (sreq .steal none .env) 2 0 0x8000000000000000 0
    let e := decided (sreq .preempt none .env) 3 0 0 15
    let s := withDecision d ((tasked t id).onCore 0 fun k => { k with list := [listed] })
    let r := withDecision e (tasked t id)
    (s.part 0).decided = some d ∧ s.decisionOk 0 d = true ∧ (s.core 0).newest = some listed ∧ listed.cores = [0]
    ∧ (r.part 0).decided = some e ∧ r.decisionOk 0 e = true ∧ e.req.ctx = some 0
    ∧ (∀ y < 16, ((aget (r.ctx y).images (logical (r.ctx y).cores 0)).bind fun m => m.unit).isNone = true) := by
  decide +kernel

/-- A band of context 0 that a fault has halted at its pc. -/
def halted3 : Band := { band1 [(5, 1)] [] with st := .halted, halt := .fault, faultPc := 0x1000000002000, faultMask := 1 }

theorem witness_decides_band :
    let r := rec0 .intDivZero 0x1000000002000 0 1
    let k := decided (sreq .fault (some r) (.band 0 3)) 0 0 0 0
    let x := decided (sreq .fault (some r) (.band 0 3)) 4 0 1 0
    let s := withDecision k (bandAt halted3 id)
    let t := withDecision x (bandAt halted3 id)
    decides s 0 k 0 ∧ s.band 0 3 = some halted3 ∧ halted3.inv = none ∧ halted3.slot = 0 ∧ halted3.pc = r.pc ∧ t.decisionOk 0 x = true ∧ halted3.unfinished = none
    ∧ halted3.wait = .none ∧ halted3.st = .halted
    ∧ (let u := after .decisionKillstrand t
       ((u.band 0 3).map fun b => (b.live, b.dead)) = some (0xFFFFFFFFFFFFFFFE, 1)) := by
  unfold decides
  refine ⟨⟨by decide +kernel, by decide, by decide +kernel, by decide +kernel, ?_, by decide, by decide +kernel, by decide +kernel, ?_⟩, by decide +kernel⟩
  · intro y h
    cases h
    rfl
  · intro y h
    cases h
    decide

theorem witness_decides_sequencer :
    let r := rec0 .seqAddr 0x1000000001000 0 1
    let f : SeqFault := ⟨.seqAddr, 0x1000000001000, 0x40, false⟩
    let k := decided (sreq .fault (some r) (.seq 0)) 0 0 0 0
    let s := withDecision k (seqAt fun k => { k with seq := { k.seq with phase := .faulted, fault := some f, tvec := 0x1000000001800 } })
    (s.part 0).decided = some k ∧ s.decisionOk 0 k = true ∧ (s.core 0).seq.fault = some f ∧ (s.core 0).runs 0 = true
    ∧ (s.core 0).seq.phase = .faulted ∧ (s.core 0).seq.tvec ≠ 0 ∧ f.erec = k.req.recAddr ∧ k.req.handler = false
    ∧ (let u := after .decisionKeep s
       (u.core 0).seq.pc = 0x1000000001800 ∧ (u.core 0).seq.handler = true) := by
  decide +kernel

theorem witness_decides_invocation :
    let r := rec0 .intDivZero 0x1000000002000 0 1
    let k := decided (sreq .fault (some r) (.band 0 3)) 5 0 0 0
    let b := { halted3 with of := .gang 4 0 }
    let s := withDecision k (bandAt b fun k => { k with invs := [invUp eBind2] })
    (s.part 0).decided = some k ∧ s.decisionOk 0 k = true ∧ s.recordInv (.band 0 3) = some (0, invUp eBind2) ∧ s.agentStands 0 k.req = true ∧ (s.core 0).inv 4 = some (invUp eBind2) := by
  decide +kernel

theorem witness_decides_context :
    let r := rec0 .pageUnmapped 0x1000000002000 0x1000000000000 1
    let park := decided (sreq .fault (some r) (.band 0 3)) 6 0 0 0
    let rep := decided (sreq .fault (some r) (.band 0 3)) 9 0 0 0
    let esc := decided (sreq .fault (some r) (.band 0 3)) 10 0 0 0
    let s := State.reset.placeCode []
    (withDecision park s).decisionOk 0 park = true ∧ (withDecision rep s).decisionOk 0 rep = true ∧ (withDecision esc s).decisionOk 0 esc = true
    ∧ (s.ctx 0).st = .running ∧ (s.ctx 0).st ∉ [CState.empty, .retired, .failed] := by
  decide +kernel

theorem witness_decides_park :
    let r := rec0 .pageUnmapped 0 0x1000000000000 0
    let d := decided (sreq .fault (some r) (.array 0)) 6 0 0 0
    let s := withDecision d (seqAt fun k => { k with arr := { k.arr with fault := some .operand, stream := some ⟨1, 5, true, codeTlr⟩ } })
    s.decisionOk 0 d = true ∧ d.req.who = .array 0 ∧ (s.core 0).runs 0 = true ∧ (s.core 0).arr.fault = some .operand
    ∧ (let u := after .decisionPark s
       (u.core 0).arr.fault = none ∧ (u.core 0).arr.stream = none) := by
  decide +kernel

theorem page_of {o : Option (BitVec 512 × Nat × Nat × Option (Nat × Nat × Word))} {a : BitVec 512} {b c : Nat} {d : Option (Nat × Nat × Word)}
    (h : (o.map fun z => (z.1, z.2.1, z.2.2.1)) = some (a, b, c) ∧ (o.map fun z => z.2.2.2) = some d) : o = some (a, b, c, d) := by
  obtain _ | ⟨x, y, z, w⟩ := o <;> simp_all

theorem witness_decides_map :
    let r := rec0 .pageUnmapped 0x1000000002000 0x1000000000FFF 1
    let d := decided (sreq .fault (some r) (.band 0 3)) 7 7 0xFFF 0
    let s := tensored 0 (bandAt { halted3 with st := .parked, halt := .none } id)
    s.recordPage 0 r = some (codeTlr, 1, 0, some (0, 0x20000, 0)) ∧ (s.part 0).framesIn 0 0xFFF 1 = true ∧ (withDecision d s).decisionOk 0 d = true
    ∧ (∀ c < 64, (s.core c).tlb = []) ∧ d.opb ≠ 0 ∧ leafV 0 = false ∧ leafVst 0 = 0 :=
  ⟨page_of (by decide +kernel), by decide +kernel⟩

theorem witness_decides_migrate_and_remap :
    let r := rec0 .pageUnmapped 0x1000000002000 0x1000000000FFF 1
    let d := decided (sreq .fault (some r) (.band 0 3)) 8 0 0x40 0
    let e := decided (sreq .fault (some r) (.band 0 3)) 11 0 0x40 0
    let m := tensored eRW State.reset
    let p := tensored (2 <<< 40) State.reset
    m.recordPage 0 r = some (codeTlr, 1, 0, some (0, 0x20000, BitVec.ofNat 64 eRW))
    ∧ p.recordPage 0 r = some (codeTlr, 1, 0, some (0, 0x20000, BitVec.ofNat 64 (2 <<< 40)))
    ∧ (withDecision d m).decisionOk 0 d = true ∧ leafV (BitVec.ofNat 64 eRW) = true ∧ (withDecision e p).decisionOk 0 e = true
    ∧ leafVst (BitVec.ofNat 64 (2 <<< 40)) = 2 :=
  ⟨page_of (by decide +kernel), page_of (by decide +kernel), by decide +kernel⟩

theorem witness_logged_decision :
    let e : LogEntry := ⟨5, 1, bytesOfNat 16 (4 + 3 <<< 4 + 1 <<< 64), 0⟩
    let q := sreq .fault none .env
    let s := (State.reset.onPart 0 fun p => { p with sluices := [q] }).onCtx 0 fun k => { k with st := .recovering, replay := [e] }
    (s.part 0).next = some (0, q) ∧ s.nextRecord 0 = some e ∧ q.ctx = some 0 ∧ natOfBytes (e.payload.take 8) / 16 % 8 = 3
    ∧ (let d := sreq .dispatch none .env
       ((s.onPart 0 fun p => { p with sluices := [d] }).part 0).next = some (0, d)) := by
  decide +kernel

theorem witness_logged_placement :
    let e : LogEntry := ⟨5, 1, bytesOfNat 16 (1 + 2 <<< 48 + 1 <<< 64), 0⟩
    let t := task5 rTask .ready
    let q := { sreq .dispatch none .env with ctx := none }
    let s := (tasked t fun p => { p with queues := p.queues.setIfInBounds 2 [5], sluices := [q] }).onCtx 0 fun k => { k with st := .recovering, replay := [e] }
    (s.part 0).next = some (0, q) ∧ s.nextRecord 0 = some e ∧ (s.part 0).topQueue = some 2 ∧ (s.part 0).head 2 = some t ∧ t.slotOf 0 = 0
    ∧ natOfBytes (e.payload.take 8) / 16 % 8 = 0
    ∧ (((after .sluiceReplayDecision s).part 0).decided.map fun d => (d.kind, d.opa, d.opb, d.logged)) = some (1, 2, 1, true) := by
  decide +kernel

theorem witness_routines :
    let u : SeqUnit := ⟨0, 0, 7, some 5, 0, 0, false⟩
    let s := State.reset.onCore 0 fun k => { k with unit := some u, invs := [inv0 .queued eBind] }
    let p := State.reset.onCore 0 fun k => { k with unit := some u, invs := [{ inv0 .queued eBind with snapPending := true }] }
    (s.core 0).nextInv = some (inv0 .queued eBind) ∧ s.freezes 0 = [] ∧ ((s.core 0).pickSlots (bindVregs (inv0 .queued eBind).entry) 1).length = 1
    ∧ (s.core 0).inv 4 = some (inv0 .queued eBind) ∧ (p.core 0).inv 4 = some { inv0 .queued eBind with snapPending := true } := by
  decide +kernel

/-- A binding entry of a routine with one band that writes one tile. -/
def eOut : Nat := eBind + 1 <<< 108 + 2 <<< 112

theorem witness_routines_write :
    let i := { inv0 .queued eOut with tregs := [5], handles := [hTile] }
    let s := seqAt fun k => withT 5 hTile ⟨.alloc, 0, 0⟩ { k with invs := [i] }
    (s.core 0).nextInv = some i ∧ i.parent = none ∧ bindTiles i.entry = 1 ∧ i.tregs[0]? = some 5 ∧ bindDir i.entry 0 = 2
    ∧ (let u := after .gangForm s
       ((u.core 0).entry 5).st = .writing ∧ ((u.core 0).bands.map fun b => b.2.st) = [.loading]) := by
  decide +kernel

theorem witness_routines_end :
    let d := { band1 [] [] with of := .gang 4 0, st := .done }
    let s := bandAt d fun k => { k with invs := [invUp eBind] }
    let r := bandAt { d with st := .ready } fun k => { k with invs := [invUp eBind] }
    (s.core 0).inv 4 = some (invUp eBind) ∧ (s.core 0).invOver (invUp eBind) = true ∧ (r.core 0).invOver (invUp eBind) = false
    ∧ s.band 0 3 = some d ∧ d.st = .done ∧ d.acc = [] ∧ d.staging = [] ∧ ((s.core 0).bands.map fun e => e.1).Nodup := by
  decide +kernel

/-! ### Witnesses: copies -/

/-- The handle of `hTile` for format 3. -/
def hCode : Word := 0x1F180030
/-- A copy of 32 elements of tensor 1 at the head of channel 3 of core 0, that holds entry 5. -/
def copy5 (op : CopyOp) (st : CopySt) : CopyCmd :=
  { CopyCmd.start0 7 op (.seq 0) none 0 0 with treg := some 5, handle := hCode, desc := BitVec.ofNat 256 dCopy, st := st, tlr := codeTlr }
/-- Such a command in a core. -/
def copying (m : CopyCmd) (k : Core) : Core := { withT 5 hCode ⟨.filling, 0, 0⟩ k with chans := k.chans.setIfInBounds 3 [m] }
/-- The device in which core 0 copies, tensor 1's page with a leaf entry, and a request that names the channel. -/
def copyAt (m : CopyCmd) (e : Nat) : State :=
  { tensored e (seqAt fun k => withTlb (copying m k)) with req := { Request.zero with n := 3 } }

theorem witness_copy_start :
    let s := copyAt (copy5 .cin .queued) eRW
    let bad : BitVec 256 := BitVec.ofNat 256 (dCopy + 4096)
    s.req.core = 0 ∧ s.req.n = 3 ∧ (s.core 0).chan 3 = [copy5 .cin .queued] ∧ s.seqHeld 0 = false
    ∧ ((s.tlr (some 0) 0 (cdTensor (copy5 .cin .queued).desc)).toOption) = some codeTlr ∧ (copy5 .cin .queued).cv = false
    ∧ tlrFmt codeTlr = hFmt hCode ∧ cdInside codeTlr (copy5 .cin .queued).desc = true ∧ tlrSp codeTlr = (copy5 .cin .queued).sp
    ∧ tlrFmt codeTlr ≠ hFmt hTile ∧ cdInside codeTlr bad = false ∧ tlrSp codeTlr ≠ true
    ∧ (s.tlr (some 0) 0 0).toOption = none ∧ ((s.checkTensor (some 0) 0 0x1000000000E00 512).toOption) = some codeTlr
    ∧ (s.checkTensor (some 0) 0 0x1000000000E01 512).toOption = none
    ∧ s.cmdHeld 0 3 (copy5 .cin .queued) = false ∧ s.copyAfterLoads (copy5 .cin .queued) = false
    ∧ s.metaBad [] [] (s.metaScan 0 { copy5 .cin .queued with tlr := codeTlr, mtlr := 0 }).1 = false
    ∧ ((after .copyCommandStart s).core 0).chan 3 = [{ copy5 .cin .queued with st := .moving }] := by
  decide +kernel

/-- A TLR of 4,096 metadata nibbles in the page of frame 0x30. -/
def metaTlr : BitVec 512 := BitVec.ofNat 512 (0xFFFFFFFF + 1 <<< 58 + 1 <<< 63 + 0x20 <<< 64 + 4096 <<< 128 + 1 <<< 288)
/-- Tensor 1 stored sparse, with its metadata in tensor 2. -/
def sparseAt (m : CopyCmd) : State :=
  let s := (copyAt m eRW).homeWrite 0 0x10040 (bytesOfNat 64 (codeTlr.toNat + 1 <<< 52))
  s.homeWrite 0 0x10080 (bytesOfNat 64 metaTlr.toNat)

theorem witness_copy_sparse :
    let m := { copy5 .cin .queued with sp := true }
    let r : BitVec 512 := codeTlr ||| 1#512 <<< 52
    let s := sparseAt m
    ((s.tlr (some 0) 0 1).toOption) = some r ∧ tlrSp r = true ∧ cdInside r m.desc = true ∧ ((s.tlr (some 0) 0 2).toOption) = some metaTlr
    ∧ tlrFmt metaTlr = 1 ∧ s.metaBad [] [] (s.metaScan 0 { m with tlr := r, mtlr := metaTlr }).1 = true
    ∧ ((after .copyCommandStart s).core 0).chan 3 = [] := by
  decide +kernel

/-- The same with its last element still to move. -/
def last5 (op : CopyOp) : CopyCmd := { copy5 op .moving with start := 31 }

theorem witness_copy_complete :
    let s := copyAt (last5 .cin) eRW
    (last5 .cin).start + 1 = (last5 .cin).count ∧ fmtWidth (hFmt hCode) = (last5 .cin).width ∧ (last5 .cin).width ≠ 4
    ∧ ((last5 .cin).parts 31) = [(codeTlr, 0x100000000001F, 1, 0)]
    ∧ s.translate (some 0) 0 codeTlr 0x100000000001F 1 .read = .ok (.home 0 0x3001F)
    ∧ s.translate (some 0) 0 codeTlr 0x100000000001F 1 .write = .ok (.home 0 0x3001F)
    ∧ (s.core 0).tlb.find? (fun e => e.ctx = 0 && e.tensor = 1 && e.page = 0) = some tlb1 ∧ tlb1.dSet = true ∧ (s.home 0).wf = true
    ∧ (s.core 0).tile.wf = true ∧ (((after .copyCommandComplete s).core 0).entry 5).st = .ready := by
  decide +kernel

/-- A transfer of a tile to entry 9 of core 63. -/
def transfer (st : CopySt) : CopyCmd := { copy5 .cxc st with dest := 0x93F, base := hCode }
/-- The device that transfers between cores 0 and 63. -/
def transferAt (st : CopySt) (t : TState) (h : Word) : State :=
  ((copyAt (transfer st) eRW).onCtx 0 fun k => { k with cores := 0x8000000000000001 }).onCore 63 fun k => withT 9 h ⟨t, 0, 0⟩ { k with
    unit := some ⟨0, 0, 1, none, 63, 0, false⟩, seq := { k.seq with phase := .run } }

theorem witness_copy_ends :
    let s := transferAt .waitDest .alloc hCode
    let m := transferAt .waitDest .alloc hTile
    let r := { copyAt { copy5 .cin .moving with remote := [4] } eRW with remote := [(4, ⟨4, .copy 0 3 7, false, 0, 0, true, 0, 8, .refused .keyRevoked, 1, 1⟩)] }
    let p := copyAt (copy5 .cin .moving) 0
    (s.ctx 0).cores.getLsbD 63 = true ∧ (s.core 63).runs 0 = true ∧ ((s.core 63).entry 9).st = .alloc ∧ (s.core 63).ranges.length < 32
    ∧ s.handleOf 63 9 = hCode ∧ m.handleOf 63 9 = hTile ∧ hFmt hTile ≠ hFmt hCode ∧ ((copyAt (transfer .waitDest) eRW).core 63).runs 0 = false
    ∧ ((transferAt .waitDest .free hCode).core 63).runs 0 = true ∧ (((transferAt .waitDest .free hCode).core 63).entry 9).st ≠ .alloc
    ∧ r.someRefused [4] = some .keyRevoked ∧ (copy5 .cin .moving).start < (copy5 .cin .moving).count ∧ (copy5 .cin .queued).st ≠ .moving
    ∧ (p.onCore 0 fun k => { k with tlb := [] }).translate (some 0) 0 codeTlr 0x1000000000000 1 .read ≠ .ok (.home 0 0x30000)
    ∧ ((after .cpyxcTransferBegin s).core 63).ranges = [⟨hBase hCode, hEnd hCode, .arrive 0 7⟩] := by
  decide +kernel

theorem witness_copy_poisoned :
    let s := { tensored (2 <<< 40) (seqAt fun k => copying (copy5 .cin .moving) k) with req := { Request.zero with n := 3 } }
    s.translate (some 0) 0 codeTlr 0x1000000000000 1 .read = .poison (BitVec.ofNat 64 (2 <<< 40))
    ∧ ((copy5 .cin .moving).parts 0) = [(codeTlr, 0x1000000000000, 1, 0)] := by
  decide +kernel

theorem witness_copy_transfer_and_marker :
    let g := transferAt .moving .filling hCode
    let s := g.onCore 63 fun k => { k with ranges := [⟨hBase hCode, hEnd hCode, .arrive 0 (transfer .moving).id⟩] }
    let k := { copy5 .marker .queued with treg := none }
    let b := { band1 [] [] with wait := .marker 7, st := .waiting }
    let m := { copyAt k eRW with cores := ((copyAt k eRW).onCore 0 fun q => { q with bands := [(3, b)] }).cores }
    (transfer .moving).op = .cxc ∧ (transfer .moving).st = .moving ∧ hFmt hCode = hFmt hCode ∧ fmtWidth (hFmt hCode) ≠ 0 ∧ (s.core 63).tile.wf = true
    ∧ (g.core 63).ranges = [] ∧ ((s.core 63).ranges.any fun r => r.owner = .arrive 0 (transfer .moving).id) = true
    ∧ (((after .copyCommandComplete s).core 63).entry 9).st = .ready ∧ (((after .copyCommandComplete g).core 63).entry 9).st = .filling
    ∧ k.op = .marker ∧ m.band 0 3 = some b ∧ b.wait = .marker k.id ∧ (∀ q < 4, q ≠ 3 → (m.core 0).chan q = [])
    ∧ (((after .drainMarkerComplete m).band 0 3).map fun b => b.wait) = some .none := by
  decide +kernel

/-! ### Witnesses: the array and the epilogue -/

/-- An array-queue entry. -/
def arrCmd (n : Nat) (op : ArrOp) : ArrCmd :=
  { num := n, op := op, treg := 5, handle := hTile, scales := [], ns := true, word := 0, ten := false, acc := true, z := true, desc := 0, pair := 0, fence := 0,
    started := false, entered := false }
/-- A latch of I8 weights, one of them 1. -/
def latch1 : Latch := ⟨true, false, 2, [(0, 1)], []⟩
/-- The device whose core 0 has an array in some state. -/
def arrayAt (f : ArrayS → ArrayS) : State := seqAt fun k => withT 5 hTile ⟨.ready, 0, 1⟩ { k with arr := f k.arr }

theorem witness_array_weights :
    let q := arrCmd 1 .ldw
    let s := arrayAt fun a => { a with queue := [q] }
    let w := arrayAt fun a => { a with queue := [{ q with started := true }], shadowSt := .filling }
    let x := arrayAt fun a => { a with queue := [arrCmd 2 .swap], shadowSt := .full, shadow := latch1 }
    (s.core 0).arr.queue = [] ++ q :: [] ∧ (s.core 0).arr.fault = none ∧ (s.core 0).arr.disabled.length ≤ 8 ∧ free1st [] .ldw [.swap] ∧ q.started = false
    ∧ s.seqHeld 0 = false ∧ (w.core 0).arr.shadowSt = .filling ∧ (w.core 0).held (hBase hTile) (hEnd hTile) = false
    ∧ (x.core 0).arr.queue = [] ++ arrCmd 2 .swap :: [] ∧ (x.core 0).arr.shadowSt = .full
    ∧ free1st [{ arrCmd 1 .mul with entered := true }] .mul [.swap] ∧ ¬ free1st [arrCmd 1 .fence] .ldw []
    ∧ ((after .weightLoadComplete w).core 0).arr.shadowSt = .full ∧ ((after .mxswapPerform x).core 0).arr.live = latch1 := by
  unfold free1st
  decide +kernel

theorem witness_array_rows :
    let q := arrCmd 1 .mul
    let s := arrayAt fun a => { a with queue := [q], live := latch1 }
    let l := arrayAt fun a => { a with queue := [q], live := latch1, stream := some ⟨1, 63, false, 0⟩ }
    (s.core 0).arr.queue = [] ++ q :: [] ∧ (s.core 0).resultsHeld = false ∧ q.ten = false ∧ (s.core 0).held (hBase hTile) (hEnd hTile) = false ∧ free1st [] .mul [.swap]
    ∧ (s.core 0).arr.stream = none ∧ (s.core 0).arr.live.valid = true ∧ s.seqHeld 0 = false ∧ q.acc = true ∧ (s.core 0).arr.entering = []
    ∧ (l.core 0).arr.stream = some ⟨1, 63, false, 0⟩
    ∧ ((after .streamLastRow l).core 0).arr.stream = none ∧ (((after .streamEnter s).core 0).arr.pipe.map fun r => (r.num, r.row)) = [(1, 0)] := by
  unfold free1st
  decide +kernel

theorem witness_array_operand_fault :
    let q := { arrCmd 1 .mul with ten := true, desc := BitVec.ofNat 256 dCopy }
    let s := tensored 0 (arrayAt fun a => { a with queue := [q], live := latch1, stream := some ⟨1, 5, false, codeTlr⟩ })
    (s.core 0).arr.stream = some ⟨1, 5, false, codeTlr⟩
    ∧ s.rowFault 0 1 (s.rowScan 0 0 codeTlr q.desc 0 256) = some (.pageUnmapped, 0x1000000000000, 0)
    ∧ (s.core 0).unit = some ⟨0, 0, 1, none, 0, 0, false⟩
    ∧ ((after .streamOperandFault (arrayAt fun a => { a with queue := [q], live := latch1, stream := some ⟨1, 5, false, codeTlr⟩ })).core 0).arr.queue = [q] := by
  decide +kernel

/-- A row of 256 ones on its way. -/
def row1 (d : RowDst) (l : Bool) : RowRes := ⟨1, 0, d, false, List.replicate 256 0x3F800000, l, false⟩

theorem witness_array_leaves :
    let b := { band1 [] [] with of := .gang 4 0 }
    let s := arrayAt fun a => { a with pipe := [row1 (.fin 1) false] }
    let t := (arrayAt fun a => { a with pipe := [row1 (.queues 4 [0]) false] }).onCore 0 fun k => { k with bands := [(3, b)] }
    let u := arrayAt fun a => { a with pipe := [row1 (.bank 1 7 true) true] }
    (s.core 0).arr.pipe = [] ++ row1 (.fin 1) false :: [] ∧ (∀ i rs, (row1 (.fin 1) false).dst ≠ .queues i rs) ∧ [0][0 % 1]? = some 0 ∧ (t.core 0).gangBand 4 0 = some (3, b)
    ∧ t.band 0 3 = some b ∧ b.resultQ.length ≤ 6 ∧ (t.core 0).arr.pipe = [] ++ row1 (.queues 4 [0]) false :: []
    ∧ (u.core 0).arr.pipe = [] ++ row1 (.bank 1 7 true) true :: [] ∧ ((u.core 0).arr.bank 1).wf = true
    ∧ (((after .streamRowResult t).band 0 3).map fun b => b.resultQ.length) = some 2 := by
  exact ⟨by decide +kernel, fun i rs => by unfold row1; exact RowDst.noConfusion, by decide +kernel⟩

theorem witness_array_joint :
    let b := { band1 [] [] with of := .gang 4 0, mmjQ := List.replicate 32 (List.replicate 64 0) }
    let j : Joint := ⟨4, 2, 1, [(0, 0, none)]⟩
    let s := (arrayAt fun a => { a with joint := some j, live := latch1 }).onCore 0 fun k => { k with bands := [(3, b)], invs := [invUp eBind] }
    (s.core 0).arr.joint = some j ∧ (s.core 0).gangBand 4 0 = some (3, b) ∧ (64 / 2 + 1 - 1 - 0) / 1 ≤ b.mmjQ.length ∧ s.band 0 3 = some b
    ∧ s.cycle % 64 = 0 ∧ (s.core 0).arr.stream = none ∧ (s.core 0).arr.streamReady = none ∧ (s.core 0).arr.live.valid = true
    ∧ mxClass (s.core 0).arr.live.fmt = mxClass 2 ∧ mxClass 2 ≠ 4 ∧ ((List.range 6).filter fun r => j.desc.getLsbD r) = [0]
    ∧ (s.core 0).arr.entering = [] ∧ (s.core 0).resultsHeld = false
    ∧ (let u := after .jointOpEnter s
       (u.core 0).arr.pipe.length = 1 ∧ (u.core 0).arr.entering.length = 63) := by
  decide +kernel

theorem witness_array_joint_goes_on :
    let b := { band1 [] [] with of := .gang 4 0, mmjQ := [List.replicate 64 0] }
    let full := { b with resultQ := List.replicate 8 (List.replicate 64 0) }
    let r := row1 (.queues 4 [0]) false
    let f := fun (b : Band) => (arrayAt fun a => { a with entering := [(r, some (4, 0))], pipe := [{ r with left := true }] }).onCore 0 fun k => { k with bands := [(3, b)] }
    ((f b).core 0).arr.entering = (r, some (4, 0)) :: [] ∧ ((f b).core 0).resultsHeld = false ∧ ((f b).core 0).arr.fault = none
    ∧ ((f b).core 0).gangBand 4 0 = some (3, b) ∧ (f b).band 0 3 = some b
    ∧ (((after .jointOpEnter (f b)).band 0 3).map fun b => b.mmjQ) = some []
    ∧ (((arrayAt fun a => { a with pipe := [r] }).onCore 0 fun k => { k with bands := [(3, full)] }).core 0).resultsHeld = true := by
  decide +kernel

theorem witness_array_uncorrectable :
    let s := { arrayAt fun a => { a with disabled := [0, 1, 2, 3, 4, 5, 6, 7] } with req := { Request.zero with n := 264 } }
    (s.core 0).arr.disabled.length = 8 ∧ 0 < s.req.n ∧ s.req.n ≤ 264 ∧ s.req.n - 1 ∉ (s.core 0).arr.disabled
    ∧ 8 < ((arrayAt fun a => { a with disabled := [0, 1, 2, 3, 4, 5, 6, 7, 8] }).core 0).arr.disabled.length
    ∧ (after .ueArray s).health.getLsbD 64 = true := by
  decide +kernel

/-- An epilogue entry that writes entry 5 from bank 0. -/
def epi1 : EpiCmd :=
  { num := 1, isFence := false, treg := 5, handle := 0x03300030, addr := 0, block := BitVec.ofNat 512 (6 + 1 <<< 22), biasReg := 0, biasHandle := 0, scales := [], lut := [],
    pair := 1, fence := 0, started := true, nextRow := 0, stat := 0 }

theorem witness_epilogue :
    let s := arrayAt fun a => { a with epi := [epi1] }
    let q := arrayAt fun a => { a with epi := [{ epi1 with block := 6 }], pipe := [row1 (.fin 1) true] }
    let r := arrayAt fun a => { a with epi := [{ epi1 with nextRow := 64, stat := 3 }] }
    (s.core 0).arr.epi = [epi1] ∧ epi1.isFence = false ∧ s.seqHeld 0 = false ∧ (s.core 0).held (hBase epi1.handle) (hEnd epi1.handle) = false
    ∧ epi1.block.getLsbD 34 = false ∧ epi1.block.toNat / 2 ^ 22 % 2 ^ 2 = 1 ∧ fmtWidth (hFmt epi1.handle) ∈ [4, 8, 16, 32]
    ∧ Fmt.ofCode (epi1.block.toNat % 2 ^ 5) ≠ none ∧ (q.core 0).arr.pipe = [] ++ row1 (.fin 1) true :: [] ∧ (row1 (.fin 1) true).row = epi1.nextRow
    ∧ 64 ≤ ({ epi1 with nextRow := 64, stat := 3 } : EpiCmd).nextRow ∧ (r.core 0).scalar.wf = true
    ∧ (((after .epiRetire r).core 0).entry 5).st = .ready ∧ ((after .epiRowWrite s).core 0).arr.epi = [{ epi1 with nextRow := 1 }] := by
  decide +kernel

/-! ### Witnesses: pennants, barriers, late answers -/

/-- A band that waits for operation 9 on pennant 65535. -/
def waiter : Band := { band1 [] [] with st := .waiting, wait := .pennant 9 }
/-- The operation. -/
def penOp (acq ge : Bool) (target : BitVec 30) : PenOp := ⟨9, .band 0 3, acq, ge, 0, 0x50000 + 8 * 65535, none, target, 1, 0xFFFFFFFF, 4, 127, [], [], false, none, none⟩
/-- The device in which it is to be performed on a word. -/
def penAt (o : PenOp) (w : Nat) : State := { penned w (bandAt waiter id) with pens := [o], req := { Request.zero with n := 9 } }

theorem witness_pennants :
    let a := penOp true true 1
    let s := penAt a (1 <<< 63)
    (s.pens.find? fun p => p.id = s.req.n) = some a ∧ s.penLives a = true ∧ a.pkt = none ∧ a.waiting = false ∧ s.penReady a = true ∧ s.homeNat 0 a.addr 8 = 1 <<< 63
    ∧ (¬ reached 0x8000000000000000 1 ∧ reached 0x8000000100000000 1) ∧ (s.pens.filter fun p => p.waiting && s.penLives p && p.home = 0).length < 512
    ∧ s.band 0 3 = some waiter ∧ (∀ c < 64, (s.core c).rq = [] ∧ ∀ l ∈ (s.core c).lq.toList, l = [])
    ∧ (penAt a 0).homeNat 0 a.addr 8 = 0 ∧ ({ penAt a 0 with pens := [{ penOp false false 0 with accs := [5] }] } : State).pens.length = 1
    ∧ ((after .pennantOperationPerform s).pens.map fun o => o.waiting) = [true]
    ∧ (((after .pennantOperationPerform (penAt (penOp false false 0) (1 <<< 63 + 1))).homeNat 0 a.addr 8) = 1 <<< 63 + 1 <<< 32) := by
  unfold reached
  decide +kernel

theorem witness_pennant_forward :
    let o := { penOp true false 0 with forward := some 0xC000000000000000, remote := some 4 }
    let s := { penAt o 0 with remote := [(4, ⟨4, .pennant 9, false, 0, 0, true, 0, 8, .answered (bytesOfNat 8 5), 1, 1⟩)] }
    (s.pens.find? fun p => p.id = s.req.n) = some o ∧ o.remote = some 4 ∧ s.reqStat 4 = .answered (bytesOfNat 8 5) ∧ s.penReady o = true
    ∧ (s.band 0 3).isSome = true ∧ s.penReady { penOp false false 0 with accs := [5] } = true
    ∧ (bandAt { waiter with acc := [access1 .store] } id).penReady { penOp false false 0 with accs := [9] } = false := by
  decide +kernel

theorem witness_pennants_withdrawn :
    let a := penOp true true 1
    let gone := { penAt a 0 with cores := (bandAt (band1 [] []) id).cores }
    let p := { Packet.zero with key := 1, roff := 65535, op := 5 }
    let keyed := fun (s : State) => (s.onCtx 0 fun k => { k with keys := 0x8000000000000040 }).homeWrite 0 0x44000 (bytesOfNat 32 1)
    let r := { a with who := .packet 5 1, pkt := some p }
    (penAt a 0).penLives a = true ∧ gone.penLives a = false ∧ (gone.pens.find? fun q => q.id = gone.req.n) = some a
    ∧ (after .pennantOperationPerform gone).pens = [] ∧ ((keyed (penAt r 0)).pens.find? fun q => q.id = 9) = some r ∧ ((keyed (penAt r 0)).regionOf p).toOption.isSome = false
    ∧ ((after .pennantOperationPerform (keyed (penAt r 0))).sent.map fun a => (a.op, a.opx)) = [(0x08, 1)] := by
  decide +kernel

/-- The operands of a barrier of level 1 or 2 at root 15. -/
def ops (lvl : BitVec 2) (d : BitVec 4) : BarOps := ⟨63, 0, lvl, 15, d, 0, false⟩
/-- A message to a die root, with the root's state. -/
def barAt (o : BarOps) (x : BarNode) : State :=
  { State.reset with barMsgs := [⟨1, 31, ⟨0, o, 65⟩⟩], dieRoots := [(31, x)] }
/-- A root that collects for `o`. -/
def collecting (o : BarOps) (st : NState) : BarNode := { BarNode.idle with st := st, latched := some ⟨0, o, 64⟩, came := [64] }

theorem witness_barriers :
    let s := barAt (ops 1 1) BarNode.idle
    let t := barAt (ops 1 1) (collecting (ops 1 1) .collecting)
    let u := barAt (ops 2 0) (collecting (ops 2 0) .armed)
    let behind := { State.reset with barMsgs := [⟨1, 31, ⟨0, ops 1 1, 65⟩⟩, ⟨1, 31, ⟨0, ops 2 1, 65⟩⟩], barFlips := [⟨1, 0⟩, ⟨1, 0⟩], req := { Request.zero with n := 1 } }
    (s.barMsgs[0]?).isSome = true ∧ (∃ q ∈ behind.barMsgs.take 1, some q.from' = (behind.barMsgs[1]?).map fun m => m.from') ∧ s.barMsgs.take 0 = []
    ∧ behind.barFlips[1]? = some ⟨1, 0⟩ ∧ (⟨1, 0⟩ : BarFlip) ∈ behind.barFlips.take 1 ∧ (⟨1, 0⟩ : BarFlip) ∉ behind.barFlips.take 0 ∧ ((withoutMsg s 0).node 1 31).st = .idle ∧ ((withoutMsg t 0).node 1 31).st = .collecting
    ∧ ((withoutMsg t 0).node 1 31).came.length + 1 = (ops 1 1).dcnt.toNat + 1 ∧ ((withoutMsg u 0).node 1 31).st = .armed ∧ State.reset.barMsgs[0]? = none
    ∧ (ops 2 0).dcnt.toNat + 1 = 1 ∧ ((after .barrierArrival t).node 1 31).st = .flipping ∧ (after .barrierArrival t).barFlips = [⟨1, 31⟩]
    ∧ (after .barrierArrival (barAt (ops 2 0) BarNode.idle)).barMsgs.map (fun m => (m.level, m.node)) = [(2, 15)] := by
  decide +kernel

theorem witness_barrier_flips :
    let b := { band1 [] [] with st := .waiting, wait := .bar 63 }
    let s := { (bandAt b fun k => { k with leaves := [(63, { collecting (ops 0 0) .flipping with came := [3] })] }) with barFlips := [⟨0, 63⟩] }
    let r := { State.reset with barFlips := [⟨2, 15⟩], chipRoots := [(15, { collecting (ops 2 0) .flipping with came := [31] })], dieRoots := [(31, collecting (ops 2 0) .armed)] }
    s.barFlips[0]? = some ⟨0, 63⟩ ∧ (s.node 0 63).st = .flipping ∧ (s.node 0 63).held = [] ∧ (s.node 0 63).came.Nodup ∧ s.band 0 3 = some b
    ∧ (r.node 2 15).st = .flipping ∧ (r.node 2 15).held = [] ∧ ({ State.reset with barFlips := [⟨1, 0⟩] } : State).barFlips.length = 1
    ∧ (((after .barrierFlip s).band 0 3).map fun b => (b.pc, b.wait)) = some (0x1000000002008, .none)
    ∧ ((after .barrierFlip r).node 1 31).st = .flipping := by
  decide +kernel

theorem witness_late_answers :
    let b := { band1 [] [] with of := .gang 4 0, q := [(0, ⟨2, 0, 0, 0⟩), (15, ⟨3, 3, 0x1000000000000, 1⟩)], staging := [(0, [7])] }
    let d := { b with staging := [(15, [7])] }
    let p : Piece := ⟨63, 0, 4, .peer 1 1 0, 0x1000000000000, 0, 0, none, some 4, false, 0⟩
    let a := { access1 .load with pieces := [p] }
    let r := { band1 [] [] with acc := [a], st := .ready }
    let q : RReq := ⟨4, .band 0 3 9, false, 0, 0, true, 0, 4, .refused .keyRevoked, 1, 1⟩
    let s := { bandAt r id with remote := [(4, q)], req := { Request.zero with n := 3, m := 9 } }
    b.staging = [] ++ (0, [7]) :: [] ∧ aget b.q 0 = some ⟨2, 0, 0, 0⟩ ∧ b.mmjQ.length < 32 ∧ aget d.q 15 = some ⟨3, 3, 0x1000000000000, 1⟩
    ∧ ((bandAt d id).core 0).chan 3 = [] ∧ s.band 0 3 = some r ∧ r.inv = none ∧ r.parkRec = none ∧ (r.acc.find? fun a => a.id = s.req.m) = some a
    ∧ a.pieces = [p] ∧ s.reqStat 4 = .refused .keyRevoked
    ∧ (((after .refusalReport s).band 0 3).map fun b => (b.st, b.faultMask)) = some (.halted, 0x8000000000000000) := by
  decide +kernel

theorem witness_host_timeout :
    let q : RReq := ⟨4, .band 0 3 9, true, 0, 0, true, 0, 4, .waiting, 0, 0⟩
    let s := { State.reset with remote := [(4, q)], req := { Request.zero with n := 4 } }
    aget s.remote s.req.n = some q ∧ q.host = true ∧ q.stat = .waiting ∧ s.peers = [] ∧ (∀ c < 64, (s.core c).rq = []) ∧ q.who ≠ .none
    ∧ aget State.reset.remote 4 = none := by
  decide +kernel

/-! ### Witnesses: pages, replay, the module -/

/-- A page of tensor 1 that moves from frame 0x30 to frame 0x40. -/
def move1 (a : Bool) : Migration := ⟨9, 0, 1, 0, 0x20000, 0, BitVec.ofNat 64 eRW, 0, 0x40, a⟩
/-- The device in which it moves. -/
def movingPage (a : Bool) : State := { tensored (eRW - 1 <<< 63 + 1 <<< 40) State.reset with migs := [move1 a], req := { Request.zero with n := 9 } }

theorem witness_pages_move :
    ((movingPage true).migs.find? fun m => m.id = 9) = some (move1 true) ∧ (move1 true).acked = true ∧ (move1 false).acked = false
    ∧ ((movingPage true).tlr none 0 1).toOption = some codeTlr ∧ baseHome (move1 true).old ≤ 1 ∧ (movingPage true).peers = []
    ∧ (after .migrateCopyComplete (movingPage true)).homeNat 0 0x20000 8 = 1 <<< 63 + 7 <<< 45 + 0x40
    ∧ (after .migrateCopyFail (movingPage true)).health.getLsbD 70 = true := by
  decide +kernel

/-- Context 255 in recovery with a log. -/
def recovering (l : List LogEntry) : State :=
  { State.reset.onCtx 255 fun k => { k with st := .recovering, replay := l, launches := [(7, launch7 .running)] } with req := { Request.zero with part := 15, ctx := 15 } }

theorem witness_replay :
    let e : LogEntry := ⟨2, 1, bytesOfNat 8 0x1000000000000 ++ bytesOfNat 8 7, 0⟩
    let f : LogEntry := ⟨6, 2, [], 0⟩
    let s := (State.reset.placeCode []).onCtx 0 fun k => { k with st := .recovering, replay := [e, f] }
    ((recovering []).ctx 255).st = .recovering ∧ ((recovering []).ctx 255).replay = [] ∧ ((recovering []).ctx 255).active = true
    ∧ ((recovering [f, f]).ctx 255).replay = f :: f :: [] ∧ (s.ctx 0).replay = e :: f :: []
    ∧ (s.frontWrite 0 (BitVec.ofNat 64 (natOfBytes (e.payload.take 8))) (e.payload.drop 8)).toOption.isSome = true
    ∧ ((after .replayInputDeliver (recovering [])).ctx 255).st = .running ∧ (after .replayInputDeliver s).homeNat 0 0x30000 8 = 7 := by
  decide +kernel

theorem witness_module :
    let b := { band1 [] [] with st := .ready }
    let s := { bandAt b id with req := { Request.zero with n := 3, value := 0x8000000000000000 } }
    let q := seqAt id
    let p := { tensored eRW State.reset with req := { Request.zero with addr := 0x1000000000000 } }
    s.band 0 3 = some b ∧ b.unfinished = none ∧ BitVec.ofNat 64 s.req.value &&& ~~~b.dead &&& ~~~b.exited = 0x8000000000000000
    ∧ (q.core 0).seq.phase = .run ∧ (q.core 0).unit.isSome = true ∧ ((p.pageAt 0 0x1000000000000).toOption.map fun z => z.2.2) = some (0, 0, 0x20000, BitVec.ofNat 64 eRW)
    ∧ (after .ueStrand s).health.getLsbD 70 = true ∧ (after .uePageFrame p).homeNat 0 0x20000 8 = 7 <<< 45 + 2 <<< 40 + 0x30
    ∧ nextClock 0 36 45 24 = 24 ∧ nextClock 1 24 30 36 = 35 := by
  decide +kernel

/-! ### Witnesses: the link -/

/-- A packet of device 5 that is next in its order. -/
def packet5 (op : BitVec 8) (roff : Word) (len : Nat) (bs : List Byte) : Packet :=
  { Packet.zero with seq := 1, key := 1, op := op, roff := roff, len := len, src := 5, payload := bs }
/-- A region record of 64 bytes of tensor 1 for any device with every right, or for none. -/
def region5 (rights : Nat) : Nat := rRegion + 1 <<< 63 + 1 + 1 <<< 47 + rights <<< 41
/-- The device with that region and a packet that arrives. -/
def packetAt (p : Packet) (rights : Nat) : State :=
  { (((tensored eRW State.reset).onCtx 0 fun k => { k with keys := 0x8000000000000040 }).homeWrite 0 0x44000 (bytesOfNat 32 (region5 rights)))
    with req := { Request.zero with pkt := p } }

theorem witness_packets :
    let p := packet5 1 56 0 (bytesOfNat 8 7)
    let s := packetAt p 7
    (s.peer 5).expect = p.seq ∧ (s.peer 5).held = [] ∧ (s.regionAddr p 8 42).toOption = some 0x1000000000038
    ∧ (s.checkTensor none 0 0x1000000000038 8).toOption = some codeTlr ∧ s.translate none 0 codeTlr 0x1000000000038 8 .write = .ok (.home 0 0x30038)
    ∧ s.translate none 0 codeTlr 0x1000000000038 8 .atomic = .ok (.home 0 0x30038) ∧ s.translate none 0 codeTlr 0x1000000000038 8 .read = .ok (.home 0 0x30038)
    ∧ (s.ctx 0).st = .running ∧ (s.ctx 0).logging = false ∧ ((packetAt p 0).regionAddr p 8 42).toOption = none
    ∧ (after .packetWrite s).homeNat 0 0x30038 8 = 7 ∧ ((after .packetWrite s).peer 5).expect = 2
    ∧ ((after .packetWrite (packetAt p 0)).sent.map fun a => a.op) = [0x08, 0x07] := by
  decide +kernel

theorem witness_packet_reads_and_atomics :
    let p := packet5 2 0 63 []
    let a := { packet5 3 0 0 (bytesOfNat 8 5) with opx := 0 }
    ((packetAt p 7).regionAddr p 64 43).toOption = some 0x1000000000000
    ∧ ((after .packetRead (packetAt p 7)).peer 5).resps.length = 1 ∧ ((packetAt a 7).regionAddr a 4 41).toOption = some 0x1000000000000
    ∧ (after .packetAtomic (packetAt a 7)).homeNat 0 0x30000 4 = 5 ∧ (after .packetRed (packetAt { a with op := 4 } 7)).homeNat 0 0x30000 4 = 5 := by
  decide +kernel

theorem witness_packet_pennant :
    let p := packet5 5 65535 0 (bytesOfNat 8 1)
    let f := fun (w v : Nat) => { ((penned w State.reset).onCtx 0 fun k => { k with keys := 0x8000000000000040 }).homeWrite 0 0x44000
        (bytesOfNat 32 (2 <<< 36 + 1 <<< 63 + 1 + 1 <<< 47 + 1 <<< 41 + 1 <<< 128 + 65535 <<< 192)) with req := { Request.zero with pkt := packet5 5 65535 0 (bytesOfNat 8 v) } }
    let s := f (1 <<< 63) 1
    (s.regionOf p).toOption.isSome = true ∧ ((s.penHome 0 65535).toOption) = some (0, 0x50000 + 8 * 65535, none)
    ∧ (s.ctx 0).st ≠ .recovering ∧ (s.ctx 0).logging = false ∧ (∀ o ∈ s.pens, o.id < s.nextId ∧ o.waiting = false)
    ∧ (aget ((after .packetPennant s).peer 5).resps 1).map (fun y => y.payload) = some (bytesOfNat 8 (1 <<< 63)) ∧ (after .packetPennant s).pens = []
    ∧ (aget ((after .packetPennant (f 0 0)).peer 5).resps 1).map (fun y => y.payload) = some (bytesOfNat 8 0) ∧ (f 0 0).penHome 0 65535 = .error .pennantFree
    ∧ ((after .packetPennant (f (1 <<< 63) (3 + 1 <<< 32))).pens.map fun o => (o.addr, o.waiting)) = [(0x50000 + 8 * 65535, true)]
    ∧ (after .packetPennant (f (1 <<< 63) 0)).homeNat 0 (0x50000 + 8 * 65535) 8 = 1 <<< 63 + 1 <<< 32 := by
  decide +kernel

/-- A peer to which nothing has been sent. -/
def peer0 : Peer := ⟨1, 1, [], [], [], [], none⟩
/-- A request of ours that packet 1 of device 5's order carries, and the packet. -/
def ours (rd : Bool) : RReq := ⟨4, .band 0 3 9, false, 0, 0, rd, 0, 4, .waiting, 5, 1⟩
/-- The device that waits for device 5's answer. -/
def awaiting (p : Packet) (rd : Bool) : State :=
  { State.reset with remote := [(4, ours rd)], peers := [(5, { peer0 with unacked := [⟨packet5 1 0 0 [], none, some 4⟩] })], req := { Request.zero with pkt := p } }

theorem witness_packet_answers :
    let r := packet5 6 1 0 [7, 0, 0, 0]
    let n := { packet5 8 1 0 [] with opx := 1 }
    let k := packet5 7 1 0 []
    ((awaiting r true).remote.find? fun e => e.2.peer = 5 && e.2.seq = r.roff.toNat % 2 ^ 32 && e.2.isRead && e.2.stat = .waiting && !e.2.host) = some (4, ours true)
    ∧ ((awaiting r true).ctx 0).st ≠ .recovering ∧ (∀ e ∈ (awaiting r true).peers, e.2.held = []) ∧ k.dst < 4096 ∧ ((awaiting k false).peer 5).egress = []
    ∧ (after .packetResp (awaiting r true)).reqStat 4 = .answered [7, 0, 0, 0] ∧ (after .packetNack (awaiting n false)).reqStat 4 = .refused .keyRevoked
    ∧ (after .packetAck (awaiting k false)).reqStat 4 = .answered [] ∧ ((after .packetAck (awaiting k false)).peer 5).unacked = [] := by
  decide +kernel

theorem witness_duplicates :
    let p := { packet5 1 0 0 [] with seq := 0 }
    let f := { packet5 1 0 0 [] with seq := 4097 }
    2 ^ 31 ≤ (p.seq + 2 ^ 32 - ((packetAt p 7).peer 5).expect) % 2 ^ 32 ∧ aget ((packetAt p 7).peer 5).resps p.seq = none
    ∧ 4096 ≤ (f.seq + 2 ^ 32 - ((packetAt f 7).peer 5).expect) % 2 ^ 32 ∧ (after .packetWrite (packetAt p 7)).dupcnt = 1 := by
  decide +kernel

/-- A port in a state, with nothing to send. -/
def portIn (st : PortSt) (en : Bool) (width crc : Nat) : Port := { Port.reset with st := st, en := en, width := width, crcerr := crc }
/-- Port 15 in a state. -/
def ported (q : Port) (v : Nat) : State := { State.reset with ports := State.reset.ports.setIfInBounds 15 q, req := { Request.zero with n := 15, value := v } }

theorem witness_ports :
    let k : Unacked := ⟨packet5 1 0 0 [], some 15, some 4⟩
    let q0 := portIn .down true 0 0
    let s := { ported (portIn .up true 8 0) 0 with peers := [(5, { peer0 with unacked := [k] })], req := { Request.zero with n := 5, m := 1 } }
    ((ported (portIn .training true 0 0) 7).port 15).st = .training ∧ ((ported (portIn .up true 8 0) 0).port 15).st = .up ∧ (ported (portIn .up true 8 0) 0).unsent = []
    ∧ ((ported (portIn .replay true 8 0xFFFF) 0).port 15).replay = [] ∧ ((ported (portIn .recovering true 8 0) 8).port 15).st = .recovering
    ∧ ((after .linkFlitError { ported (portIn .up true 8 0xFFFF) 0 with req := { Request.zero with n := 15, m := 1 } }).port 15).crcerr = 0xFFFF
    ∧ ((after .lportDisable (ported { portIn .up true 8 0 with queue := [packet5 1 0 0 []] } 0)).port 15).st = .down
    ∧ (after .lportDisable (ported { portIn .up true 8 0 with queue := [packet5 1 0 0 []] } 0)).unsent.length = 1
    ∧ ((after .linkReplayComplete (ported { portIn .replay true 8 0 with replay := [⟨1, 0, []⟩] } 0)).port 15).st = .replay
    ∧ (after .lportReadClear (ported (portIn .up true 8 7) 0)).resp = ⟨.ok, bytesOfNat 8 (2 + 8 * 16 + 256 + 7 <<< 48)⟩
    ∧ ((s.peer 5).unacked.find? fun u => u.pkt.seq = 1) = some k ∧ s.upPort = some 15 ∧ State.reset.upPort = none
    ∧ ((State.reset.peer 5).unacked.find? fun u => u.pkt.seq = 1) = none ∧ (s.peers.map fun e => e.1).Pairwise (fun a b => a < b)
    ∧ (1000 + 4095 <<< 16 : Nat) / 2 ^ 16 % 2 ^ 12 = 4095 ∧ (after .e2eTimerExpiry s).sent = [k.pkt]
    ∧ ((after .linkTrainingEnd (ported (portIn .training true 0 0) 7)).port 15).width = 4 ∧ (s.peer 5).egress = []
    ∧ (after .lpresetWrite { ported q0 4096 with peers := s.peers }).resp.status = .linkParam ∧ (after .lpresetWrite { ported q0 0 with peers := s.peers }).resp.status = .linkParam
    ∧ (after .lpresetWrite { ported q0 5 with peers := s.peers }).peer 5 = ⟨1, 1, [], [], [], [], none⟩ ∧ (after .lpresetWrite { ported q0 5 with peers := s.peers }).resp.status = .ok := by
  decide +kernel

/-! ### Witnesses: messages and collectives -/

/-- An entry of a link send queue. -/
def lqCmd (op : LqOp) : LqCmd :=
  { id := 7, op := op, treg := 5, handle := hTile, dest := 5 + 63 <<< 12 + 15 <<< 18, key := 1, msg := 9, desc := 0, descAddr := 0xFFC0, opt := 0, fence := 0, ordinal := 0,
    started := false, done := false, failed := false, pulled := false, remote := [], got := [], stat := 0, rel := false, parked := false }
/-- The device whose core 0 has it in link queue 3. -/
def sending (m : LqCmd) : State :=
  { seqAt (fun k => withT 5 hTile ⟨.ready, 0, 1⟩ { k with lq := k.lq.setIfInBounds 3 [m] }) with req := { Request.zero with n := 3 } }

theorem witness_message_starts :
    let s := sending (lqCmd .tsend)
    (s.core 0).sendQ 3 = [] ++ lqCmd .tsend :: [] ∧ (lqCmd .tsend).started = false ∧ s.seqHeld 0 = false ∧ (s.ctx 0).st ≠ .recovering ∧ (s.ctx 0).record = false
    ∧ (s.peer 5).unacked = [] ∧ (s.peer 5).egress = [] ∧ (s.core 0).sendQ 0 = []
    ∧ ((after .linkSendEntryStart s).peer 5).unacked.map (fun k => (k.pkt.op, k.pkt.seq)) = [(0x10, 1)] := by
  decide +kernel

theorem witness_message_arrives :
    let p := { packet5 0x10 (BitVec.ofNat 64 (63 <<< 12 + 15 <<< 18)) 0 (bytesOfNat 8 (31 <<< 10 + 2 <<< 22 + 9 <<< 32)) with key := 0, src := 0, opx := 0 }
    let s := { (State.reset.onCtx 0 fun k => { k with cores := 0x8000000000000000 }).onCore 63 fun k => { k with unit := some ⟨0, 0, 1, none, 63, 0, false⟩, rq := [(15, ⟨.seq, none, [], [], [], false⟩)] }
      with req := { Request.zero with pkt := p } }
    p.src = s.devid ∧ (s.peer 0).expect = p.seq ∧ (s.peer 0).held = [] ∧ (s.ctx 0).cores.getLsbD 63 = true ∧ (s.core 63).runs 0 = true
    ∧ ((s.core 63).recvQ 15).owner = .seq ∧ ((s.core 63).recvQ 15).chan = none ∧ (∀ d < 64, ∀ l ∈ (s.core d).lq.toList, l = []) ∧ s.remote = []
    ∧ ((after .packetTnote s).core 63).recvQ 15 = ⟨.seq, some (0, 0), [⟨9, 1, 32, 2⟩], [], [], false⟩ := by
  decide +kernel

theorem witness_message_is_pulled :
    let m := { lqCmd .tsend with started := true }
    let p := { packet5 0x11 (BitVec.ofNat 64 (5 + 63 <<< 12 + 15 <<< 18 + 9 <<< 32)) 0 [] with key := 0 }
    let s := { sending m with req := { Request.zero with pkt := p } }
    p.roff.toNat / 2 ^ 24 % 64 = 0 ∧ (s.core 0).sendQ 3 = [m] ∧ (∀ r < 4, r ≠ 3 → (s.core 0).sendQ r = []) ∧ m.dest.toNat % 2 ^ 22 = p.roff.toNat % 2 ^ 22
    ∧ m.msg = p.roff.toNat / 2 ^ 32 % 2 ^ 24 ∧ (∀ d < 64, d ≠ 0 → ∀ l ∈ (s.core d).lq.toList, l = []) ∧ (∀ d < 64, (s.core d).rq = [])
    ∧ ((s.core 0).entry 5).st ≠ .free ∧ (s.peer 5).unacked = []
    ∧ hRows hTile * ((hCols hTile * fmtWidth (hFmt hTile) + 7) / 8) ≤ 256 ∧ 0 < fmtWidth (hFmt hTile) ∧ (∀ x < 256, (State.reset.ctx x).images = [])
    ∧ (State.reset.core 0).owner = none ∧ ((after .packetTpull s).core 0).sendQ 3 = [{ m with pulled := true, remote := [1] }]
    ∧ ((after .packetTpull s).peer 5).unacked.map (fun k => k.pkt.op) = [0x12] := by
  decide +kernel

theorem witness_message_lands :
    let g : Pull := ⟨9, 4, 5, hTile, 0, 32⟩
    let p := { packet5 0x12 9 0 (List.replicate 32 3) with key := 0, opx := 15 * 64 }
    let s := { seqAt (fun k => withT 5 hTile ⟨.filling, 0, 0⟩ { k with rq := [(15, ⟨.seq, some (5, 0), [], [g], [], false⟩)], ranges := [⟨0, 64, .recv 4⟩] })
      with req := { Request.zero with pkt := p } }
    ((s.core 0).recvQ 15).owner = .seq ∧ ((s.core 0).recvQ 15).pulls = [g] ∧ g.msg = p.roff.toNat % 2 ^ 24 ∧ g.size = p.payload.length
    ∧ (s.ctx 0).st ≠ .recovering ∧ (s.ctx 0).logging = false ∧ s.remote = [] ∧ fmtWidth (hFmt hTile) = 8 ∧ (s.core 0).tile.wf = true
    ∧ (((after .packetTdata s).core 0).entry 5).st = .ready ∧ (after .packetTdata s).tileElem ((after .packetTdata s).core 0) hTile 0 31 = 3 := by
  decide +kernel

/-- A TLR of one page of FP32 elements in frame 0x20's table. -/
def fp32Tlr : BitVec 512 := BitVec.ofNat 512 (0xFFFFFFFF + 10 <<< 58 + 1 <<< 63 + 0x20 <<< 64 + 1024 <<< 128 + 1 <<< 288)
/-- A collective's descriptor of two elements of tensor 1. -/
def dColl2 : BitVec 512 := BitVec.ofNat 512 (0x1000000000000 + 0x1000000000008 <<< 64 + 2 <<< 128 + 10 <<< 160)
/-- The device with a collective over it in link queue 3. -/
def collAt (f : LqCmd → LqCmd) : State :=
  { (tensored eRW (sending (f { lqCmd .coll with desc := dColl2, opt := 1 }))).homeWrite 0 0x10040 (bytesOfNat 64 fp32Tlr.toNat) with groups := [(0, group0)] }

theorem witness_collective_starts :
    let s := collAt id
    (s.core 0).sendQ 3 = [] ++ { lqCmd .coll with desc := dColl2, opt := 1 } :: [] ∧ (1 : BitVec 15).toNat % 4 = 1
    ∧ (s.peer (4096 + grpFg (s.group 0))).unacked.length + 2 ≤ 4096 ∧ s.collBuffer 0 0 0x1000000000000 10 2 = some fp32Tlr
    ∧ s.collBuffer 0 0 0x1000000000008 10 2 = some fp32Tlr ∧ s.translate (some 0) 0 fp32Tlr 0x1000000000000 8 .read = .ok (.home 0 0x30000)
    ∧ s.translate (some 0) 0 fp32Tlr 0x1000000000008 8 .write = .ok (.home 0 0x30008) ∧ s.seqHeld 0 = false
    ∧ ((after .linkSendEntryStart s).core 0).sendQ 3 = (s.core 0).sendQ 3
    ∧ ((after .collEntryStart s).peer (4096 + grpFg (s.group 0))).unacked.map (fun k => k.pkt.op) = [0x20, 0x20] := by
  decide +kernel

theorem witness_contributions :
    let p := { packet5 0x20 (BitVec.ofNat 64 (1 <<< 12)) 0 (bytesOfNat 8 (4095 <<< 23)) with dst := 8191, key := 0 }
    let s := { State.reset with req := { Request.zero with pkt := p } }
    (s.peer (8192 + (p.dst - 4096) * 4096 + p.src)).expect = p.seq ∧ s.switch = [] ∧ 0 < natOfBytes p.payload / 2 ^ 23 % 2 ^ 12
    ∧ ((after .packetCdata s).switch.map fun z => (z.group, z.ordinal, z.members)) = [(0, 1, 4096)] := by
  decide +kernel

theorem witness_results :
    let s := collAt fun m => { m with started := true, ordinal := 1 }
    let m := { lqCmd .coll with desc := dColl2, opt := 1, started := true, ordinal := 1 }
    let p := { packet5 0x21 (BitVec.ofNat 64 (grpFg (s.group 0) + 1 <<< 12)) 0 (bytesOfNat 8 (63 <<< 8)) with key := 0 }
    let t := { s with req := { Request.zero with pkt := p } }
    t.collEntry (grpFg (s.group 0)) 1 = some (0, 3, m) ∧ (t.core 0).sendQ 3 = [m] ∧ (∀ r < 4, r ≠ 3 → (t.core 0).sendQ r = []) ∧ natOfBytes p.payload % 2 = 0
    ∧ (((after .packetCres t).core 0).sendQ 3).map (fun m => m.stat) = [63] := by
  decide +kernel

theorem witness_collective_ends :
    let m := { lqCmd .coll with desc := dColl2, opt := 1, started := true, got := [(0, bytesOfNat 8 0)], msg := 8, stat := 3 }
    let t := ((collAt fun _ => m).onCtx 0 fun k => { k with ptab := 0x8000000000000050 }).homeWrite 0 0x50000 (bytesOfNat 8 (1 <<< 63))
    (t.core 0).sendQ 3 = m :: [] ∧ m.rel = false ∧ (aget m.got 0).isSome = true ∧ aget m.got 1 = none
    ∧ m.desc.toNat / 2 ^ 128 % 2 ^ 32 * fmtWidth (m.desc.toNat / 2 ^ 160 % 2 ^ 5) / 8 ≤ m.msg ∧ m.desc.toNat / 2 ^ 112 % 2 ^ 16 = 1
    ∧ ((t.tlr (some 0) 0 1).toOption.map fun r => (r.toNat / 2 ^ 32 % 2 ^ 16)) = some 0
    ∧ (t.penHome 0 0).toOption = some (0, 0x50000, none) ∧ ((after .collEntryComplete t).pens.map fun o => o.addr) = [0x50000] := by
  decide +kernel

/-! ### Witnesses: the control port -/

/-- A request of the control port. -/
def asked (f : Request → Request) (s : State) : State := { s with req := f Request.zero }

theorem witness_control_partitions :
    let own := asked (fun r => { r with value := 0x8000000000000001 }) (State.reset.onPart 15 fun q => { q with cores := 0x8000000000000000 })
    let run := asked (fun r => { r with value := 1 }) (State.reset.placeCode [])
    let nam := asked (fun r => { r with value := 0 }) ((State.reset.placeCode []).onCtx 0 fun k => { k with st := .ready })
    let lap := asked (fun r => { r with value := 1 <<< 63 + 0xFFF <<< 32 + 2 }) (State.reset.onPart 15 fun q => { q with polders := q.polders.setIfInBounds 0 0x8000000000001000 })
    own.fwStatus = .ok ∧ reqPart own = 0 ∧ (own.part 15).cores &&& reqWord own ≠ 0 ∧ (run.ctx 0).st = .running
    ∧ (nam.ctx 0).st ∉ [CState.empty, .retired] ∧ (nam.ctx 0).cores &&& ((nam.part 0).cores &&& ~~~(reqWord nam)) ≠ 0
    ∧ (after .coreMaskWrite own).resp.status = .coreOwned ∧ (after .coreMaskWrite run).resp.status = .partitionBusy
    ∧ (after .coreMaskWrite nam).resp.status = .coreOwned ∧ (after .polderRangeWrite lap).resp.status = .polderOverlap
    ∧ (after .rootMaskWrite (asked (fun r => { r with value := 0x8000 }) (State.reset.onPart 1 fun q => { q with roots := 0x8000 }))).resp.status = .rootOwned
    ∧ (after .polderRangeWrite (asked (fun r => { r with value := 2 <<< 61 }) State.reset)).resp.status = .polderHome
    ∧ ((after .polderRangeWrite (asked (fun r => { r with value := 1 <<< 63 + 1 <<< 61 + 5, n := 15 }) State.reset)).part 0).polders[15]? = some 0xA000000000000005 := by
  decide +kernel

theorem witness_control_frames_and_registers :
    let frames := fun (v : Nat) => (after .freeFrameAppend (asked (fun r => { r with value := v }) (State.reset.placeCode []))).resp.status
    let reg := fun (a v : Nat) => after .cpRegisterWrite (asked (fun r => { r with addr := a, value := v }) State.reset)
    frames 0 = .cpFrame ∧ frames (0xFFF <<< 32 + 1) = .ok ∧ frames (0xFFF <<< 32 + 2) = .polderFault
    ∧ (after .freeFrameAppend (asked (fun r => { r with value := 0xFFF <<< 32 + 1 }) ((State.reset.placeCode []).onPart 0 fun q =>
        { q with free0 := List.replicate 1024 (0, 1) }))).resp.status = .framesFull
    ∧ (reg 4 0).resp.status = .cpFrame ∧ ((reg (0x1000000 + 0x100000 * 15 + 0x10) 0x7FFF).part 15).bandq = 0x3FFF
    ∧ ((reg (0x11000000 + 0x10000 * 255 + 0xC00) 9).ctx 255).cancelWord = 9 ∧ ((reg (0x11000000 + 0x10000 * 255 + 0xC10) 9).ctx 255).launchSel = 9
    ∧ (reg (0x1000 + 8 * 255) 0x8000000000800000).group 255 = 0x8000000000800000 ∧ (reg 0x18000000 5).resp.status = .ok := by
  decide +kernel

/-- Context 0 with every base that it needs, in a state. -/
def based (st : CState) : State :=
  (State.reset.placeCode []).onCtx 0 fun k => { k with st := st, ptab := 0x8000000000000050, frec := 0x8000000000000060, save := 0x8000000000000070 }

theorem witness_control_contexts :
    let dw := fun (a v : Nat) (st : CState) => after .descriptorWrite (asked (fun r => { r with addr := a, value := v }) (based st))
    (dw 8 0x8000000000000FFF .loading).resp.status = .ok ∧ ((dw 8 0x8000000000000FFF .loading).ctx 0).ttab = 0x8000000000000FFF
    ∧ (dw 8 0x8000000000001000 .empty).resp.status = .polderFault ∧ (dw 8 0xC000000000000000 .empty).resp.status = .cpFrame ∧ (dw 72 0 .ready).resp.status = .contextBusy
    ∧ (dw 7 0 .empty).resp.status = .cpFrame ∧ (dw 128 0 .empty).resp.status = .cpFrame ∧ ((dw 48 0 .preempted).ctx 0).sset = 0x19
    ∧ (dw 80 2 .ready).resp.status = .coreOwned ∧ ((dw 80 1 .ready).ctx 0).cores = 1 ∧ (dw 80 1 .running).resp.status = .contextBusy
    ∧ (after .imageLoadOpen (based .ready)).resp.status = .contextBusy ∧ ((after .imageLoadOpen (based .empty)).ctx 0).st = .loading
    ∧ (after .imageLoadOpen State.reset).resp.status = .contextBases
    ∧ (after .imageLoadOpen ((based .empty).onPart 0 fun q => { q with cores := 0 })).resp.status = .contextBases ∧ (after .imageTransfer State.reset).resp.status = .contextBusy
    ∧ ((after .imageTransfer (based .loading)).ctx 0).st = .failed ∧ (after .contextScrub (based .ready)).resp.status = .contextBusy
    ∧ ((after .contextScrub (based .retired)).ctx 0).st = .empty ∧ ((after .contextRetire (based .failed)).ctx 0).st = .retired
    ∧ (after .contextRetire (based .running)).resp.status = .contextBusy := by
  decide +kernel

theorem witness_control_launches :
    let sv := fun (c : Nat) (v : Nat) (st : CState) => after .startVectorWrite (asked (fun r => { r with bytes := (List.range 64).flatMap fun i => bytesOfNat 8 (if i = c then v else 0) }) (based st))
    (sv 0 0x1000000000020 .ready).resp.status = .ok ∧ ((sv 0 0x1000000000020 .ready).ctx 0).launches.map (fun l => l.1) = [1]
    ∧ (sv 1 0x1000000000020 .ready).resp.status = .startCore ∧ (sv 0 0x1000000000010 .ready).resp.status = .startAlign ∧ (sv 0 0 .ready).resp.status = .startEmpty
    ∧ (sv 0 32 .running).resp.status = .contextBusy ∧ (after .startVectorWrite (based .ready)).resp.status = .cpFrame
    ∧ ((after .depCounterWrite (asked (fun r => { r with n := 255, value := 0x1FFFFFFFF }) (based .ready))).dep 0 255) = ⟨-1, true⟩
    ∧ (after .cancelCommand (asked (fun r => { r with value := 5 }) (based .ready))).resp.status = .cpFrame
    ∧ (after .cancelCommand (asked (fun r => { r with value := 4 }) ((based .ready).onCtx 0 fun k => { k with cancelWord := 63 }))).cancels.map (fun m => (m.core, m.ctx, m.level, m.id)) = [(64, 0, 4, 63)] := by
  decide +kernel

theorem witness_control_data :
    let w := fun (a : Nat) (bs : List Byte) => after .controlPortDataWrite (asked (fun r => { r with addr := a, bytes := bs }) (based .ready))
    let p := fun (n : Nat) => after .pennantWordWrite (asked (fun r => { r with n := n, value := 7 }) (based .ready))
    let q : RReq := ⟨4, .band 0 3 9, true, 0, 0, true, 0, 4, .waiting, 0, 0⟩
    (w 0x1000000000000 []).resp.status = .cpFrame ∧ (w 0x1000000000000 [1]).resp.status = .cpFrame ∧ (w 0x2000000000000 (bytesOfNat 8 7)).resp.status = .cpFrame
    ∧ (w 0x1000000000FF8 (bytesOfNat 8 7)).resp.status = .ok ∧ (w 0x1000000000FF8 (bytesOfNat 8 7)).homeNat 0 0x30FF8 8 = 7
    ∧ (p 65535).homeNat 0 (0x50000 + 8 * 65535) 8 = 7 ∧ (after .pennantWordWrite State.reset).resp.status = .cpFrame
    ∧ (after .hackWrite (asked (fun r => { r with bytes := bytesOfNat 16 4 }) { State.reset with remote := [(4, q)] })).reqStat 4 = .answered [0, 0, 0, 0]
    ∧ (after .hackWrite State.reset).resp.status = .cpFrame := by
  decide +kernel

theorem witness_control_pages :
    let m := fun (e v : Nat) => after .controlNodeMap (asked (fun r => { r with addr := 0x1000000000FFF, value := v }) (tensored e (based .ready)))
    let u := fun (e : Nat) => after .controlNodeUnmap (asked (fun r => { r with addr := 0x1000000000FFF }) (tensored e (based .ready)))
    let t := fun (x : Nat) => after .translationInvalidate (asked (fun r => { r with n := 1, m := x, value := 0 }) (tensored eRW (bandAt bandMem withTlb)))
    let v : Inval := ⟨0, some 1, 0, 0, [9], none⟩
    (m eRW 0).resp.status = .contextBusy ∧ (m 0 0).resp.status = .cpFrame ∧ (m 0 (1 <<< 63 + 0x7000)).resp.status = .polderFault ∧ (m 0 eRW).homeNat 0 0x20000 8 = eRW ∧ (u 0).resp.status = .contextBusy
    ∧ (u eRW).homeNat 0 0x20000 8 = eRW - 1 <<< 63 ∧ (u (2 <<< 40)).homeNat 0 0x20000 8 = 0 ∧ (after .controlNodeMap (based .ready)).resp.status = .cpFrame
    ∧ ((t 1).core 0).tlb = [] ∧ ((t 0).core 0).tlb = [] ∧ { State.reset with invals := [v] }.outstanding 9 = false
    ∧ (after .translationInvalidateAck { State.reset with invals := [v] }).invals = [] := by
  decide +kernel

theorem witness_control_reads :
    let r := fun (a : Nat) (s : State) => (asked (fun r => { r with addr := a, n := 8 }) s).cpRead.resp
    let own := State.reset.onPart 15 fun q => { q with cores := 0x8000000000000000, key := true, slot := { q.slot with st := .active, alen := 1023 } }
    r 4 State.reset = ⟨.cpFrame, []⟩ ∧ r 0x20 State.reset = ⟨.ok, bytesOfNat 8 0⟩ ∧ r (0x1000000 + 0x100000 * 15) own = ⟨.ok, bytesOfNat 8 (1 <<< 63)⟩
    ∧ r (0x1000000 + 0x100000 * 15 + 0x1000) own = ⟨.ok, bytesOfNat 8 (3 + 1023 <<< 10)⟩ ∧ r (0x11000000 + 0x10000 * 255) own = ⟨.debugDenied, []⟩
    ∧ r (0x11000000 + 8) (based .ready) = ⟨.ok, bytesOfNat 8 ((based .ready).ctx 0).ttab.toNat⟩
    ∧ r (0x11000000 + 0x400 + 8 * 255) ((based .ready).onCtx 0 fun k => { k with deps := [(255, ⟨-1, true⟩)] }) = ⟨.ok, bytesOfNat 8 0x1FFFFFFFF⟩
    ∧ (match State.reset.frameIn (List.replicate 32 0) with | .next t => some (t.answers.map fun f => f.length) | _ => none) = some [32]
    ∧ (match State.reset.frameIn [] with | .next t => some t.answers | _ => none) = some [] := by
  decide +kernel

theorem witness_no_firmware : ({ State.reset with fwStatus := .fwSignature } : State).fwStatus ≠ .ok ∧ Instr.pwrSetActive ∈ portCommands := by
  decide +kernel

/-! ### Witnesses: the watch, security, power -/

/-- Core 63 of partition 15 under its tenant's debugger. -/
def debugged (f : Request → Request) (g : Core → Core) : State :=
  { (State.reset.onPart 15 fun q => { q with cores := 0x8000000000000000, debug := 1, key := true }).onCore 63 g with
    req := f { Request.zero with part := 15, core := 63, auth := true } }

/-- A core with a unit of partition 15's context 0 that runs, and a band. -/
def running63 (k : Core) : Core :=
  { k with unit := some ⟨15, 0, 1, none, 63, 0, false⟩, seq := { k.seq with phase := .run }, bands := [(127, { band1 [] [] with st := .ready, part := 15 })] }

theorem witness_watch_rights :
    debugger (debugged id id) 2 ∧ ¬ debugger { debugged id id with pst := 3 } 2 ∧ debugger { debugged id id with pst := 3 } 3 ∧ ¬ debugger State.reset 2
    ∧ debugger (State.reset.onPart 3 fun q => { q with debug := 2 }) 2 := by
  unfold debugger
  refine ⟨⟨by decide +kernel, Or.inr ⟨15, by decide +kernel⟩⟩, fun h => absurd h.1 (by decide +kernel), ⟨by decide +kernel, Or.inr ⟨15, by decide +kernel⟩⟩, ?_,
    by decide +kernel, Or.inl ⟨3, by decide +kernel⟩⟩
  rintro ⟨-, ⟨p, hp, h⟩ | ⟨p, h, -⟩⟩
  · revert p
    decide +kernel
  · exact absurd h (by rw [show State.reset.corePart (State.reset.req.core % 64) = none by decide +kernel]; exact nofun)

theorem witness_watch_commands :
    let w := fun (v : Nat) => after .wctlWrite (debugged (fun r => { r with value := v }) id)
    let h := fun (v : Nat) => after .haltCommand (debugged (fun r => { r with value := v }) running63)
    let band := 4 + 7 <<< 3 + 15 <<< 6
    (w (19 <<< 14)).resp.status = .watchParam ∧ (w (41 <<< 14)).resp.status = .watchParam ∧ ((w (40 <<< 14 + 5 <<< 32)).core 63).watch.wexp = 40
    ∧ ((w (20 <<< 14 + 5 <<< 32)).core 63).watch.dthr = 5 ∧ (after .wctlWrite State.reset).resp.status = .debugDenied
    ∧ ((after .breakpointWrite (debugged (fun r => { r with value := 0x1000000000001, n := 7 }) id)).core 63).watch.sbp.map (fun b => (b.1, b.2.trig)) = [(7, .armed)]
    ∧ ((after .breakpointWrite (debugged (fun r => { r with value := 0x1000000000001, n := 7, m := 8 }) id)).core 63).watch.lbp.map (fun b => b.1) = [63]
    ∧ ((after .watchpointWrite (debugged (fun r => { r with value := 1 <<< 64 + 1, n := 3 }) id)).core 63).watch.wps.map (fun b => b.1) = [3]
    ∧ (h 0).resp.status = .cpFrame ∧ ((h 1).core 63).seq.halted = true ∧ (((h (1 + band)).band 63 127).map fun b => b.halt) = some .debug := by
  decide +kernel

theorem witness_watch_resume :
    let r := fun (v : Nat) (g : Core → Core) => after .resumeCommand (debugged (fun r => { r with value := v }) fun k => g (running63 k))
    let stop : StopReq := ⟨.seq 63, .debugHalt, 0, 0, none, none⟩
    let b := { band1 [] [] with st := .halted, halt := .debug, part := 15 }
    (r 2 fun k => { k with watch := { k.watch with stops := [stop] } }).resp.status = .contextBusy
    ∧ ((r 2 fun k => { k with seq := { k.seq with halted := true } }).core 63).seq.halted = false
    ∧ (((r (2 + 4 + 7 <<< 3 + 15 <<< 6) fun k => { k with bands := [(127, b)] }).band 63 127).map fun b => b.st) = some .ready := by
  decide +kernel

theorem witness_watch_reports :
    let stop : StopReq := ⟨.seq 63, .debugHalt, 0, 0, none, none⟩
    let s := debugged id fun k => { running63 k with watch := { k.watch with stops := [stop] } }
    let d := debugged id fun k => let k := running63 k
      { k with watch := { k.watch with stops := [stop] }, seq := { k.seq with land := [⟨0, 1, some 5, 1, 3⟩] } }
    let hang := fun (n m : Nat) => debugged (fun r => { r with n := n }) fun k => let k := running63 k
      { k with watch := { k.watch with hang := [(n, m)] } }
    (s.core 63).watch.stops[0]? = some stop ∧ (s.core 63).unit.isSome = true ∧ (s.core 63).seq.land = [] ∧ (∃ l ∈ (d.core 63).seq.land, d.cycle < l.last)
    ∧ aget ((hang 0 (2 ^ 32)).core 63).watch.hang 0 = some (2 ^ 32) ∧ ((hang 0 0).core 63).watch.wexp = 32 ∧ ((hang 128 0).band 63 127).isSome = true
    ∧ ((after .stopReport s).part 15).vecs = 0x80 ∧ ((after .hangWatchdogFire (hang 0 (2 ^ 32))).part 15).vecs = 0x20
    ∧ ((after .hangWatchdogFire (hang 128 (2 ^ 32))).part 15).vecs = 0x20 ∧ ((after .hangWatchdogFire (hang 0 (2 ^ 32 - 1))).part 15).vecs = 0 := by
  decide +kernel

theorem witness_window :
    let r := fun (dw a n : Nat) => after .debugWindowRead (debugged (fun r => { r with addr := a, n := n }) fun k => { k with watch := { k.watch with dwin := BitVec.ofNat 64 dw } })
    let w := fun (dw a : Nat) (bs : List Byte) => after .debugWindowWrite (debugged (fun r => { r with addr := a, bytes := bs }) fun k => { k with watch := { k.watch with dwin := BitVec.ofNat 64 dw } })
    (r 0 0 4).resp.status = .cpFrame ∧ (r (31 <<< 4) 0x7FFF8 8).resp = ⟨.ok, bytesOfNat 8 0⟩ ∧ (r 1 0xFFF8 8).resp = ⟨.ok, bytesOfNat 8 0⟩
    ∧ ((w (31 <<< 4) 0x7FFF8 (bytesOfNat 8 5)).core 63).tile.read 0xFFFFF8 = some 5 ∧ ((w 1 0xFFF8 (bytesOfNat 8 5)).core 63).scalar.read 0xFFF8 = some 5
    ∧ (after .debugWindowRead { debugged (fun r => { r with n := 8 }) (fun k => { k with watch := { k.watch with dwin := 2 } }) with pst := 3 }).resp.status = .debugDenied
    ∧ (w 2 0 (bytesOfNat 8 5)).resp.status = .contextBusy ∧ (after .debugWindowRead (asked (fun r => { r with n := 8 }) State.reset)).resp.status = .debugDenied
    ∧ (after .debugWindowSelect (asked (fun r => { r with value := 4 }) State.reset)).resp.status = .cpFrame := by
  decide +kernel

theorem witness_security :
    let lv := fun (v : Nat) (s : State) => after .debugLevelRequest (asked (fun r => { r with value := v }) s)
    let keyed0 := State.reset.onPart 0 fun q => { q with key := true, debug := 1 }
    let at_ := fun (n : Nat) => after .attestationRequest (asked (fun r => { r with bytes := bytesOfNat 32 7 }) { State.reset with fuses := n / 1024, counter := n % 1024 })
    (lv 1 State.reset).resp.status = .debugDenied ∧ (lv 1 keyed0).resp.status = .ok ∧ ((lv 0 keyed0).part 0).debug = 0 ∧ (lv 2 State.reset).resp.status = .debugDenied
    ∧ ((lv 2 { State.reset with vendor := true }).part 0).debug = 2 ∧ ((after .tenantKeyRemove keyed0).part 0).debug = 0
    ∧ (after .vendorUnlockExit State.reset).resp.status = .debugDenied ∧ (after .vendorUnlockExit { State.reset with vendor := true }).vendor = false
    ∧ (after .attestationRequest State.reset).resp.status = .cpFrame ∧ (at_ (2 ^ 20)).resp.status = .attestExhausted ∧ (at_ 1023).fuses = 1 ∧ (at_ 1023).counter = 0 := by
  decide +kernel

theorem witness_power :
    let pw := fun (i : Instr) (v : Nat) (s : State) => after i (asked (fun r => { r with value := v }) s)
    (pw .pwrSetActive 5 State.reset).resp.status = .powerState ∧ (pw .pwrSetActive 2 { State.reset with pst := 4 }).resp.status = .powerState
    ∧ (pw .pwrSetActive (1 + 24 <<< 16) State.reset).fmax = 24 ∧ (pw .pwrSetActive (1 + 37 <<< 16) State.reset).fmax = 36
    ∧ (pw .pwrEnterP3 3 (State.reset.placeCode [])).resp.status = .powerState ∧ (pw .pwrEnterP3 3 State.reset).pst = 3 ∧ (pw .pwrEnterP4 4 State.reset).pst = 4 := by
  decide +kernel

/-! ### Words of every family, field by field as the specification lays them out -/

/-- A slot without predicate (R60): opcode, `PC`, `NG`, operands. -/
def slotWord (op : BitVec 8) (f : BitVec 35) : BitVec 48 := op ++ 0#4 ++ 0#1 ++ f
/-- A lane word with predicate p7 (R77): N, `OPC`, `PRED`, `U`, `DP`, body. -/
def laneWord (u : BitVec 1) (op : BitVec 9) (f : BitVec 48) : BitVec 64 := 0#1 ++ op ++ 7#4 ++ u ++ 0#1 ++ f

/-- R62, R63, R67: the ALU slots. -/
theorem decode_alu :
    decodeSlot .b (slotWord 0x03 (1#6 ++ 2#6 ++ 3#6 ++ 0#6 ++ 0#2 ++ 0#1 ++ 0#8)) = some (.seqMul p0 1 2 3)
    ∧ decodeSlot .a (slotWord 0x41 (1#6 ++ 2#6 ++ 0x7FFFFF#23)) = some (.seqAddImm p0 1 2 0x7FFFFF)
    ∧ decodeSlot .a (slotWord 0x4E (0#2 ++ 9#4 ++ 2#6 ++ 4#4 ++ 5#19)) = some (.seqCmpImm p0 9 2 4 5)
    ∧ decodeSlot .a (slotWord 0x12 (1#6 ++ 0#6 ++ 3#2 ++ 0#5 ++ 0xBEEF#16)) = some (.seqMovh p0 1 3 0xBEEF)
    ∧ decodeSlot .b (slotWord 0x16 (1#6 ++ 2#6 ++ 3#6 ++ 4#6 ++ 1#2 ++ 0#1 ++ 0#8)) = some (.seqFfma p0 1 2 3 4 1 false)
    ∧ decodeSlot .b (slotWord 0x0F (1#6 ++ 2#6 ++ 3#6 ++ 0#2 ++ 15#4 ++ 0#2 ++ 0#1 ++ 0#8)) = some (.seqSel p0 1 15 2 3)
    ∧ decodeSlot .a (slotWord 0x49 (1#6 ++ 2#6 ++ 1#17 ++ 0#6)) = none := by
  decide +kernel

/-- R64 to R66, R68 to R70: the M, E and D slots. -/
theorem decode_med :
    decodeSlot .m (slotWord 0x02 (1#6 ++ 2#6 ++ 1#1 ++ 3#2 ++ 0#1 ++ 0x40000#19)) = some (.seqSts p0 1 2 true 3 0x40000)
    ∧ decodeSlot .m (slotWord 0x05 (1#6 ++ 2#6 ++ 0#23)) = some (.seqTalloc p0 1 2)
    ∧ decodeSlot .e (slotWord 0x04 (3#2 ++ 0#6 ++ 0#6 ++ 0#6 ++ 0#15)) = some (.seqDrain p0 3)
    ∧ decodeSlot .e (slotWord 0x0A (3#2 ++ 1#6 ++ 2#6 ++ 4#6 ++ 0#15)) = some (.seqTsend p0 3 1 2 4)
    ∧ decodeSlot .d (slotWord 0x01 (0#3 ++ 0xFFFFFFFF#32)) = some (.seqBr p0 0xFFFFFFFF)
    ∧ decodeSlot .d (slotWord 0x02 (7#6 ++ 0#29)) = some (.seqBrc p0 7)
    ∧ decodeSlot .d (slotWord 0x06 (200#8 ++ 1#6 ++ 2#6 ++ 3#6 ++ 4#6 ++ 0#3)) = some (.seqTop p0 200 1 2 3 4)
    ∧ decodeSlot .d (slotWord 0x0E (0#3 ++ 0x12345678#32)) = some (.seqMark p0 0x12345678)
    ∧ decodeSlot .d (slotWord 0x07 (1#6 ++ 2#6 ++ 0#23)) = some (.seqBind p0 1 2)
    ∧ decodeSlot .d (slotWord 0x11 0#35) = some (.seqEret p0) := by
  decide +kernel

/-- R59: a bundle's fields. -/
theorem decode_bundle :
    decodeBundle (15#4 ++ 0#1 ++ 0#1 ++ 0#10 ++ slotWord 0x01 (1#6 ++ 2#6 ++ 3#6 ++ 0#17) ++ 0#48 ++ 0#48 ++ 0#48 ++ slotWord 0x11 0#35)
      = some ⟨15, false, false, .seqAdd p0 1 2 3, .seqNop, .seqNop, .seqNop, .seqEret p0⟩
    ∧ decodeBundle (0#4 ++ 1#1 ++ 0#1 ++ 0#10 ++ 0#240) = none ∧ decodeBundle (0#4 ++ 0#1 ++ 0#1 ++ 1#10 ++ 0#240) = none := by
  decide +kernel

/-- R77, R83, R86: control, integer, floating point, SLI, conversions, moves. -/
theorem decode_lane_arithmetic :
    decodeLane (laneWord 0 0x002 (0#12 ++ 0#4 ++ 0xFFFFFFFE#32)) = some (.laneBra h0 0xFFFFFFFE)
    ∧ decodeLane (laneWord 0 0x020 (6#4 ++ 1#8 ++ 2#8 ++ 3#8 ++ 0#8 ++ 0#12)) = some (.laneIadd h0 ⟨6, 1, 2, 3, 0, 0, false, false, 0, 0⟩)
    ∧ decodeLane (laneWord 1 0x03C (14#4 ++ 0x81#8 ++ 0x82#8 ++ 0x8000000#28)) = some (.laneImaxImm hU ⟨14, 0x81, 0x82, 0x8000000⟩)
    ∧ decodeLane (laneWord 0 0x040 (8#4 ++ 1#8 ++ 2#8 ++ 0xF0#8 ++ 0#8 ++ (1#2 ++ 0#1 ++ 0#1 ++ 0#4 ++ 0#4)))
        = some (.laneFadd h0 ⟨8, 1, 2, 0xF0, 0, 1, false, false, 0, 0⟩)
    ∧ decodeLane (laneWord 0 0x059 (10#4 ++ 1#8 ++ 2#8 ++ 0x3F80000#28)) = some (.laneFmulImm h0 ⟨10, 1, 2, 0x3F80000⟩)
    ∧ decodeLane (laneWord 0 0x063 (12#4 ++ 1#8 ++ 2#8 ++ 3#8 ++ 0#8 ++ 0#12)) = some (.laneSldiv h0 ⟨12, 1, 2, 3, 0, 0, false, false, 0, 0⟩)
    ∧ decodeLane (laneWord 0 0x081 (10#4 ++ 2#8 ++ 5#8 ++ 0#8 ++ 0#8 ++ (0#2 ++ 0#1 ++ 0#1 ++ 0#4 ++ 8#4)))
        = some (.laneCvtw h0 ⟨10, 2, 5, 0, 0, 0, false, false, 0, 8⟩)
    ∧ decodeLane (laneWord 0 0x0A4 (0#4 ++ 1#8 ++ 2#8 ++ 3#8 ++ 0#8 ++ (0#4 ++ 3#4 ++ 0#4))) = some (.laneShfl h0 ⟨0, 1, 2, 3, 0, 0, false, false, 3, 0⟩) := by
  decide +kernel

/-- R77, R83, R86: memory, synchronisation, queues, tasks, system. -/
theorem decode_lane_system :
    decodeLane (laneWord 0 0x0C1 (0#4 ++ 1#8 ++ 2#8 ++ 0xFFFFF#20 ++ (3#4 ++ 0#3 ++ 0#1))) = some (.laneSt h0 ⟨0, 1, 2, 0xFFFFF, 3, 0⟩)
    ∧ decodeLane (laneWord 0 0x0C6 (6#4 ++ 1#8 ++ 2#8 ++ 4#20 ++ (0#4 ++ 4#3 ++ 0#1))) = some (.laneAtom h0 ⟨6, 1, 2, 4, 0, 4⟩)
    ∧ decodeLane (laneWord 0 0x0E2 (0#4 ++ 0#8 ++ 0#8 ++ (0#5 ++ 0#4 ++ 4#3 ++ 0#16))) = some (.laneFence h0 ⟨0, 0, 0, 0x40000⟩)
    ∧ decodeLane (laneWord 0 0x100 (0#4 ++ 0xF3#8 ++ 0#8 ++ 0#8 ++ 0#8 ++ (0#4 ++ 1#4 ++ 0#4))) = some (.laneQbind h0 ⟨0, 0xF3, 0, 0, 0, 0, false, false, 1, 0⟩)
    ∧ decodeLane (laneWord 0 0x104 (0#4 ++ 0#8 ++ 0x81#8 ++ 0x82#8 ++ 0#8 ++ (0#4 ++ 0#4 ++ 2#4)))
        = some (.laneDdec h0 ⟨0, 0, 0x81, 0x82, 0, 0, false, false, 0, 2⟩)
    ∧ decodeLane (laneWord 0 0x123 (0#4 ++ 5#8 ++ 0#8 ++ (0#16 ++ 0x010#12))) = some (.laneCsrr h0 ⟨0, 5, 0, 0x10⟩)
    ∧ decodeLane (laneWord 0 0x00A 0#48) = none ∧ decodeLane (laneWord 0 0x020 (15#4 ++ 0#44)) = none := by
  decide +kernel

/-- R88, R89: the policy's register operations, control flow, views and decisions. -/
theorem decode_policy :
    decodePol (0x03#6 ++ 1#4 ++ 2#4 ++ 3#4 ++ 0#14) = some (.polAdd 1 2 3)
    ∧ decodePol (0x0C#6 ++ 1#4 ++ 2#4 ++ 3#4 ++ 0#4 ++ 5#3 ++ 0#7) = some (.polCmp 1 2 3 5)
    ∧ decodePol (0x28#6 ++ 1#4 ++ 2#4 ++ 0#12 ++ 63#6) = some (.polShlImm 1 2 63)
    ∧ decodePol (0x0E#6 ++ 0#4 ++ 2#4 ++ 7#18) = some (.polBf 2 7) ∧ decodePol (0x10#6 ++ 0#4 ++ 0#4 ++ 64#18) = some (.polLoop 64)
    ∧ decodePol (0x15#6 ++ 3#4 ++ 2#4 ++ 7#4 ++ 1#14) = some (.polDec 2 3 7 1) ∧ decodePol (0x16#6 ++ 0#26) = some .polEnd
    ∧ decodePol (0x16#6 ++ 1#26) = none := by
  decide +kernel

/-! ### Ill-formed terms are refused -/

/-- R29, R53, R61, R62, R64, R70: sequencer fields that the descriptions do not allow. -/
theorem illformed_seq :
    ∀ i ∈ [Instr.seqFadd p0 1 2 3 1 true, .seqCvt p0 1 2 0 false 15 6, .seqCmp p0 0 2 3 0, .seqMovc p0 15 1 2, .seqLds p0 1 2 false 3 true 0,
      .seqMxmul p0 1 2 3 true false true, .seqQfence p0 0, .seqColl p0 0 1 3 0 false, .seqTwaitState p0 5 0, .seqLaunch p0 1 false 3, .seqTenq p0 1 false 3,
      .seqDdec p0 1 2 7, .seqDdecCancel p0 1 7], i.wf = false := by
  decide +kernel

/-- R78, R79, R81, R84, R85, R245 to R265: lane arithmetic. -/
theorem illformed_arithmetic :
    ∀ i ∈ [Instr.laneIadd ⟨true, 7, false, false⟩ ⟨6, 1, 2, 3, 0, 0, false, false, 0, 0⟩, .laneIadd hU ⟨6, 1, 0x82, 0x83, 0, 0, false, false, 0, 0⟩,
      .laneIadd h0 ⟨14, 1, 2, 3, 0, 0, false, false, 0, 0⟩, .laneIadd h0 ⟨6, 0x81, 2, 3, 0, 0, false, false, 0, 0⟩, .laneImad h0 ⟨8, 1, 2, 3, 4, 0, false, false, 0, 0⟩,
      .laneIshift h0 ⟨6, 1, 2, 3, 0, 0, false, false, 15, 0⟩, .laneIabs h0 ⟨7, 1, 2, 0, 0, 0, false, false, 0, 0⟩, .laneIcmp h0 ⟨6, 7, 2, 3, 0, 0, false, false, 0, 0⟩,
      .laneIcmp h0 ⟨6, 1, 2, 3, 0, 0, false, false, 0, 2⟩, .laneSel h0 ⟨0, 1, 2, 3, 16, 0, false, false, 0, 0⟩, .laneIaddImm h0 ⟨2, 1, 2, 256⟩,
      .laneFaddImm h0 ⟨6, 1, 2, 0⟩, .laneMovi h0 ⟨6, 1, 2, 0⟩, .laneFadd h0 ⟨6, 1, 2, 3, 0, 0, false, false, 0, 0⟩, .laneFadd h0 ⟨10, 1, 2, 3, 0, 1, true, false, 0, 0⟩,
      .laneFfma h0 ⟨11, 1, 2, 3, 4, 0, false, false, 0, 0⟩, .laneFmin h0 ⟨10, 1, 2, 3, 0, 1, false, false, 0, 0⟩, .laneFcmp h0 ⟨10, 1, 2, 3, 0, 0, false, false, 8, 0⟩,
      .laneFsf h0 ⟨10, 1, 2, 0, 0, 1, false, false, 4, 0⟩, .laneSladd h0 ⟨10, 1, 2, 3, 0, 0, false, false, 0, 0⟩, .laneSlcmp h0 ⟨12, 1, 2, 3, 0, 0, false, false, 0, 4⟩,
      .laneCvt h0 ⟨10, 1, 2, 0, 0, 0, false, false, 0, 8⟩, .laneCvtw h0 ⟨10, 1, 2, 0, 0, 0, false, false, 0, 8⟩, .laneCvtn h0 ⟨8, 1, 1, 0, 0, 0, false, false, 0, 10⟩,
      .lanePack h0 ⟨6, 1, 2, 0, 0, 0, false, false, 0, 6⟩, .laneUnpk h0 ⟨6, 2, 1, 0, 0, 0, false, true, 0, 4⟩], i.wf = false := by
  decide +kernel

/-- R230 to R241, R287 to R292, R309 to R313, R320, R334, R401, R116: the other lane instructions. -/
theorem illformed_lane :
    ∀ i ∈ [Instr.laneMov h0 ⟨1, 1, 2, 0, 0, 0, false, false, 0, 0⟩, .laneB2v h0 ⟨0, 1, 2, 0x81, 0, 0, false, false, 0, 0⟩, .laneV2b h0 ⟨0, 1, 2, 0x81, 0, 0, false, false, 0, 0⟩,
      .laneShfl h0 ⟨0, 1, 2, 0xF0, 0, 0, false, false, 0, 0⟩, .laneVote h0 ⟨0, 7, 0, 0, 0, 0, false, false, 0, 0⟩, .laneBred h0 ⟨11, 1, 2, 0, 0, 0, false, false, 0, 0⟩,
      .laneWait h0 ⟨0, 0, 0, 0, 0, 0, false, false, 0, 0⟩, .laneNop h0 ⟨0, 1, 0, 0, 0, 0, false, false, 0, 0⟩, .laneBrx h0 ⟨0, 1, 2, 0, 0, 0, false, false, 0, 0⟩,
      .laneBra hU 0, .laneQbind h0 ⟨0, 1, 0, 0, 0, 0, false, false, 1, 0⟩, .laneMmj h0 ⟨6, 0, 0x81, 0xF0, 0, 0, false, false, 0, 0⟩,
      .laneTopn h0 ⟨0, 1, 0, 0, 0, 0, false, false, 0, 0⟩, .laneTenq h0 ⟨0, 8, 0x80, 0, 0, 0, false, false, 0, 0⟩, .laneLaunch h0 ⟨0, 8, 0xE9, 0, 0, 0, false, false, 1, 0⟩,
      .laneDdec h0 ⟨0, 0, 0x80, 0x81, 0, 0, false, false, 0, 1⟩, .laneDdecCancel h0 ⟨0, 0, 0x80, 0, 0, 0, false, false, 1, 5⟩,
      .laneChkt h0 ⟨0, 0, 0xF0, 1, 0, 0, false, false, 0, 0⟩, .laneFlgr h0 ⟨0, 1, 0, 0, 0, 0, false, false, 2, 0⟩, .laneCpy h0 ⟨0, 0, 0x80, 0, 0xED, 0, false, false, 0, 0⟩,
      .laneDrain h0 ⟨0, 0, 0, 0, 0, 0, false, false, 0, 4⟩, .laneLd h0 ⟨0, 1, 2, 0, 7, 0⟩, .laneSt h0 ⟨0, 1, 2, 0, 4, 0⟩, .laneLdt h0 ⟨0, 1, 2, 0, 8, 0⟩,
      .laneLdb h0 ⟨0, 1, 2, 0, 0, 0⟩, .laneAtom h0 ⟨10, 1, 2, 0, 3, 0⟩, .laneRed h0 ⟨6, 1, 2, 0, 6, 0⟩, .lanePref h0 ⟨0, 0, 2, 0, 2, 0⟩,
      .lanePacq h0 ⟨0, 1, 0x80, 5 * 2 ^ 16⟩, .lanePrel h0 ⟨0, 0x81, 0x80, 0⟩, .laneFence ⟨false, 0, false, false⟩ ⟨0, 0, 0, 0⟩, .laneQfence h0 ⟨0, 0, 0, 0⟩,
      .laneBar h0 ⟨0, 0, 0, 3 * 2 ^ 14⟩, .laneTrap h0 ⟨0, 1, 0, 0⟩, .laneBkpt h0 ⟨0, 0, 0, 2 ^ 16⟩, .laneCsrr h0 ⟨0, 0xF0, 0, 0⟩, .laneCsrw h0 ⟨0, 0, 1, 4096⟩], i.wf = false := by
  decide +kernel

/-- R90, R352, R353: a policy instruction that the admission check refuses. -/
theorem illformed_policy :
    ∀ i ∈ [Instr.polCmp 1 2 3 6, .polBf 1 0, .polJf 0, .polLoop 0, .polLoop 65, .polLdv 1 2 5 0, .polScanMin 1 2 0 7], i.wf = false := by
  decide +kernel

/-! ### Witnesses: steps -/

/-- The bundle `ADD s1, s2, s3` with `WAIT` 15. -/
def addWord : Nat := (15#4 ++ 0#12 ++ slotWord 0x01 (1#6 ++ 2#6 ++ 3#6 ++ 0#17) ++ 0#192).toNat
/-- The lane word of `IADD.I32 v1, v2, v3`. -/
def iaddWord : Nat := (laneWord 0 0x020 (6#4 ++ 1#8 ++ 2#8 ++ 3#8 ++ 0#8 ++ 0#12)).toNat

theorem witness_step_sequencer :
    let s := State.reset.withFetchWord 256 addWord
    let x : Bundle := ⟨15, false, false, .seqAdd p0 1 2 3, .seqNop, .seqNop, .seqNop, .seqNop⟩
    upNext s = (.seq 0, []) ∧ s.agenda = .seq 0 :: [] ∧ s.pst < 3 ∧ seqFree s 0 ∧ (match (seqActs s [] 0).seqFetch 0 with | .word w => w | _ => 0) = addWord
    ∧ decodeBundle (BitVec.ofNat 256 addWord) = some x ∧ matchBreak (s.core 0).watch.sbp (s.core 0).seq.pc = none
    ∧ decodeBundle (BitVec.ofNat 256 1) = none ∧ decodeTableWord 256 addWord = some (.seqAdd p0 1 2 3) := by
  unfold seqFree
  decide +kernel

theorem witness_step_band :
    let s := State.reset.withFetchWord 64 iaddWord
    let b := { Band.start 0 0 (.unit 0 0 0) 128 [] 0 codeAddr 0 0 allStrands with st := .ready }
    let i := Instr.laneIadd h0 ⟨6, 1, 2, 3, 0, 0, false, false, 0, 0⟩
    s.agenda = .band 0 0 :: [] ∧ s.pst < 3 ∧ (s.core 0).failed = false ∧ s.freezes 0 = [] ∧ s.band 0 0 = some b ∧ b.mayIssue s.cycle = true
    ∧ b.reconverge 34 = b ∧ b.st ≠ .done ∧ (match (bandActs s [] 0 0 b).bandFetch 0 0 with | .word w => w | _ => 0) = iaddWord
    ∧ (bandMeets s [] 0 0 b).picked 0 0 = true ∧ upNext s = (.band 0 0, []) ∧ (after i (bandActs s [] 0 0 b)).stays 0 0 (issuing b) = false
    ∧ (bandMeets (s.onCore 0 fun k => { k with bands := aput k.bands 1 { b with readySince := 0 } }) [] 0 0 b).picked 0 0 = false
    ∧ decodeLane (BitVec.ofNat 64 iaddWord) = some i ∧ (BitVec.ofNat 64 iaddWord).getLsbD 48 = false
    ∧ decodeLane (BitVec.ofNat 64 0) = none ∧ matchBreak ((s.core 0).watch.lbp.filter fun e => e.1 / 8 = 0) b.pc = none := by
  decide +kernel

theorem witness_step_engine_and_events :
    let s := State.reset.withFetchWord 32 (encodePol .polNop).toNat
    let r := { Request.zero with value := 50 }
    let e := { State.reset with agenda := [.event .clockControllerTick r] }
    upNext s = (.engine 0, []) ∧ upNext e = (.event .clockControllerTick r, []) ∧ s.agenda = [.engine 0] ∧ ((s.engines[0]?).bind fun g => g.map fun g => (g.overBudget, g.prog[g.pc]?)) = some (false, some (encodePol .polNop))
    ∧ decodePol (encodePol .polNop) = some .polNop ∧ e.agenda = .event .clockControllerTick r :: [] ∧ controlEvent .pwrSetActive = true
    ∧ controlEvent .creditGrant = false ∧ State.reset.agenda = [] ∧ { e with pst := 4 }.pst = 4 := by
  decide +kernel

theorem witness_turns :
    let s := { State.reset with agenda := [.band 63 3, .event .creditGrant Request.zero, .engine 1, .seq 9, .cycle, .seq 0] }
    let d := { State.reset with agenda := [.portSend 15, .flitAck 15 1, .flitIn 15 ⟨1, 0, []⟩, .cpRead Request.zero, .frame []] }
    upNext s = (.seq 9, [.band 63 3, .event .creditGrant Request.zero, .engine 1, .cycle, .seq 0]) ∧ s.agenda ≠ []
    ∧ upNext { s with agenda := [.cycle, .seq 0] } = (.cycle, [.seq 0]) ∧ d.agenda.length = 5 ∧ State.reset.booted = true := by
  decide +kernel

theorem witness_illegal_and_unfetched :
    let s := { State.reset.withFetchWord 256 1 with cur := .seq 0 }
    let t := { State.reset.withFetchWord 64 0 with cur := .band 0 0 }
    (match (seqAt id).seqFetch 0 with | .fault k _ => some k | _ => none) = some .polderFault
    ∧ (match s.seqFetch 0 with | .word w => w | _ => 0) = 1 ∧ s.regTarget 1 = none ∧ (match t.bandFetch 0 0 with | .word w => w | _ => 1) = 0
    ∧ (match (bandAt { band1 [] [] with st := .ready } id).bandFetch 0 3 with | .fault k _ => some k | _ => none) = some .polderFault
    ∧ ((after .illegalOp s).core 0).seq.phase = .faulted ∧ (((after .illegalOp t).band 0 0).map fun b => b.halt) = some .fault := by
  decide +kernel

/-- R78: `ADD` writes its register within its landing range, and the sequencer goes on to the next bundle after 1 + `WAIT` cycles. -/
theorem test_step_add :
    (match step (State.reset.withFetchWord 256 addWord) with
      | .next t => some ((t.core 0).seq.pc, (t.core 0).seq.readyAt, (t.core 0).seq.land.map fun l => l.reg)
      | _ => none) = some (codeAddr + 32, 16, [1]) := by
  decide +kernel

/-- R219: `IADD` goes on by 8 bytes. -/
theorem test_step_iadd :
    (match step (State.reset.withFetchWord 64 iaddWord) with | .next t => (t.band 0 0).map fun b => b.pc | _ => none) = some (codeAddr + 8) := by
  decide +kernel

/-- R348: a policy instruction goes on by one word. -/
theorem test_step_policy :
    (match step (State.reset.withFetchWord 32 (0x8CC40005#32).toNat) with
      | .next t => (t.engines[0]?).bind fun g => g.map fun g => (g.pc, g.k[3]?)
      | _ => none) = some (1, some 5) := by
  decide +kernel

theorem witness_canonical : storesCanonical (State.reset.withFetchWord 64 iaddWord) := by
  unfold storesCanonical
  decide +kernel

end Sys2Proof.Tests
end

section
/-!
SUPPORT. The refutation of O60. `storesCanonical` speaks of the homes, the tile stores and the scalar stores. A save also copies a core's binding
table into a home (R108), and nothing asks that table to be in canonical form.
-/

namespace Sys2Proof.Proofs

open Sys2Proof Sys2Proof.Machine Sys2Proof.Claims

/-! ### What a save leaves in the HBM -/

section
variable (s : State)

@[simp] theorem raiseSluice_hbm (p : Nat) (r : SReq) : (s.raiseSluice p r).hbm = s.hbm := rfl

@[simp] theorem raiseDispatch_hbm (p : Nat) : (s.raiseDispatch p).hbm = s.hbm := by
  unfold State.raiseDispatch
  split <;> rfl

@[simp] theorem raiseSteals_hbm (p : Nat) : (s.raiseSteals p).hbm = s.hbm := by
  unfold State.raiseSteals
  dsimp only
  split
  · rfl
  · refine List.foldlRecOn (motive := fun t : State => t.hbm = s.hbm) _ _ rfl fun t ht c _ => ?_
    split <;> exact ht

@[simp] theorem coreFreed_hbm (c : Nat) : (s.coreFreed c).hbm = s.hbm := by
  refine List.foldlRecOn (motive := fun t : State => t.hbm = s.hbm) _ _ rfl fun t ht p _ => ?_
  split
  · simpa using ht
  · exact ht

@[simp] theorem settlePreempt_hbm (x : Nat) : (s.settlePreempt x).hbm = s.hbm := by
  unfold State.settlePreempt
  dsimp only
  split <;> rfl

@[simp] theorem holdFlips_hbm (c x : Nat) (l : List BarFlip) : (s.holdFlips c x l).hbm = s.hbm := rfl

variable {s}

/-- The save of a sequencer unit alone whose image holds the binding table only ends with the copy of that table (R108). -/
theorem saveBytes_hbm {c x base : Nat} {im : SaveImage} (hb : (s.ctx x).imageBase c = (0, base)) (hs : im.sset = 4)
    (hi : im.bands = []) (new : List Nat) :
    ∃ m, (s.saveBytes c x im true new).hbm = (s.core c).bind.blit 0 0x2000 m (base + 0x11000) := by
  simp [State.saveBytes, hb, hs, hi]
  exact ⟨_, rfl⟩

/-- So does the save of a core that only its sequencer unit leaves. -/
theorem saveCore_hbm {c x t base : Nat} (hb : (s.ctx x).imageBase c = (0, base)) (hs : (s.ctx x).sset = 4) (hi : (s.ctx x).images = [])
    (hw : (s.core c).seqLeaves x t = true) (hl : (s.core c).leaving x t = []) :
    ∃ m, (s.saveCore c x t).hbm = (s.core c).bind.blit 0 0x2000 m (base + 0x11000) := by
  unfold State.saveCore
  simp only [coreFreed_hbm, settlePreempt_hbm, hw, hl]
  refine saveBytes_hbm hb ?_ ?_ _
  · simpa using hs
  · simp [hi, aget_nil]

/-- CORE_SAVE_COMPLETE saves a core that only its sequencer unit leaves once that unit is at rest. -/
theorem evCoreSaveComplete_hbm {f : Nat × Nat × Nat} (hf : ((s.ctx s.rx).freezing.find? fun f => f.1 = s.rcore) = some f)
    (hl : (s.core s.rcore).leaving s.rx f.2.1 = []) (hr : (s.core s.rcore).atRest = true)
    (hn : (s.core s.rcore).lanesAtRest (laneUnitsOf []) = true) (hp : s.pens = []) :
    (evCoreSaveComplete s).hbm = (s.saveCore s.rcore s.rx f.2.1).hbm := by
  unfold evCoreSaveComplete
  simp only [hf, hl, hr, hn, hp]
  simp only [List.any_nil, Bool.not_true, Bool.and_false, Bool.or_false, Bool.false_eq_true, if_false]
  split <;> rfl

end

/-! ### A state whose binding table is not in canonical form -/

/-- Core 0 runs a unit of context 0; its binding table lists two bytes in falling order of their addresses. -/
def coreFallingBind : Core :=
  { Core.reset with unit := some ⟨0, 0, 1, none, 0, 0, false⟩, bind := ⟨[(1, 1), (0, 1)], []⟩ }

/-- Context 0 while core 0 is frozen for a save that takes units of the classes below 15 and whose image holds the binding table only (SSET bit 2). -/
def ctxSavingBind : Context := { Context.reset with sset := 4, freezing := [(0, 15, 0)] }

/-- The device just before CORE_SAVE_COMPLETE of core 0. -/
def beforeBindSave : State :=
  { (State.reset.setCore 0 coreFallingBind).onCtx 0 fun _ => ctxSavingBind with
    agenda := [.event .coreSaveComplete Request.zero] }

/-- The same as the event sees it. -/
def atBindSave : State := { beforeBindSave with fresh := 1, agenda := [], cur := .env, req := Request.zero }

theorem core_reset (c : Nat) : State.reset.core c = Core.reset := by
  simp only [State.core, State.reset, Vector.getElem?_replicate]
  split <;> rfl

theorem core_atBindSave : atBindSave.core 0 = coreFallingBind := State.core_setCore_same _ (by decide) _

theorem ctx_atBindSave : atBindSave.ctx 0 = ctxSavingBind :=
  State.ctx_onCtx_same (State.reset.setCore 0 coreFallingBind) (by decide) fun _ => ctxSavingBind

/-- Its homes, tile stores and scalar stores are stores of zeros. -/
theorem beforeBindSave_canonical : storesCanonical beforeBindSave := by
  refine ⟨rfl, rfl, fun c _ => ?_⟩
  by_cases hc : c = 0
  · subst hc
    exact ⟨rfl, rfl⟩
  · have hk : beforeBindSave.core c = Core.reset := (State.core_setCore_ne _ hc _).trans (core_reset c)
    rw [hk]
    exact ⟨rfl, rfl⟩

theorem step_beforeBindSave : step beforeBindSave = .next (evCoreSaveComplete atBindSave) := by
  have hp : beforeBindSave.pst = 0 := rfl
  have ha : beforeBindSave.agenda = [.event .coreSaveComplete Request.zero] := rfl
  simp only [step, State.nextTurn, State.nextPick, ha, State.turn, hp]
  rfl

/-- The save copies the binding table as it is listed. -/
theorem bindSave_hbm : ∃ m, (evCoreSaveComplete atBindSave).hbm = coreFallingBind.bind.blit 0 0x2000 m 0x11000 := by
  have hsave := saveCore_hbm (s := atBindSave) (x := 0) (c := 0) (t := 15) (base := 0)
  have hev := evCoreSaveComplete_hbm (s := atBindSave) (f := (0, 15, 0))
  rw [show atBindSave.rx = 0 from rfl, show atBindSave.rcore = 0 from rfl] at hev
  rw [ctx_atBindSave, core_atBindSave] at hsave hev
  rw [hev rfl rfl (by decide +kernel) (by decide +kernel) rfl]
  exact hsave rfl rfl rfl rfl rfl

/-- A copy of two bytes that are listed in falling order is not in canonical form. -/
theorem blit_falling_not_wf (m : Memory) : (coreFallingBind.bind.blit 0 0x2000 m 0x11000).wf ≠ true := by
  intro h
  obtain ⟨hp, -⟩ := (Memory.wf_iff _).mp h
  obtain ⟨hinit, -, -⟩ := List.pairwise_append.mp hp
  obtain ⟨-, hmoved, -⟩ := List.pairwise_append.mp hinit
  simp [coreFallingBind, cellsBelow, cellsFrom] at hmoved

/-- Refutes O60: CORE_SAVE_COMPLETE copies the binding table, of which `storesCanonical` says nothing, into a home. From a state whose stores are in
canonical form and whose binding table is not, it leads to a state whose HBM is not. -/
theorem not_stepsKeepStoresCanonical : ¬ Obligations.StepsKeepStoresCanonical := by
  unfold Obligations.StepsKeepStoresCanonical
  intro h
  obtain ⟨hhbm, -⟩ := h _ _ beforeBindSave_canonical step_beforeBindSave
  obtain ⟨m, hm⟩ := bindSave_hbm
  exact blit_falling_not_wf m (hm ▸ hhbm)

end Sys2Proof.Proofs
end

section
/-!
SUPPORT. What the sequencer's link commands leave: changes of one core one after the other, the reads of a slot after such a change, and the cores
after a packet has been sent.
-/

namespace Sys2Proof.Proofs

open Sys2Proof Sys2Proof.Machine Sys2Proof.Claims

/-! ### Changes of one core -/

section
variable {s : State} {c : Nat}

/-- Two changes of a core are one. -/
theorem onCore_onCore (hc : c < 64) (f g : Core → Core) : (s.onCore c f).onCore c g = s.onCore c fun k => g (f k) := by
  rw [State.onCore, State.core_onCore_same _ hc, State.onCore, State.setCore_setCore, State.onCore]

/-- A change of the core whose sequencer acts leaves what its slots read alone when it leaves the sequencer alone. -/
theorem seqRead_onCore (hc : s.cur = .seq c) (h : c < 64) {f : Core → Core} (hf : (f (s.core c)).seq = (s.core c).seq) (pos file reg : Nat) :
    (s.onCore c f).seqRead pos file reg = s.seqRead pos file reg := by
  have hpre : (s.onCore c f).preCore.seq = s.preCore.seq := by
    simp only [State.preCore, State.onCore_pre]
    cases s.pre with
    | some k => rfl
    | none =>
      have hid : s.seqId = c := State.seqId_eq hc
      simp only [Option.getD_none, State.seqId, State.onCore_cur, hc, State.core_onCore_same _ h, hf]
  simp only [State.seqRead, hpre, State.onCore_cycle, State.onCore_frame, State.free, State.onCore_fresh]

/-- Nothing outside a core changes when the core changes and identifiers are given out. -/
theorem outside_onCore (n : Nat) (f : Core → Core) : outside s ({ s with nextId := n }.onCore c f) c :=
  ⟨rfl, fun _ he => State.core_onCore_ne _ he f⟩

end

/-! ### Packets -/

/-- What sending a packet leaves alone. -/
structure CoresStay (s t : State) : Prop where
  cores : t.cores = s.cores
  cur : t.cur = s.cur
  cycle : t.cycle = s.cycle

theorem CoresStay.refl (s : State) : CoresStay s s := ⟨rfl, rfl, rfl⟩

theorem CoresStay.core {s t : State} (h : CoresStay s t) (c : Nat) : t.core c = s.core c := by rw [State.core, h.cores, State.core]

section
variable {s t : State}

theorem CoresStay.toPort (h : CoresStay s t) (p : Packet) : CoresStay s (t.toPort p) := by
  unfold State.toPort
  split <;> exact ⟨h.cores, h.cur, h.cycle⟩

theorem CoresStay.emit (h : CoresStay s t) (p : Packet) : CoresStay s (t.emit p) := by
  unfold State.emit
  dsimp only
  refine CoresStay.toPort ?_ _
  exact ⟨h.cores, h.cur, h.cycle⟩

theorem CoresStay.launchPacket (h : CoresStay s t) (p : Packet) (req : Option Nat) : CoresStay s (t.launchPacket p req) := by
  unfold State.launchPacket
  dsimp only
  refine CoresStay.emit ?_ _
  cases req <;> exact ⟨h.cores, h.cur, h.cycle⟩

theorem CoresStay.sendSeq (h : CoresStay s t) (p : Packet) (req : Option Nat) : CoresStay s (t.sendSeq p req) := by
  unfold State.sendSeq
  split
  · exact ⟨h.cores, h.cur, h.cycle⟩
  · exact h.launchPacket p req

/-- Sending a packet on behalf of a context changes no core. -/
theorem CoresStay.sendFor (h : CoresStay s t) (x : Nat) (p : Packet) (req : Option Nat) : CoresStay s (t.sendFor x p req) := by
  unfold State.sendFor
  dsimp only
  split
  · split
    · split
      · cases req <;> exact ⟨h.cores, h.cur, h.cycle⟩
      · refine CoresStay.emit ?_ _
        cases req <;> exact ⟨h.cores, h.cur, h.cycle⟩
    · exact h.sendSeq _ _
  · split
    · refine CoresStay.sendSeq ?_ _ _
      exact ⟨h.cores, h.cur, h.cycle⟩
    · exact h.sendSeq _ _

end

/-! ### TSEND, COLL and TRECV -/

section
variable {s : State} {c : Nat}

/-- The device after an identifier has been given out. -/
def bumpId (s : State) : State := s.newId.2

theorem newId_eq (s : State) : s.newId = (s.nextId, bumpId s) := rfl
@[simp] theorem bumpId_cur (s : State) : (bumpId s).cur = s.cur := rfl
@[simp] theorem bumpId_core (s : State) (c : Nat) : (bumpId s).core c = s.core c := rfl
theorem onCore_bumpId (s : State) (c : Nat) (f : Core → Core) : bumpId (s.onCore c f) = (bumpId s).onCore c f := rfl
theorem rt_bumpId (s : State) (pos : Nat) (t : BitVec 6) : (bumpId s).rt pos t = s.rt pos t := rfl

theorem onSeqCore_eq (h : s.cur = .seq c) (f : Core → Core) : s.onSeqCore f = s.onCore c f := by
  rw [State.onSeqCore, State.seqId_eq h]

/-- A handle that the class accepts is taken (R162). -/
theorem takeHandle_eq {n : BitVec 6} {k : AClass} (h : (s.preCore.entry n.toNat).accepts k = true) (f : State → State) :
    s.takeHandle n k f = f (s.onSeqCore fun x => x.takeRow n.toNat k) := by
  simp only [State.takeHandle, h, if_true]

/-- The entry that a `TSEND` enters (R382). -/
def sendCmd (s : State) (t a b : BitVec 6) (e : Chan) : LqCmd :=
  { LqCmd.zero with
    id := s.nextId, op := .tsend, treg := t, handle := s.rt 2 t, dest := s.rs 0 a, key := (s.rs 1 b).truncate 32, msg := e.sent % 2 ^ 24 }

/-- What `TSEND` makes of its core: the tile has one more copy reader, the entry stands in the send queue, the channel has counted the message. -/
def coreSends (ch : Nat) (m : LqCmd) (i : Nat) (e : Chan) (k : Core) : Core :=
  { (k.addCopy m.treg.toNat).onSendQ ch (· ++ [m]) with
    chtab := aput k.chtab i { e with key := m.key, pending := e.pending + 1, sent := e.sent + 1 } }

theorem accepts_copy {t : BitVec 6} (h : readable s t) (hx : (s.preCore.entry t.toNat).xrd < 63) :
    (s.preCore.entry t.toNat).accepts .copy = true := by
  rcases h with h | h | h <;> simp [TEntry.accepts, h, hx]

theorem accepts_filler {t : BitVec 6} (h : fillable s t) : (s.preCore.entry t.toNat).accepts .filler = true := by
  rcases h with h | h <;> simp [TEntry.accepts, h]

theorem issueTsend_eq {ch i : Nat} {t a b : BitVec 6} {e : Chan} (hcur : s.cur = .seq c) (hc : c < 64) (hq : (s.preCore.sendQ ch).length < 16)
    (ha : (s.preCore.entry t.toNat).accepts .copy = true) (hw : bf (s.rs 0 a).toNat 22 42 = 0) (hk : bf (s.rs 1 b).toNat 32 32 = 0)
    (hb : b ≠ 0) (hch : s.preCore.chanFor (s.rs 0 a) = some (i, e)) (he : e.pending < 16) :
    s.issueTsend ch t a b = (bumpId s).onCore c (coreSends ch (sendCmd s t a b e) i e) := by
  have hrt : (s.onCore c fun k => k.takeRow t.toNat .copy).rt 2 t = s.rt 2 t := seqRead_onCore hcur hc rfl 2 2 t.toNat
  simp only [State.issueTsend, ha, State.room, hq, hw, hk, hb, hch, takeHandle_eq ha, onSeqCore_eq hcur, newId_eq, rt_bumpId, hrt,
    onCore_bumpId]
  simp only [Bool.not_true, Bool.and_false, Bool.false_eq_true, if_false, decide_true, if_true, ne_eq, not_true_eq_false, decide_false, Bool.or_false,
    Bool.false_and, not_le.mpr he]
  exact (onSeqCore_eq (s := (bumpId s).onCore c _) hcur _).trans (onCore_onCore hc _ _)

theorem sendQ_onSendQ {k : Core} {q : Nat} (h : q < 4) (f : List LqCmd → List LqCmd) : (k.onSendQ q f).sendQ q = f (k.sendQ q) := by
  simp [Core.onSendQ, Core.sendQ, h]

theorem sendQ_coreSends {ch : Nat} (h : ch < 4) (m : LqCmd) (i : Nat) (e : Chan) (k : Core) :
    (coreSends ch m i e k).sendQ ch = k.sendQ ch ++ [m] := sendQ_onSendQ (k := k.addCopy m.treg.toNat) h (· ++ [m])

theorem chtab_coreSends (ch : Nat) (m : LqCmd) (i : Nat) (e : Chan) (k : Core) :
    aget (coreSends ch m i e k).chtab i = some { e with key := m.key, pending := e.pending + 1, sent := e.sent + 1 } := aget_aput_same _ _ _

theorem xrd_coreSends (ch : Nat) (m : LqCmd) (i : Nat) (e : Chan) (k : Core) :
    ((coreSends ch m i e k).entry m.treg.toNat).xrd = (k.entry m.treg.toNat).xrd + 1 := by
  simp [coreSends, Core.onSendQ, Core.addCopy, Core.onEntry, Core.entry, aget_aput_same, TEntry.byCounts]

/-- A core that keeps its sequencer, stores, binding table, bands and the rest of what the engines' queues do not hold: `keepsCore` said of cores. -/
def coreKeeps (k j : Core) : Prop :=
  j.seq = k.seq ∧ j.unit = k.unit ∧ j.tile = k.tile ∧ j.scalar = k.scalar ∧ j.bind = k.bind ∧ j.bands = k.bands ∧ j.invs = k.invs
  ∧ j.leaves = k.leaves ∧ j.rq = k.rq ∧ j.list = k.list ∧ j.credits = k.credits ∧ j.watch = k.watch

theorem keepsCore_iff (s t : State) (c : Nat) : keepsCore s t c ↔ coreKeeps (s.core c) (t.core c) := Iff.rfl

theorem coreSends_keeps (ch : Nat) (m : LqCmd) (i : Nat) (e : Chan) (k : Core) : coreKeeps k (coreSends ch m i e k) :=
  ⟨rfl, rfl, rfl, rfl, rfl, rfl, rfl, rfl, rfl, rfl, rfl, rfl⟩

theorem onSendQ_keeps (ch : Nat) (f : List LqCmd → List LqCmd) (k : Core) : coreKeeps k (k.onSendQ ch f) :=
  ⟨rfl, rfl, rfl, rfl, rfl, rfl, rfl, rfl, rfl, rfl, rfl, rfl⟩

/-- R382: what a `TSEND` that issues leaves. -/
theorem seqTsend_enters {p : Pred} {ch : BitVec 2} {t a b : BitVec 6} {i : Nat} {e : Chan} (hs : slotOn s c p)
    (hq : (s.preCore.sendQ ch.toNat).length < 16) (hr : readable s t) (hx : (s.preCore.entry t.toNat).xrd < 63) (hw : bf (s.rs 0 a).toNat 22 42 = 0)
    (hk : bf (s.rs 1 b).toNat 32 32 = 0) (hb : b ≠ 0) (hch : s.preCore.chanFor (s.rs 0 a) = some (i, e)) (he : e.pending < 16) :
    ∃ u m, exec (.seqTsend p ch t a b) s = .next u ∧ (u.core c).sendQ ch.toNat = (s.core c).sendQ ch.toNat ++ [m]
      ∧ m.op = .tsend ∧ m.handle = s.rt 2 t ∧ m.dest = s.rs 0 a ∧ m.key.toNat = (s.rs 1 b).toNat ∧ m.msg = e.sent % 2 ^ 24
      ∧ aget (u.core c).chtab i = some { e with key := m.key, pending := e.pending + 1, sent := e.sent + 1 }
      ∧ ((u.core c).entry t.toNat).xrd = ((s.core c).entry t.toNat).xrd + 1 ∧ keepsCore s u c ∧ outside s u c := by
  obtain ⟨hcur, hc, hp⟩ := hs
  have hrun : exec (.seqTsend p ch t a b) s = .next (s.issueTsend ch.toNat t a b) := State.slotRun_true hp fun s => s.issueTsend ch.toNat t a b
  rw [issueTsend_eq hcur hc hq (accepts_copy hr hx) hw hk hb hch he] at hrun
  have hcore : ((bumpId s).onCore c (coreSends ch.toNat (sendCmd s t a b e) i e)).core c = coreSends ch.toNat (sendCmd s t a b e) i e (s.core c) :=
    State.core_onCore_same _ hc _
  refine ⟨_, sendCmd s t a b e, hrun, ?_, rfl, rfl, rfl, ?_, rfl, ?_, ?_, ?_, outside_onCore _ _⟩
  · rw [hcore]
    exact sendQ_coreSends ch.isLt _ _ _ _
  · have : (s.rs 1 b).toNat < 2 ^ 32 := by simp only [bf, Nat.shiftRight_eq_div_pow] at hk; omega
    simpa [sendCmd] using this
  · rw [hcore]
    exact chtab_coreSends _ _ _ _ _
  · rw [hcore]
    exact xrd_coreSends _ _ _ _ _
  · rw [keepsCore_iff, hcore]
    exact coreSends_keeps _ _ _ _ _

/-- The entry that a `COLL` enters (R387). -/
def collCmd (s : State) (a : BitVec 6) (kind op : Nat) (res : Bool) : LqCmd :=
  let d := BitVec.ofNat 512 (natOfBytes (s.scalarBytes s.preCore (s.rs 0 a).toNat 64))
  { LqCmd.zero with
    id := s.nextId, op := .coll, desc := d, descAddr := (s.rs 0 a).toNat, ordinal := (aget s.collCount (cl d 192 8)).getD 0,
    opt := BitVec.ofNat 15 (kind + op * 4 + b2n res * 32) }

/-- The device whose next collective of a group has the given ordinal. -/
def countColl (s : State) (g n : Nat) : State := { s with collCount := aput s.collCount g n }

theorem issueColl_eq {ch kind op : Nat} {a : BitVec 6} {res : Bool} (hcur : s.cur = .seq c) (hq : (s.preCore.sendQ ch).length < 16)
    (hal : (s.rs 0 a).toNat % 64 = 0) (hle : (s.rs 0 a).toNat ≤ 0xFFC0)
    (hok : s.collOk (s.preCore.unitCtx / 16) (s.rs 0 a).toNat kind op res (collCmd s a kind op res).desc = true) :
    let m := collCmd s a kind op res
    s.issueColl ch a kind op res = (countColl (bumpId s) (cl m.desc 192 8) (m.ordinal + 1)).onCore c fun k => k.onSendQ ch (· ++ [m]) := by
  simp only [collCmd] at hok
  simp only [State.issueColl, State.room, hq, hal, hle, hok, decide_true, Bool.and_self, if_true, Bool.not_true, Bool.false_eq_true, if_false, newId_eq]
  exact onSeqCore_eq (s := countColl (bumpId s) _ _) hcur _

/-- R387, R388: what a `COLL` that issues leaves. -/
theorem seqColl_enters {p : Pred} {ch : BitVec 2} {a : BitVec 6} {kind : BitVec 2} {op : BitVec 3} {res : Bool} (hs : slotOn s c p)
    (hq : (s.preCore.sendQ ch.toNat).length < 16) (hal : (s.rs 0 a).toNat % 64 = 0) (hle : (s.rs 0 a).toNat ≤ 0xFFC0) :
    let d := BitVec.ofNat 512 (natOfBytes (s.scalarBytes s.preCore (s.rs 0 a).toNat 64))
    s.collOk (s.preCore.unitCtx / 16) (s.rs 0 a).toNat kind.toNat op.toNat res d = true →
    ∃ u m, exec (.seqColl p ch a kind op res) s = .next u ∧ (u.core c).sendQ ch.toNat = (s.core c).sendQ ch.toNat ++ [m]
      ∧ m.op = .coll ∧ m.desc = d ∧ m.ordinal = (aget s.collCount (cl d 192 8)).getD 0
      ∧ aget u.collCount (cl d 192 8) = some (m.ordinal + 1) ∧ keepsCore s u c ∧ ∀ e, e ≠ c → u.core e = s.core e := by
  intro d hok
  obtain ⟨hcur, hc, hp⟩ := hs
  let m := collCmd s a kind.toNat op.toNat res
  have hrun : exec (.seqColl p ch a kind op res) s = .next (s.issueColl ch.toNat a kind.toNat op.toNat res) :=
    State.slotRun_true hp fun s => s.issueColl ch.toNat a kind.toNat op.toNat res
  rw [issueColl_eq hcur hq hal hle hok] at hrun
  have hcore := State.core_onCore_same (countColl (bumpId s) (cl m.desc 192 8) (m.ordinal + 1)) hc fun k => k.onSendQ ch.toNat (· ++ [m])
  refine ⟨_, m, hrun, ?_, rfl, rfl, rfl, aget_aput_same _ _ _, ?_, fun e he => State.core_onCore_ne _ he _⟩
  · rw [hcore]
    exact sendQ_onSendQ ch.isLt _
  · rw [keepsCore_iff, hcore]
    exact onSendQ_keeps _ _ _

/-! TRECV -/

/-- What the head message's pull makes of a receive queue (R383). -/
def pulled (n : Note) (rest : List Note) (id : Nat) (t : Nat) (h : Word) (r : RecvQ) : RecvQ :=
  { r with notes := rest, pulls := r.pulls ++ [⟨n.msg, id, BitVec.ofNat 6 t, h, 0, n.bytes⟩], ended := false }

/-- A pull changes the receive queue of its core and sends a packet. -/
theorem pull_stays {q x t : Nat} {h : Word} {n : Note} {rest : List Note} (hn : ((s.core c).recvQ q).notes = n :: rest)
    (hch : ((s.core c).recvQ q).chan.isSome = true) :
    CoresStay (s.onCore c fun k => k.onRecvQ q (pulled n rest s.nextId t h)) (s.pull c q x t h) := by
  obtain ⟨⟨dev, src⟩, hd⟩ := Option.isSome_iff_exists.mp hch
  simp only [State.pull, hn, hd, State.newId]
  refine CoresStay.sendFor ?_ _ _ _
  exact ⟨rfl, rfl, rfl⟩

theorem recvQ_onRecvQ (k : Core) (q : Nat) (f : RecvQ → RecvQ) : (k.onRecvQ q f).recvQ q = f (k.recvQ q) := by
  simp [Core.onRecvQ, Core.recvQ, aget_aput_same]

/-- What `TRECV` makes of its core once the head message is asked for: the tile fills, the range is held, the sequencer owns the queue. -/
def coreReceives (t q id : Nat) (h : Word) (n : Note) (rest : List Note) (k : Core) : Core :=
  let k := (k.toState t .filling).onRecvQ q (pulled n rest id t h)
  (k.addRange (hBase h) (hEnd h) (.recv (((k.recvQ q).pulls.getLast?.map fun p => p.id).getD 0))).onRecvQ q fun r => { r with owner := .seq }

theorem coreReceives_spec (t q id : Nat) (h : Word) (n : Note) (rest : List Note) (k : Core) :
    ((coreReceives t q id h n rest k).entry t).st = .filling ∧ ((coreReceives t q id h n rest k).recvQ q).owner = .seq
      ∧ ((coreReceives t q id h n rest k).recvQ q).notes = rest ∧ (coreReceives t q id h n rest k).seq = k.seq
      ∧ (coreReceives t q id h n rest k).tile = k.tile ∧ (coreReceives t q id h n rest k).scalar = k.scalar := by
  refine ⟨?_, ?_, ?_, rfl, rfl, rfl⟩
  · simp [coreReceives, Core.onRecvQ, Core.addRange, Core.toState, Core.onEntry, Core.entry, aget_aput_same]
  · simp [coreReceives, recvQ_onRecvQ]
  · rw [coreReceives, recvQ_onRecvQ]
    show (((k.toState t .filling).onRecvQ q (pulled n rest id t h)).recvQ q).notes = rest
    rw [recvQ_onRecvQ, pulled]

/-- R383: what a `TRECV` that issues leaves. -/
theorem seqTrecv_asks {p : Pred} {t : BitVec 6} {q : BitVec 4} {n : Note} {rest : List Note} (hs : slotOn s c p) (hf : fillable s t)
    (hr : s.preCore.ranges.length < 32) (hpre : s.preCore.recvQ q.toNat = (s.core c).recvQ q.toNat)
    (ho : ((s.core c).recvQ q.toNat).owner = .seq) (hch : ((s.core c).recvQ q.toNat).chan.isSome = true)
    (hlog : s.loggedMessage s.preCore.unitCtx c q.toNat = none) (hn : ((s.core c).recvQ q.toNat).notes = n :: rest)
    (hrows : hRows (s.rt 2 t) = n.rows) (hcols : hCols (s.rt 2 t) = n.cols) (hfmt : hFmt (s.rt 2 t) = n.fmt) :
    ∃ u, exec (.seqTrecv p t q) s = .next u ∧ ((u.core c).entry t.toNat).st = .filling
      ∧ ((u.core c).recvQ q.toNat).owner = .seq ∧ ((u.core c).recvQ q.toNat).notes = rest
      ∧ (u.core c).seq = (s.core c).seq ∧ (u.core c).tile = (s.core c).tile ∧ (u.core c).scalar = (s.core c).scalar := by
  obtain ⟨hcur, hc, hp⟩ := hs
  have ha := accepts_filler hf
  have hid : s.seqId = c := State.seqId_eq hcur
  let s1 := s.onCore c fun k => k.toState t.toNat .filling
  let s2 := s1.pull c q.toNat s.preCore.unitCtx t.toNat (s.rt 2 t)
  have hrun : exec (.seqTrecv p t q) s = .next (s.issueTrecv t q.toNat) := State.slotRun_true hp fun s => s.issueTrecv t q.toNat
  have hcore1 : s1.core c = (s.core c).toState t.toNat .filling := State.core_onCore_same _ hc _
  have hpull : CoresStay _ s2 := pull_stays (s := s1) (c := c) (by rw [hcore1]; exact hn) (by rw [hcore1]; exact hch)
  have hcur2 : s2.cur = .seq c := hpull.cur.trans hcur
  have hid1 : (s.onCore c fun k => k.takeRow t.toNat .filler).seqId = c := State.seqId_eq (s := s1) hcur
  have hissue : s.issueTrecv t q.toNat = s2.onCore c fun k =>
      (k.addRange (hBase (s.rt 2 t)) (hEnd (s.rt 2 t)) (.recv (((k.recvQ q.toNat).pulls.getLast?.map fun p => p.id).getD 0))).onRecvQ q.toNat
        fun r => { r with owner := .seq } := by
    simp only [State.issueTrecv, ha, hid, hlog, hpre, hn, ho, hrows, hcols, hfmt, takeHandle_eq ha, onSeqCore_eq hcur, Bool.not_true, Bool.and_false,
      Bool.false_eq_true, if_false, not_le.mpr hr, List.isEmpty_cons, Bool.false_and, Option.isNone_none, decide_true, Bool.and_self,
      hid1]
    exact onSeqCore_eq hcur2 _
  rw [hissue] at hrun
  have hcore2 : s2.core c = ((s.core c).toState t.toNat .filling).onRecvQ q.toNat (pulled n rest s1.nextId t.toNat (s.rt 2 t)) := by
    rw [hpull.core, State.core_onCore_same _ hc, hcore1]
  refine ⟨_, hrun, ?_⟩
  rw [State.core_onCore_same _ hc, hcore2]
  exact coreReceives_spec t.toNat q.toNat s1.nextId (s.rt 2 t) n rest (s.core c)

/-- R382, R383, R387, R388. -/
theorem seqLinkCommands : SeqLinkCommands := by
  intro p ch t a b q kind op res s c hs
  refine ⟨fun hq => ⟨?_, fun hal hle => seqColl_enters hs hq hal hle⟩, ?_⟩
  · intro hr hx hw hk hb i e hch he
    exact seqTsend_enters hs hq hr hx hw hk hb hch he
  · intro hf hr hpre ho hch hlog n rest hn hrows hcols hfmt
    exact seqTrecv_asks hs hf hr hpre ho hch hlog hn hrows hcols hfmt

end

/-! ### The keys of regions, and patches -/

section
variable {s : State} {c : Nat}

/-- The context whose record of an index has a new CHECK, admitting requests from `from_` on (R379). -/
def rekeyed (n check admits : Nat) (k : Context) : Context :=
  { k with checks := aput k.checks n check, keyFrom := aput k.keyFrom n admits }

/-- The CHECK after an index's last one (R378). -/
def nextCheck (k : Context) (n : Nat) : Nat :=
  let last := (aget k.checks n).getD 0
  if last = 4095 then 1 else last + 1

/-- R379: SYS.RKREG writes a free record under the next CHECK. -/
theorem seqSysRkreg_registers {p : Pred} {a b : BitVec 6} (hs : slotOn s c p) (hal : (s.rs 0 a).toNat % 32 = 0)
    (hle : (s.rs 0 a).toNat + 32 ≤ 0x10000) (hn : (s.rs 1 b).toNat ≤ 4095) (hk : baseSet (s.ctx s.preCore.unitCtx).keys = true) :
    let x := s.preCore.unitCtx
    let n := (s.rs 1 b).toNat
    let r := BitVec.ofNat 256 (natOfBytes (s.scalarBytes s.preCore (s.rs 0 a).toNat 32))
    let place := (s.ctx x).regionPlace n
    let check := nextCheck (s.ctx x) n
    regionOk r (s.ctx x).cores = true → s.regionInside x n = true → (s.region x n).getLsbD 63 = false →
    exec (.seqSysRkreg p 0 a b) s
      = .next ((s.onCtx x (rekeyed n check (s.cycle + 32))).homeWrite place.1 place.2 (bytesOfNat 32 (r.toNat ||| 1 <<< 63 ||| check))) := by
  intro x n r place check hr hin hv
  rw [show exec _ s = execSeqSysRkreg p 0 a b s from rfl, execSeqSysRkreg, State.slotRun_true hs.2.2]
  refine congrArg _ ?_
  simp only [hal, hk, not_lt.mpr hle, not_lt.mpr hn, ne_eq, not_true_eq_false, decide_false, Bool.or_self, Bool.not_true, Bool.false_eq_true, if_false]
  rw [if_neg (by simpa using hr), if_neg (by simpa using hin), if_neg (by simpa using hv)]
  exact State.ws_zero _ _ _

/-- R10, R378: a record outside the polders is not written by SYS.RKREG. -/
theorem seqSysRkreg_outside {p : Pred} {d a b : BitVec 6} (hs : slotOn s c p) (hal : (s.rs 0 a).toNat % 32 = 0)
    (hle : (s.rs 0 a).toNat + 32 ≤ 0x10000) (hn : (s.rs 1 b).toNat ≤ 4095) (hk : baseSet (s.ctx s.preCore.unitCtx).keys = true)
    (hr : regionOk (BitVec.ofNat 256 (natOfBytes (s.scalarBytes s.preCore (s.rs 0 a).toNat 32))) (s.ctx s.preCore.unitCtx).cores = true)
    (hin : s.regionInside s.preCore.unitCtx (s.rs 1 b).toNat = false) :
    exec (.seqSysRkreg p d a b) s = .next (s.breaks s.preCore.unitCtx) := by
  rw [show exec _ s = execSeqSysRkreg p d a b s from rfl, execSeqSysRkreg, State.slotRun_true hs.2.2]
  refine congrArg _ ?_
  simp only [hal, hk, not_lt.mpr hle, not_lt.mpr hn, ne_eq, not_true_eq_false, decide_false, Bool.or_self, Bool.not_true, Bool.false_eq_true, if_false,
    hr, hin, Bool.not_false, if_true]

/-- What SYS.RKREV does with a key of its own context (R380). -/
theorem seqSysRkrev_eq {p : Pred} {a : BitVec 6} (hs : slotOn s c p) (hlt : (s.rs 0 a).toNat < 2 ^ 32)
    (hx : bf (s.rs 0 a).toNat 24 8 = s.preCore.unitCtx) (hk : baseSet (s.ctx s.preCore.unitCtx).keys = true) :
    let x := s.preCore.unitCtx
    let n := bf (s.rs 0 a).toNat 12 12
    let r := s.region x n
    let place := (s.ctx x).regionPlace n
    exec (.seqSysRkrev p a) s = .next
      (if s.regionInside x n = false then s.breaks x
       else if !r.getLsbD 63 || decide (bf r.toNat 0 12 ≠ bf (s.rs 0 a).toNat 0 12) then s
       else s.homeWrite place.1 place.2 (bytesOfNat 32 (r.toNat &&& (2 ^ 256 - 1 - 2 ^ 63)))) := by
  intro x n r place
  rw [show exec _ s = execSeqSysRkrev p a s from rfl, execSeqSysRkrev, State.slotRun_true hs.2.2]
  refine congrArg _ ?_
  simp only [not_le.mpr hlt, hx, hk, decide_false, ne_eq, not_true_eq_false, Bool.or_self, Bool.false_eq_true, if_false, Bool.true_and, Bool.not_true,
    Bool.false_or, Bool.not_eq_true']
  rfl

/-- All bits of a record but its V. -/
def withoutV : Nat := 2 ^ 256 - 1 - 2 ^ 63

theorem testBit_withoutV {j : Nat} (hj : j < 256) : withoutV.testBit j = decide (j ≠ 63) := by
  have h : withoutV = (2 ^ 256 - 1) ^^^ 2 ^ 63 := rfl
  rw [h, Nat.testBit_xor, Nat.testBit_two_pow_sub_one, Nat.testBit_two_pow, decide_eq_true hj]
  simp [eq_comm]

theorem clearV_spec (r : BitVec 256) :
    (r.toNat &&& withoutV).testBit 63 = false ∧ ∀ j < 256, j ≠ 63 → (r.toNat &&& withoutV).testBit j = r.getLsbD j := by
  refine ⟨?_, fun j hj hne => ?_⟩
  · rw [Nat.testBit_and, testBit_withoutV (by decide)]
    exact Bool.and_false _
  · rw [Nat.testBit_and, testBit_withoutV hj, decide_eq_true hne, Bool.and_true, BitVec.getLsbD]

/-- What IPATCH does where its operands, tensor and translation are in order and the line lies in a home of the device (R404). -/
theorem seqIpatch_eq {p : Pred} {a b : BitVec 6} (hs : slotOn s c p) (ha : (s.rs 0 a).toNat % 32 = 0) (hb : (s.rs 1 b).toNat % 32 = 0)
    (hle : (s.rs 1 b).toNat + 32 ≤ 0x10000) {r : BitVec 512} {h ad : Nat} (hr : s.checkTensor (some c) s.preCore.unitCtx (s.rs 0 a) 32 = .ok r)
    (ht : s.translate (some c) s.preCore.unitCtx r (s.rs 0 a) 32 .write = .ok (.home h ad)) :
    exec (.seqIpatch p a b false) s = .next (((s.touch c s.preCore.unitCtx r (s.rs 0 a) .write).homeWrite h ad
      (s.scalarBytes s.preCore (s.rs 1 b).toNat 32)).onSeq fun q => { q with patching := true }) := by
  rw [show exec _ s = execSeqIpatch p a b false s from rfl, execSeqIpatch, State.slotRun_true hs.2.2]
  refine congrArg _ ?_
  simp only [Bool.false_eq_true, if_false, ha, hb, not_lt.mpr hle, ne_eq, not_true_eq_false, decide_false, Bool.or_self, State.seqId_eq hs.1, hr, ht]
  rfl

/-- R404: the arguments that IPATCH refuses. -/
theorem seqIpatch_refused {p : Pred} {a b : BitVec 6} (hs : slotOn s c p)
    (h : (s.rs 0 a).toNat % 32 ≠ 0 ∨ (s.rs 1 b).toNat % 32 ≠ 0 ∨ 0x10000 < (s.rs 1 b).toNat + 32) :
    exec (.seqIpatch p a b false) s = .next (s.faultOn .ipatchArg) := by
  have hbad : (decide ((s.rs 0 a).toNat % 32 ≠ 0) || decide ((s.rs 1 b).toNat % 32 ≠ 0) || decide (0x10000 < (s.rs 1 b).toNat + 32)) = true := by
    simpa [or_assoc] using h
  rw [show exec _ s = execSeqIpatch p a b false s from rfl, execSeqIpatch, State.slotRun_true hs.2.2]
  refine congrArg _ ?_
  simp only [Bool.false_eq_true, if_false, hbad, if_true]

theorem homeWrite_cur (s : State) (h a : Nat) (bs : List Byte) : (s.homeWrite h a bs).cur = s.cur := by
  unfold State.homeWrite State.setHome
  split <;> rfl

/-- What a layout unit keeps of a translation leaves the acting agent alone. -/
theorem touch_cur (s : State) (c x : Nat) (r : BitVec 512) (a : Word) (k : AKind) : (s.touch c x r a k).cur = s.cur := by
  unfold State.touch
  dsimp only
  split
  · split
    · rfl
    · split
      · exact homeWrite_cur _ _ _ _
      · rfl
  · rfl

theorem faultOn_eq (hf : s.frame.fault = none) (k : FKind) (v : Word) :
    s.faultOn k v = { s with frame := { s.frame with fault := some k, vaddr := v } } := by
  simp [State.faultOn, hf]

/-- R378, R379, R380, R404. -/
theorem seqRemoteKeysAndPatches : SeqRemoteKeysAndPatches := by
  intro p d a b s c hs
  refine ⟨fun hal hle hn hk => ?_, fun hlt hx hk => ⟨fun hin => ⟨fun hv hchk => ?_, fun hv => ?_⟩, fun hin => ?_⟩, ?_, ?_⟩
  · intro n r old last chk t hr
    refine ⟨fun hin hv hd => ?_, fun hin => seqSysRkreg_outside hs hal hle hn hk hr hin⟩
    subst hd
    exact seqSysRkreg_registers hs hal hle hn hk hr hin hv
  · have hrun := seqSysRkrev_eq hs hlt hx hk
    dsimp only at hrun
    rw [if_neg (by simp [hin]), if_neg (by simpa [hv] using hchk)] at hrun
    exact ⟨_, _, hrun, rfl, clearV_spec _⟩
  · have hrun := seqSysRkrev_eq hs hlt hx hk
    dsimp only at hrun
    rwa [if_neg (by simp [hin]), if_pos (by simp only [hv, Bool.not_false, Bool.true_or])] at hrun
  · have hrun := seqSysRkrev_eq hs hlt hx hk
    dsimp only at hrun
    rwa [if_pos hin] at hrun
  · intro ha hb hle r h ad hr ht
    refine ⟨_, seqIpatch_eq hs ha hb hle hr ht, ?_, ?_⟩
    · rw [State.onSeq, onSeqCore_eq (c := c) (by rw [homeWrite_cur, touch_cur, hs.1]), State.core_onCore_same _ hs.2.1]
    · exact State.home_setHome_same _ _ _
  · intro h hf
    rw [seqIpatch_refused hs h, faultOn_eq hf]

end

/-- Settles O12: what the link commands enter in the engines' queues, and what the key instructions and IPATCH write. -/
theorem seqRemoteCommands : Obligations.SeqRemoteCommands := ⟨seqLinkCommands, seqRemoteKeysAndPatches⟩

end Sys2Proof.Proofs
end

section
/-!
SUPPORT. The clock: no operation of an agent moves it. One rule for each operation that the lane instructions are made of, then one for the lane
instructions (R20, R134, R217).
-/

namespace Sys2Proof.Proofs

open Sys2Proof Sys2Proof.Machine Sys2Proof.Claims

/-! ### Choices and folds -/

@[simp] theorem ite_cycle (p : Prop) [Decidable p] (s t : State) : (if p then s else t).cycle = if p then s.cycle else t.cycle :=
  apply_ite State.cycle p s t

theorem ite_cycle_of {p : Prop} [Decidable p] {s t : State} {n : Nat} (hs : p → s.cycle = n) (ht : ¬p → t.cycle = n) :
    (if p then s else t).cycle = n := by
  split
  · exact hs ‹_›
  · exact ht ‹_›

/-- A fold of steps that keep the clock keeps it. -/
theorem foldl_cycle {α : Type} {f : State → α → State} (h : ∀ s a, (f s a).cycle = s.cycle) (l : List α) (s : State) :
    (l.foldl f s).cycle = s.cycle := by
  induction l generalizing s with
  | nil => rfl
  | cons a l ih => exact (ih _).trans (h s a)

/-- A fold whose accumulator holds a state keeps the clock when its steps do. -/
theorem foldl_fst_cycle {α β : Type} {f : State × β → α → State × β} (h : ∀ p a, (f p a).1.cycle = p.1.cycle) (l : List α) (p : State × β) :
    (l.foldl f p).1.cycle = p.1.cycle := by
  induction l generalizing p with
  | nil => rfl
  | cons a l ih => exact (ih _).trans (h p a)

/-- The same with the state in second place. -/
theorem foldl_snd_cycle {α β : Type} {f : β × State → α → β × State} (h : ∀ p a, (f p a).2.cycle = p.2.cycle) (l : List α) (p : β × State) :
    (l.foldl f p).2.cycle = p.2.cycle := by
  induction l generalizing p with
  | nil => rfl
  | cons a l ih => exact (ih _).trans (h p a)

/-! ### Stores, records, vectors -/

section
variable (s : State)

@[simp] theorem setHome_cycle (h : Nat) (m : Memory) : (s.setHome h m).cycle = s.cycle := by
  unfold State.setHome
  split <;> rfl
@[simp] theorem homeWrite_cycle (h a : Nat) (bs : List Byte) : (s.homeWrite h a bs).cycle = s.cycle := setHome_cycle _ _ _
@[simp] theorem raiseSluice_cycle (p : Nat) (r : SReq) : (s.raiseSluice p r).cycle = s.cycle := rfl
@[simp] theorem writeRecord_cycle (x : Nat) (r : FRec) : (s.writeRecord x r).2.cycle = s.cycle := homeWrite_cycle s _ _ _
@[simp] theorem takeFault_cycle (x : Nat) (r : FRec) (who : Agent) (kind prio tflags : Nat) :
    (s.takeFault x r who kind prio tflags).cycle = s.cycle := by
  rw [State.takeFault_eq]
  exact homeWrite_cycle s _ _ _
@[simp] theorem raiseVector_cycle (p v : Nat) (x : Option (BitVec 4)) : (s.raiseVector p v x).cycle = s.cycle := by
  unfold State.raiseVector
  split <;> rfl
@[simp] theorem setHealth_cycle (h : BitVec 128) : (s.setHealth h).cycle = s.cycle := by
  unfold State.setHealth
  split
  · rfl
  · exact foldl_cycle (fun s p => raiseVector_cycle s p 6 none) _ _
@[simp] theorem health1_cycle (bits : List Nat) : (s.health1 bits).cycle = s.cycle := setHealth_cycle _ _
@[simp] theorem ringWrite_cycle (h base cap pos : Nat) (bs : List Byte) : (s.ringWrite h base cap pos bs).cycle = s.cycle := by
  induction bs generalizing s pos with
  | nil => rfl
  | cons b t ih => exact (ih _ _).trans (homeWrite_cycle _ _ _ _)
@[simp] theorem log_cycle (x kind : Nat) (payload : List Byte) (core : Nat) : (s.log x kind payload core).cycle = s.cycle := by
  unfold State.log
  dsimp only
  split
  · rfl
  · split
    · exact raiseVector_cycle _ _ _ _
    · exact ringWrite_cycle _ _ _ _ _ _
@[simp] theorem boundary_cycle (x : Nat) : (s.boundary x).cycle = s.cycle := by
  unfold State.boundary
  dsimp only
  split
  · rfl
  · exact log_cycle _ _ _ _ _

/-! ### Packets and requests -/

@[simp] theorem sendFor_cycle (x : Nat) (p : Packet) (req : Option Nat) : (s.sendFor x p req).cycle = s.cycle :=
  ((CoresStay.refl s).sendFor x p req).cycle
@[simp] theorem dropReqs_cycle (ids : List Nat) : (s.dropReqs ids).cycle = s.cycle := foldl_cycle (f := State.dropReq) (fun _ _ => rfl) ids s
@[simp] theorem requestAtomic_cycle (who : Requester) (x d key roff : Nat) (red : Bool) (opx : Nat) (l : List Byte) :
    (s.requestAtomic who x d key roff red opx l).2.cycle = s.cycle := sendFor_cycle _ _ _ _
@[simp] theorem request_cycle (who : Requester) (x : Nat) (l : Loc) (isRead : Bool) (n : Nat) (data : List Byte) :
    (s.request who x l isRead n data).2.cycle = s.cycle := by
  unfold State.request
  cases l with
  | peer d key roff => exact sendFor_cycle _ _ _ _
  | _ => rfl
@[simp] theorem pull_cycle (c q x treg : Nat) (handle : Word) : (s.pull c q x treg handle).cycle = s.cycle := by
  unfold State.pull
  dsimp only
  split
  · exact sendFor_cycle _ _ _ _
  · rfl
@[simp] theorem pullNext_cycle (c q : Nat) : (s.pullNext c q).cycle = s.cycle := by
  unfold State.pullNext
  dsimp only
  split
  · split
    · rw [ite_cycle, pull_cycle, ite_self]
    · rfl
  · rfl
@[simp] theorem touch_cycle (c x : Nat) (r : BitVec 512) (a : Word) (k : AKind) : (s.touch c x r a k).cycle = s.cycle := by
  unfold State.touch
  dsimp only
  split
  · simp only [ite_cycle, State.onCore_cycle, homeWrite_cycle, ite_self]
  · rfl
@[simp] theorem fetchTouch_cycle (c x : Nat) (a : Word) (n : Nat) : (s.fetchTouch c x a n).cycle = s.cycle := by
  unfold State.fetchTouch
  split
  · rfl
  · simp only [ite_cycle, touch_cycle, ite_self]
@[simp] theorem openPieces_cycle (who : Requester) (x : Nat) (a : Access) : (s.openPieces who x a).1.cycle = s.cycle := by
  have hatomic : ∀ f : State × List Piece → Piece → State × List Piece, (∀ p q, (f p q).1.cycle = p.1.cycle) →
      (a.pieces.foldl f (s, [])).1.cycle = s.cycle := fun f h => foldl_fst_cycle h _ _
  have hruns : ∀ {α : Type} (l : List α) (f : List Nat × State → α → List Nat × State), (∀ p q, (f p q).2.cycle = p.2.cycle) →
      (l.foldl f ([], s)).2.cycle = s.cycle := fun l f h => foldl_snd_cycle h _ _
  unfold State.openPieces
  dsimp only
  split
  · refine hatomic _ fun p q => ?_
    split
    · exact requestAtomic_cycle _ _ _ _ _ _ _ _ _
    · rfl
  · refine hatomic _ fun p q => ?_
    split
    · exact requestAtomic_cycle _ _ _ _ _ _ _ _ _
    · rfl
  · exact hruns _ _ fun p q => request_cycle _ _ _ _ _ _ _

/-! ### Bands -/

@[simp] theorem onWatch_cycle (c : Nat) (f : Watch → Watch) : (s.onWatch c f).cycle = s.cycle := rfl
@[simp] theorem stopReq_cycle (c : Nat) (r : StopReq) : (s.stopReq c r).cycle = s.cycle := rfl
@[simp] theorem trace_cycle (c : Nat) (r : BitVec 512) : (s.trace c r).cycle = s.cycle := rfl
@[simp] theorem traceMem_cycle (opc : Nat) (m : Word) (l : List (Nat × Word)) : (s.traceMem opc m l).cycle = s.cycle := by
  unfold State.traceMem
  dsimp only
  split
  · split <;> rfl
  · rfl
@[simp] theorem updateHeld_cycle (x : Nat) : (s.updateHeld x).cycle = s.cycle := by
  refine foldl_cycle (fun s c => ?_) _ _
  dsimp only
  split <;> rfl
@[simp] theorem capture_cycle (c : Nat) (i : Inv) : (s.capture c i).cycle = s.cycle := rfl
@[simp] theorem freeFences_cycle (c : Nat) : (s.freeFences c).cycle = s.cycle := rfl
@[simp] theorem onArr_cycle (c : Nat) (f : ArrayS → ArrayS) : (s.onArr c f).cycle = s.cycle := rfl
@[simp] theorem killStrands_cycle (c n : Nat) (m : Word) : (s.killStrands c n m).cycle = s.cycle := by
  unfold State.killStrands
  split
  · rfl
  · split <;> rfl
@[simp] theorem strandsDie_cycle (c n : Nat) (mask va pte : Word) : (s.strandsDie c n mask va pte).cycle = s.cycle := by
  unfold State.strandsDie
  split
  · rfl
  · simp only [ite_cycle, takeFault_cycle, killStrands_cycle, health1_cycle, ite_self]
@[simp] theorem bandFaultAt_cycle (c n : Nat) (k : FKind) (mask pc va pte : Word) : (s.bandFaultAt c n k mask pc va pte).cycle = s.cycle := by
  unfold State.bandFaultAt
  split
  · rfl
  · rw [takeFault_cycle]
    split <;> rfl
@[simp] theorem bandFault_cycle (c n : Nat) (k : FKind) (mask va pte : Word) : (s.bandFault c n k mask va pte).cycle = s.cycle :=
  bandFaultAt_cycle _ _ _ _ _ _ _ _
@[simp] theorem settlePark_cycle (c n : Nat) : (s.settlePark c n).cycle = s.cycle := by
  unfold State.settlePark
  split
  · rfl
  · split
    · simp only [ite_cycle, takeFault_cycle, State.onBand_cycle, ite_self]
    · rfl
@[simp] theorem laneStop_cycle (c n : Nat) (k : FKind) (va mask : Word) (e : Option Nat) : (s.laneStop c n k va mask e).cycle = s.cycle :=
  updateHeld_cycle _ _
@[simp] theorem setNode_cycle (level n : Nat) (x : BarNode) : (s.setNode level n x).cycle = s.cycle := by
  unfold State.setNode
  split <;> rfl
@[simp] theorem arrive_cycle (level n : Nat) (a : Arrival) : (s.arrive level n a).2.cycle = s.cycle := by
  unfold State.arrive
  dsimp only
  split
  · simp only [ite_cycle, setNode_cycle, ite_self]
  · split
    · split
      · rfl
      · simp only [ite_cycle, setNode_cycle, ite_self]
    · rfl
  · exact setNode_cycle _ _ _ _
  · exact setNode_cycle _ _ _ _
@[simp] theorem enqueue_cycle (c x : Nat) (r : BitVec 512) (launch : Bool) (lid : BitVec 32) : (s.enqueue c x r launch lid).cycle = s.cycle := rfl
@[simp] theorem sendCancel_cycle (core : Nat) (m : CancelMsg) : (s.sendCancel core m).cycle = s.cycle := rfl
@[simp] theorem sendDec_cycle (core x counter : Nat) (n : Int) : (s.sendDec core x counter n).cycle = s.cycle := rfl

/-! ### What the lane instructions are made of -/

@[simp] theorem onLane_cycle (f : Band → Band) : (s.onLane f).cycle = s.cycle := rfl
@[simp] theorem laneNext_cycle : s.laneNext.cycle = s.cycle := rfl
@[simp] theorem laneWait_cycle : s.laneWait.cycle = s.cycle := rfl
@[simp] theorem laneHold_cycle (w : BWait) : (s.laneHold w).cycle = s.cycle := rfl
@[simp] theorem laneFlags_cycle (f : Flags) : (s.laneFlags f).cycle = s.cycle := rfl
@[simp] theorem laneJump_cycle (t : Word) : (s.laneJump t).cycle = s.cycle := rfl
@[simp] theorem laneCopy_cycle (b : Band) (ch : Nat) (op : CopyOp) (f : CopyCmd → CopyCmd) : (s.laneCopy b ch op f).2.cycle = s.cycle := rfl
@[simp] theorem addPen_cycle (mk : Nat → PenOp) : (s.addPen mk).cycle = s.cycle := rfl
@[simp] theorem laneFault_cycle (k : FKind) (mask va pte : Word) : (s.laneFault k mask va pte).cycle = s.cycle := bandFault_cycle _ _ _ _ _ _ _
@[simp] theorem laneIllegal_cycle (h : LHdr) : (s.laneIllegal h).cycle = s.cycle := by
  unfold State.laneIllegal
  split
  · exact laneFault_cycle _ _ _ _ _
  · rfl
@[simp] theorem qAccept_cycle (c n q : Nat) (e : List Word) : (s.qAccept c n q e).cycle = s.cycle := by
  unfold State.qAccept
  split
  · rfl
  · split
    · dsimp only
      split <;> rfl
    · rfl
@[simp] theorem qPush_cycle (q : Nat) (e : List Word) : (s.qPush q e).cycle = s.cycle := by
  unfold State.qPush
  dsimp only
  split
  · rfl
  · simp only [ite_cycle, qAccept_cycle, State.onBand_cycle, ite_self]
@[simp] theorem qPop_cycle (q : Nat) : (s.qPop q).2.cycle = s.cycle := by
  unfold State.qPop
  dsimp only
  split
  · rfl
  · split
    · split
      · rfl
      · split
        · exact pullNext_cycle _ _ _
        · rfl
    · rfl
@[simp] theorem popAll_cycle (l : List (Nat × Nat)) : (s.popAll l).cycle = s.cycle := by
  induction l generalizing s with
  | nil => rfl
  | cons e t ih =>
    unfold State.popAll
    split
    · rfl
    · simp only [ite_cycle, ih, onLane_cycle, qPop_cycle, ite_self]
@[simp] theorem laneWrite_cycle (d : BitVec 8) (m : Word) (r : Nat → List Word) : (s.laneWrite d m r).cycle = s.cycle := by
  simp only [State.laneWrite, ite_cycle, qPush_cycle, onLane_cycle, ite_self]

/-- A lane instruction keeps the clock when what it does after its checks and pops does. -/
theorem laneGo_cycle {f : State → Band → Word → List (Nat × List Word) → State}
    (hf : ∀ t b m l, t.cycle = s.cycle → (f t b m l).cycle = s.cycle) (h : LHdr)
    (regs : List (BitVec 8 × Nat)) (pops : List (BitVec 8)) (push : Option (BitVec 8)) : (s.laneGo h regs pops push f).cycle = s.cycle := by
  unfold State.laneGo
  dsimp only
  split
  · rfl
  · rename_i b0 _
    have hpops : ∀ l g b m v, (f ((s.popAll l).onLane g) b m v).cycle = s.cycle := fun l g b m v => hf _ _ _ _ (popAll_cycle s l)
    simp only [ite_cycle, laneFault_cycle, laneWait_cycle, popAll_cycle, hf _ _ _ _ rfl, hpops, ite_self]
/-- A divergence entry is pushed at the same clock. -/
theorem pushDiv_cycle {f : State → State} (hf : ∀ s, (f s).cycle = s.cycle) (m : Word) (e : DivEntry) : (s.pushDiv m e f).cycle = s.cycle := by
  unfold State.pushDiv
  split
  · rfl
  · simp only [ite_cycle, hf, laneFault_cycle, onLane_cycle, ite_self]
@[simp] theorem laneBranch_cycle (b : Band) (m t : Word) : (s.laneBranch b m t).cycle = s.cycle := by
  unfold State.laneBranch
  split
  · rfl
  split
  · exact laneFault_cycle _ _ _ _ _
  split
  · rfl
  · refine pushDiv_cycle s (fun s => ?_) _ _
    rfl
theorem laneUniform_cycle {f : State → State} (hf : ∀ s, (f s).cycle = s.cycle) (b : Band) (m t : Word) :
    (s.laneUniform b m t f).cycle = s.cycle := by
  simp only [State.laneUniform, ite_cycle, laneNext_cycle, laneFault_cycle, laneJump_cycle, hf, ite_self]
@[simp] theorem laneTask_cycle (h : LHdr) (f : VForm) (launch : Bool) : (s.laneTask h f launch).cycle = s.cycle := by
  refine laneGo_cycle s (fun t b m l ht => ?_) _ _ _ _
  simp only [ite_cycle, laneNext_cycle, laneWait_cycle, laneFault_cycle, onLane_cycle, enqueue_cycle, ht, ite_self]


/-! ### The lane instructions -/

/-- An outcome that leaves the clock of the state it started from. -/
def KeepsClock (s : State) (o : Out) : Prop := ∀ t, o = .next t → t.cycle = s.cycle

variable {s}

theorem KeepsClock.next {t : State} (h : t.cycle = s.cycle) : KeepsClock s (.next t) := by
  rintro u ⟨⟩
  exact h
theorem KeepsClock.andThen {o : Out} {f : State → Out} (ho : KeepsClock s o) (hf : ∀ t, t.cycle = s.cycle → KeepsClock s (f t)) :
    KeepsClock s (Out.andThen o f) := by
  cases o with
  | next t => exact hf t (ho t rfl)
  | _ => exact fun t h => nomatch h

/-- An arm that runs through `laneGo` keeps the clock when its own part does. -/
theorem KeepsClock.go {f : State → Band → Word → List (Nat × List Word) → State}
    (hf : ∀ t b m l, t.cycle = s.cycle → (f t b m l).cycle = s.cycle) (h : LHdr)
    (regs : List (BitVec 8 × Nat)) (pops : List (BitVec 8)) (push : Option (BitVec 8)) : KeepsClock s (.next (s.laneGo h regs pops push f)) :=
  .next (laneGo_cycle s hf h regs pops push)

variable (s)

/-- The arithmetic of the lanes keeps the clock. -/
theorem laneOp_clock (h : LHdr) (d : BitVec 8) (dn : Nat) (srcs : List (BitVec 8 × Nat)) (f : Band → Nat → (Nat → Nat → Word) → List Word × Flags) :
    KeepsClock s (s.laneOp h d dn srcs f) := by
  unfold State.laneOp
  dsimp only
  refine .next ?_
  split
  · split
    · rfl
    · split
      · rfl
      · split <;> rfl
  · refine laneGo_cycle s (fun t b m l ht => ?_) _ _ _ _
    simp only [laneNext_cycle, laneFlags_cycle, laneWrite_cycle, ht]
theorem lane1_clock (h : LHdr) (v : VForm) (g : Band → Nat → Res) : KeepsClock s (s.lane1 h v g) := by
  unfold State.lane1
  exact laneOp_clock _ _ _ _ _ _
theorem lane2_clock (h : LHdr) (v : VForm) (g : Band → Nat → Nat → Res) : KeepsClock s (s.lane2 h v g) := by
  unfold State.lane2
  exact laneOp_clock _ _ _ _ _ _
theorem lane3_clock (h : LHdr) (v : VForm) (g : Band → Nat → Nat → Nat → Res) : KeepsClock s (s.lane3 h v g) := by
  unfold State.lane3
  exact laneOp_clock _ _ _ _ _ _
theorem laneI_clock (h : LHdr) (v : IForm) (g : Band → Nat → Nat → Res) : KeepsClock s (s.laneI h v g) := by
  unfold State.laneI
  exact laneOp_clock _ _ _ _ _ _
theorem laneNarrow_clock (h : LHdr) (v : VForm) (g : Band → Nat → Res) : KeepsClock s (s.laneNarrow h v g) := by
  unfold State.laneNarrow
  exact laneOp_clock _ _ _ _ _ _
theorem laneWiden_clock (h : LHdr) (v : VForm) (g : Band → Nat → Res) : KeepsClock s (s.laneWiden h v g) := by
  unfold State.laneWiden
  exact laneOp_clock _ _ _ _ _ _
theorem laneCmp_clock (h : LHdr) (v : VForm) (g : Band → Nat → Nat → Bool × Flags) : KeepsClock s (s.laneCmp h v g) := by
  unfold State.laneCmp
  dsimp only
  refine .next ?_
  split
  · split
    · rfl
    · split <;> rfl
  · refine laneGo_cycle s (fun t b m l ht => ?_) _ _ _ _
    simp only [laneNext_cycle, laneFlags_cycle, onLane_cycle, ht]
theorem laneDiv_clock (h : LHdr) (f : VForm) (g : Nat → Nat → Res) : KeepsClock s (s.laneDiv h f g) := by
  unfold State.laneDiv
  dsimp only
  split
  · exact .next rfl
  · split
    · split
      · exact .next (laneFault_cycle _ _ _ _ _)
      · exact lane2_clock _ _ _ _
    · refine .go (fun t b m l ht => ?_) _ _ _ _
      simp only [ite_cycle, laneFault_cycle, laneNext_cycle, laneFlags_cycle, laneWrite_cycle, ht, ite_self]
theorem tileOp_clock (h : LHdr) (f : MForm) (store : Bool) : KeepsClock s (s.tileOp h f store) := by
  refine .go (fun t b m l ht => ?_) _ _ _ _
  dsimp only
  split
  · exact ht
  split
  · exact ht
  split
  · exact (laneFault_cycle _ _ _ _ _).trans ht
  · exact ht
theorem memOp_clock (h : LHdr) (opc : Nat) (regs : List (BitVec 8 × Nat)) (a : BitVec 8) (off : BitVec 20) (block : Bool) (n align : Nat)
    (k : AKind) (tmpl : Access) (mk : State → Band → Nat → Word × Word) : KeepsClock s (s.memOp h opc regs a off block n align k tmpl mk) := by
  refine .go (fun t b m l ht => ?_) _ _ _ _
  refine ite_cycle_of (fun _ => ht) fun _ => ?_
  refine ite_cycle_of (fun _ => ht) fun _ => ?_
  refine ite_cycle_of (fun _ => ht) fun _ => ?_
  generalize bandClass _ = o
  cases o with
  | some p => exact (laneFault_cycle _ _ _ _ _).trans ((traceMem_cycle _ _ _ _).trans ht)
  | none =>
    lift_lets
    extract_lets traced dead deadAt parked ok lines touched whole un
    have htouched : touched.cycle = s.cycle :=
      (foldl_cycle (fun u l => touch_cycle u _ _ _ _ _) _ _).trans ((traceMem_cycle _ _ _ _).trans ht)
    clear_value touched parked ok whole un dead deadAt
    rw [newId_eq]
    dsimp -zeta only
    extract_lets pieces acc added died hit done
    have hopened : ∀ who, (if acc.held b.acc = true then (bumpId touched, pieces) else (bumpId touched).openPieces who b.slot acc).1.cycle = s.cycle := by
      intro who
      split
      · exact htouched
      · exact (openPieces_cycle _ _ _ _).trans htouched
    have hadded : added.cycle = s.cycle := ite_cycle_of (fun _ => hopened _) fun _ => hopened _
    have hdied : died.cycle = s.cycle := (strandsDie_cycle _ _ _ _ _ _).trans hadded
    clear_value died hit
    have hdone : done.cycle = s.cycle := by
      cases parked with
      | nil => exact hdied
      | cons e l => exact (settlePark_cycle _ _ _).trans hdied
    clear_value done
    cases hit with
    | none => exact hdone
    | some e => exact (laneStop_cycle _ _ _ _ _ _ _).trans hdone
end
end Sys2Proof.Proofs
end

section
/-!
SUPPORT. A band's instruction keeps the clock: one lemma for each instruction.
-/

namespace Sys2Proof.Proofs

open Sys2Proof Sys2Proof.Machine Sys2Proof.Claims
section
variable (s : State)

theorem laneNop_clock (h : LHdr) (f : VForm) : KeepsClock s (exec (.laneNop h f) s) := by
  refine .go (fun _ _ _ _ ht => ?_) _ _ _ _
  exact ht
theorem laneBra_clock (h : LHdr) (off : BitVec 32) : KeepsClock s (exec (.laneBra h off) s) := by
  refine .go (fun _ _ _ _ ht => ?_) _ _ _ _
  exact (laneBranch_cycle _ _ _ _).trans ht
theorem laneBrx_clock (h : LHdr) (f : VForm) : KeepsClock s (exec (.laneBrx h f) s) := by
  refine .go (fun _ _ _ _ ht => ?_) _ _ _ _
  exact ite_cycle_of (fun _ => (laneFault_cycle _ _ _ _ _).trans ht) fun _ => (laneBranch_cycle _ _ _ _).trans ht
theorem laneCall_clock (h : LHdr) (off : BitVec 32) : KeepsClock s (exec (.laneCall h off) s) := by
  refine .go (fun _ _ _ _ ht => ?_) _ _ _ _
  exact (laneUniform_cycle _ (fun s => onLane_cycle s _) _ _ _).trans ht
theorem laneRet_clock (h : LHdr) (f : VForm) : KeepsClock s (exec (.laneRet h f) s) := by
  refine .go (fun _ _ _ _ ht => ?_) _ _ _ _
  exact (laneUniform_cycle _ (fun _ => rfl) _ _ _).trans ht
theorem laneJoin_clock (h : LHdr) (off : BitVec 32) : KeepsClock s (exec (.laneJoin h off) s) := by
  refine .go (fun _ _ _ _ ht => ?_) _ _ _ _
  exact ite_cycle_of (fun _ => (pushDiv_cycle _ laneNext_cycle _ _).trans ht) fun _ => ht
theorem laneExit_clock (h : LHdr) (f : VForm) : KeepsClock s (exec (.laneExit h f) s) := by
  refine .go (fun _ _ _ _ ht => ?_) _ _ _ _
  exact ht
theorem laneYield_clock (h : LHdr) (f : VForm) : KeepsClock s (exec (.laneYield h f) s) := by
  refine .go (fun _ _ _ _ ht => ?_) _ _ _ _
  exact (laneNext_cycle _).trans (ite_cycle_of (fun _ => ht) fun _ => ht)
theorem laneWait_clock (h : LHdr) (f : VForm) : KeepsClock s (exec (.laneWait h f) s) := by
  refine .go (fun _ _ _ _ ht => ?_) _ _ _ _
  exact ite_cycle_of (fun _ => ht) fun _ => ht
theorem laneB2v_clock (h : LHdr) (f : VForm) : KeepsClock s (exec (.laneB2v h f) s) := by
  refine .go (fun _ _ _ _ ht => ?_) _ _ _ _
  exact (laneNext_cycle _).trans (ite_cycle_of (fun _ => ht) fun _ => ht)
theorem laneV2b_clock (h : LHdr) (f : VForm) : KeepsClock s (exec (.laneV2b h f) s) := by
  refine .go (fun t b m l ht => ?_) _ _ _ _
  dsimp only
  split
  · split <;> exact ht
  · exact ite_cycle_of (fun _ => ht) fun _ => ite_cycle_of (fun _ => ht) fun _ => ht
theorem laneShfl_clock (h : LHdr) (f : VForm) : KeepsClock s (exec (.laneShfl h f) s) := by
  refine .go (fun _ _ _ _ ht => ?_) _ _ _ _
  exact (laneWrite_cycle _ _ _ _).trans ht
theorem laneVote_clock (h : LHdr) (f : VForm) : KeepsClock s (exec (.laneVote h f) s) := by
  refine .go (fun t b m l ht => ?_) _ _ _ _
  dsimp only
  split
  · exact (laneWrite_cycle _ _ _ _).trans ht
  · exact (laneNext_cycle _).trans (ite_cycle_of (fun _ => ht) fun _ => ht)
theorem laneBred_clock (h : LHdr) (f : VForm) : KeepsClock s (exec (.laneBred h f) s) := by
  refine .go (fun _ _ _ _ ht => ?_) _ _ _ _
  exact (laneWrite_cycle _ _ _ _).trans ht
theorem laneQbind_clock (h : LHdr) (f : VForm) : KeepsClock s (exec (.laneQbind h f) s) := by
  refine .go (fun t b m l ht => ?_) _ _ _ _
  dsimp only
  refine ite_cycle_of (fun _ => ht) fun _ => ite_cycle_of (fun _ => (laneFault_cycle _ _ _ _ _).trans ht) fun _ => ?_
  split
  · simp only [laneNext_cycle, State.onCore_cycle, onLane_cycle, ht]
  · simp only [ite_cycle, laneFault_cycle, laneNext_cycle, State.onCore_cycle, onLane_cycle, ht, ite_self]
  · simp only [ite_cycle, laneFault_cycle, laneNext_cycle, pullNext_cycle, State.onCore_cycle, onLane_cycle, ht, ite_self]
  · simp only [laneNext_cycle, State.onCore_cycle, onLane_cycle, ht]
theorem laneMmj_clock (h : LHdr) (f : VForm) : KeepsClock s (exec (.laneMmj h f) s) := by
  have fault : ∀ (t : State) k m, t.cycle = s.cycle → (t.laneFault k m).cycle = s.cycle := fun t k m ht => (laneFault_cycle _ _ _ _ _).trans ht
  refine .go (fun t b m l ht => ?_) _ _ _ _
  dsimp only
  refine ite_cycle_of (fun _ => fault _ _ _ ht) fun _ => ite_cycle_of (fun _ => ht) fun _ => ?_
  split
  · exact fault _ _ _ ht
  · refine ite_cycle_of (fun _ => fault _ _ _ ht) fun _ => ite_cycle_of (fun _ => fault _ _ _ ht) fun _ =>
      ite_cycle_of (fun _ => fault _ _ _ ht) fun _ => ?_
    split
    · exact ht
    · refine ite_cycle_of (fun _ => ht) fun _ => ite_cycle_of (fun _ => ?_) fun _ => ht
      exact (foldl_cycle (fun u a => bandFault_cycle _ _ _ _ _ _ _) _ _).trans (fault _ _ _ ht)
theorem laneTopn_clock (h : LHdr) (f : VForm) : KeepsClock s (exec (.laneTopn h f) s) := by
  have fault : ∀ (t : State) k m, t.cycle = s.cycle → (t.laneFault k m).cycle = s.cycle := fun t k m ht => (laneFault_cycle _ _ _ _ _).trans ht
  refine .go (fun t b m l ht => ?_) _ _ _ _
  refine ite_cycle_of (fun _ => ht) fun _ => ite_cycle_of (fun _ => ht) fun _ => ?_
  generalize Option.bind _ _ = up
  cases up with
  | none => exact fault _ _ _ ht
  | some up =>
    refine ite_cycle_of (fun _ => ht) fun _ => ?_
    iterate 8 refine ite_cycle_of (fun _ => fault _ _ _ ht) fun _ => ?_
    exact ht
theorem laneChkt_clock (h : LHdr) (f : VForm) : KeepsClock s (exec (.laneChkt h f) s) := by
  refine .go (fun _ _ _ _ ht => ?_) _ _ _ _
  exact ite_cycle_of (fun _ => (laneFault_cycle _ _ _ _ _).trans ht) fun _ => ht
theorem laneFlgr_clock (h : LHdr) (f : VForm) : KeepsClock s (exec (.laneFlgr h f) s) := by
  refine .go (fun t b m l ht => ?_) _ _ _ _
  have hput : ∀ (d : BitVec 8) r g, (if byteV d then t.laneWrite d m r else t.onLane g).cycle = s.cycle := fun d r g =>
    ite_cycle_of (fun _ => (laneWrite_cycle _ _ _ _).trans ht) fun _ => ht
  exact ite_cycle_of (fun _ => (laneNext_cycle _).trans (ite_cycle_of (fun _ => hput _ _ _) fun _ => hput _ _ _)) fun _ => ht
theorem lanePref_clock (h : LHdr) (f : MForm) : KeepsClock s (exec (.lanePref h f) s) := by
  refine .go (fun _ _ _ _ ht => ?_) _ _ _ _
  exact (foldl_cycle (fun u a => touch_cycle _ _ _ _ _ _) _ _).trans ht
theorem laneCpy_clock (h : LHdr) (f : VForm) : KeepsClock s (exec (.laneCpy h f) s) := by
  have fault : ∀ (t : State) k m, t.cycle = s.cycle → (t.laneFault k m).cycle = s.cycle := fun t k m ht => (laneFault_cycle _ _ _ _ _).trans ht
  refine .go (fun t b m l ht => ?_) _ _ _ _
  refine ite_cycle_of (fun _ => ht) fun _ => ite_cycle_of (fun _ => ht) fun _ => ?_
  iterate 4 refine ite_cycle_of (fun _ => fault _ _ _ ht) fun _ => ?_
  exact (laneNext_cycle _).trans (ite_cycle_of (fun _ => ht) fun _ => ht)
theorem laneDrain_clock (h : LHdr) (f : VForm) : KeepsClock s (exec (.laneDrain h f) s) := by
  refine .go (fun _ _ _ _ ht => ?_) _ _ _ _
  exact ite_cycle_of (fun _ => ht) fun _ => ite_cycle_of (fun _ => ht) fun _ => ht
theorem lanePacq_clock (h : LHdr) (f : IForm) : KeepsClock s (exec (.lanePacq h f) s) := by
  have fault : ∀ (t : State) k m, t.cycle = s.cycle → (t.laneFault k m).cycle = s.cycle := fun t k m ht => (laneFault_cycle _ _ _ _ _).trans ht
  refine .go (fun t b m l ht => ?_) _ _ _ _
  refine ite_cycle_of (fun _ => ht) fun _ => ?_
  cases penNumber b f with
  | none => exact fault _ _ _ ht
  | some p =>
    dsimp only
    cases t.penHome b.slot p with
    | error k => exact fault _ _ _ ht
    | ok r => exact ht
theorem lanePrel_clock (h : LHdr) (f : IForm) : KeepsClock s (exec (.lanePrel h f) s) := by
  have fault : ∀ (t : State) k m, t.cycle = s.cycle → (t.laneFault k m).cycle = s.cycle := fun t k m ht => (laneFault_cycle _ _ _ _ _).trans ht
  refine .go (fun t b m l ht => ?_) _ _ _ _
  refine ite_cycle_of (fun _ => ht) fun _ => ?_
  cases penNumber b f with
  | none => exact fault _ _ _ ht
  | some p =>
    dsimp only
    cases t.penHome b.slot p with
    | error k => exact fault _ _ _ ht
    | ok r => exact ht
theorem laneFence_clock (h : LHdr) (f : IForm) : KeepsClock s (exec (.laneFence h f) s) := by
  refine .go (fun _ _ _ _ ht => ?_) _ _ _ _
  exact ite_cycle_of (fun _ => ht) fun _ => ite_cycle_of (fun _ => ht) fun _ => ht
theorem laneQfence_clock (h : LHdr) (f : IForm) : KeepsClock s (exec (.laneQfence h f) s) := by
  refine .go (fun _ _ _ _ ht => ?_) _ _ _ _
  exact ite_cycle_of (fun _ => ht) fun _ => ite_cycle_of (fun _ => ht) fun _ => ht
theorem laneBar_clock (h : LHdr) (f : IForm) : KeepsClock s (exec (.laneBar h f) s) := by
  have fault : ∀ (t : State) k m, t.cycle = s.cycle → (t.laneFault k m).cycle = s.cycle := fun t k m ht => (laneFault_cycle _ _ _ _ _).trans ht
  refine .go (fun t b m l ht => ?_) _ _ _ _
  refine ite_cycle_of (fun _ => ht) fun _ => ite_cycle_of (fun _ => fault _ _ _ ht) fun _ =>
    ite_cycle_of (fun _ => fault _ _ _ ht) fun _ => ite_cycle_of (fun _ => ht) fun _ => ?_
  generalize ha : State.arrive _ _ _ _ = arrived
  have hc : arrived.2.cycle = s.cycle := by
    rw [← ha]
    exact (arrive_cycle _ _ _ _).trans ht
  obtain ⟨ok, u⟩ := arrived
  cases ok with
  | false => exact fault _ _ _ hc
  | true => exact (updateHeld_cycle _ _).trans hc
theorem laneDdec_clock (h : LHdr) (f : VForm) : KeepsClock s (exec (.laneDdec h f) s) := by
  refine .go (fun _ _ _ _ ht => ?_) _ _ _ _
  exact ite_cycle_of (fun _ => ht) fun _ => ite_cycle_of (fun _ => ht) fun _ =>
    ite_cycle_of (fun _ => (laneFault_cycle _ _ _ _ _).trans ht) fun _ => ht
theorem laneDdecCancel_clock (h : LHdr) (f : VForm) : KeepsClock s (exec (.laneDdecCancel h f) s) := by
  refine .go (fun t b m l ht => ?_) _ _ _ _
  refine ite_cycle_of (fun _ => ht) fun _ => ?_
  cases cancelOf b.slot (f.xt.toNat % 8) (b.breg (bNum f.a)) (t.bandLaunch t.laneId.1 b).toNat with
  | none => exact (laneFault_cycle _ _ _ _ _).trans ht
  | some w => exact ht
theorem laneTrap_clock (h : LHdr) (f : IForm) : KeepsClock s (exec (.laneTrap h f) s) := by
  refine .go (fun _ _ _ _ ht => ?_) _ _ _ _
  exact ite_cycle_of (fun _ => ht) fun _ => (laneFault_cycle _ _ _ _ _).trans ht
theorem laneBkpt_clock (h : LHdr) (f : IForm) : KeepsClock s (exec (.laneBkpt h f) s) := by
  refine .go (fun _ _ _ _ ht => ?_) _ _ _ _
  exact ite_cycle_of (fun _ => ht) fun _ => (updateHeld_cycle _ _).trans ht
theorem laneCsrr_clock (h : LHdr) (f : IForm) : KeepsClock s (exec (.laneCsrr h f) s) := by
  refine .next (ite_cycle_of (fun _ => laneIllegal_cycle _ _) fun _ => laneGo_cycle _ (fun t b m l ht => ?_) _ _ _ _)
  exact ite_cycle_of (fun _ => (laneWrite_cycle _ _ _ _).trans ht) fun _ => (laneNext_cycle _).trans (ite_cycle_of (fun _ => ht) fun _ => ht)
theorem laneCsrw_clock (h : LHdr) (f : IForm) : KeepsClock s (exec (.laneCsrw h f) s) := by
  refine .next (ite_cycle_of (fun _ => laneIllegal_cycle _ _) fun _ => laneGo_cycle _ (fun t b m l ht => ?_) _ _ _ _)
  dsimp only
  split <;> exact ht

end

/-- No lane instruction moves the clock. -/
theorem exec_keeps_clock {s : State} {i : Instr} (h : isLane i = true) : KeepsClock s (exec i s) := by
  cases i
  case laneIadd | laneIsub | laneImul | laneImulh | laneImin | laneImax | laneIshift | laneBfx | laneFadd | laneFsub | laneFmul | laneFmin
      | laneFmax | laneSladd | laneSlsub | laneSlmul | laneSldiv =>
    dsimp only [exec, execLaneIadd, execLaneIsub, execLaneImul, execLaneImulh, execLaneImin, execLaneImax,
      execLaneIshift, execLaneBfx, execLaneFadd, execLaneFsub, execLaneFmul, execLaneFmin, execLaneFmax,
      execLaneSladd, execLaneSlsub, execLaneSlmul, execLaneSldiv]
    exact lane2_clock _ _ _ _
  case laneImad | laneBfi | laneFfma =>
    dsimp only [exec, execLaneImad, execLaneBfi, execLaneFfma]
    exact lane3_clock _ _ _ _
  case laneIdiv | laneIrem =>
    dsimp only [exec, execLaneIdiv, execLaneIrem]
    exact laneDiv_clock _ _ _ _
  case laneIlogic | laneSel | laneMov | laneMovi =>
    dsimp only [exec, execLaneIlogic, execLaneSel, execLaneMov, execLaneMovi]
    exact laneOp_clock _ _ _ _ _ _
  case laneIbit | laneIabs | laneIneg | laneFsf | laneCvt =>
    dsimp only [exec, execLaneIbit, execLaneIabs, execLaneIneg, execLaneFsf, execLaneCvt]
    exact lane1_clock _ _ _ _
  case laneIcmp | laneFcmp | laneSlcmp =>
    dsimp only [exec, execLaneIcmp, execLaneFcmp, execLaneSlcmp]
    exact laneCmp_clock _ _ _ _
  case laneIaddImm | laneIsubImm | laneImulImm | laneIminImm | laneImaxImm | laneFaddImm | laneFmulImm =>
    dsimp only [exec, execLaneIaddImm, execLaneIsubImm, execLaneImulImm, execLaneIminImm, execLaneImaxImm, execLaneFaddImm, execLaneFmulImm]
    exact laneI_clock _ _ _ _
  case laneCvtw | laneUnpk =>
    dsimp only [exec, execLaneCvtw, execLaneUnpk]
    exact laneWiden_clock _ _ _ _
  case laneCvtn | lanePack =>
    dsimp only [exec, execLaneCvtn, execLanePack]
    exact laneNarrow_clock _ _ _ _
  case laneLd | laneSt | laneLdb | laneStb | laneAtom | laneRed =>
    dsimp only [exec, execLaneLd, execLaneSt, execLaneLdb, execLaneStb, execLaneAtom, execLaneRed]
    exact memOp_clock _ _ _ _ _ _ _ _ _ _ _ _
  case laneLdt | laneStt =>
    dsimp only [exec, execLaneLdt, execLaneStt]
    exact tileOp_clock _ _ _ _
  case laneTenq | laneLaunch =>
    dsimp only [exec, execLaneTenq, execLaneLaunch]
    exact .next (laneTask_cycle _ _ _ _)
  case laneNop => exact laneNop_clock _ _ _
  case laneBra => exact laneBra_clock _ _ _
  case laneBrx => exact laneBrx_clock _ _ _
  case laneCall => exact laneCall_clock _ _ _
  case laneRet => exact laneRet_clock _ _ _
  case laneJoin => exact laneJoin_clock _ _ _
  case laneExit => exact laneExit_clock _ _ _
  case laneYield => exact laneYield_clock _ _ _
  case laneWait => exact laneWait_clock _ _ _
  case laneB2v => exact laneB2v_clock _ _ _
  case laneV2b => exact laneV2b_clock _ _ _
  case laneShfl => exact laneShfl_clock _ _ _
  case laneVote => exact laneVote_clock _ _ _
  case laneBred => exact laneBred_clock _ _ _
  case laneQbind => exact laneQbind_clock _ _ _
  case laneMmj => exact laneMmj_clock _ _ _
  case laneTopn => exact laneTopn_clock _ _ _
  case laneChkt => exact laneChkt_clock _ _ _
  case laneFlgr => exact laneFlgr_clock _ _ _
  case lanePref => exact lanePref_clock _ _ _
  case laneCpy => exact laneCpy_clock _ _ _
  case laneDrain => exact laneDrain_clock _ _ _
  case lanePacq => exact lanePacq_clock _ _ _
  case lanePrel => exact lanePrel_clock _ _ _
  case laneFence => exact laneFence_clock _ _ _
  case laneQfence => exact laneQfence_clock _ _ _
  case laneBar => exact laneBar_clock _ _ _
  case laneDdec => exact laneDdec_clock _ _ _
  case laneDdecCancel => exact laneDdecCancel_clock _ _ _
  case laneTrap => exact laneTrap_clock _ _ _
  case laneBkpt => exact laneBkpt_clock _ _ _
  case laneCsrr => exact laneCsrr_clock _ _ _
  case laneCsrw => exact laneCsrw_clock _ _ _
  all_goals exact absurd h Bool.false_ne_true

end Sys2Proof.Proofs
end

section
/-!
SUPPORT. A band's turn and the end of a cycle: only the latter moves the clock, by one.
-/

namespace Sys2Proof.Proofs

open Sys2Proof Sys2Proof.Machine Sys2Proof.Claims

/-! ### What a band's word decodes to -/

theorem isLane_ite {p : Prop} [Decidable p] {i j : Instr} (hi : isLane i = true) (hj : isLane j = true) : isLane (if p then i else j) = true := by
  split
  · exact hi
  · exact hj

/-- The candidates of the lane map are lane instructions. -/
theorem laneCand_isLane (w : BitVec 64) : (laneCand w).all isLane = true := by
  unfold laneCand
  dsimp only
  split
  case h_80 => exact isLane_ite rfl rfl
  all_goals rfl

/-- What a band's word decodes to is a lane instruction (R86). -/
theorem isLane_of_decodeLane {w : BitVec 64} {i : Instr} (h : decodeLane w = some i) : isLane i = true := by
  have hc := laneCand_isLane w
  unfold decodeLane at h
  split at h
  · next j hj =>
    rw [hj] at hc
    split at h
    · cases h
      exact hc
    · cases h
  · cases h

/-- Both members of a `DP` pair are lane instructions. -/
theorem isLane_of_laneDecode {s : State} {c n : Nat} {w : BitVec 64} {i : Instr} {j : Option Instr} (h : s.laneDecode c n w = some (i, j)) :
    isLane i = true ∧ ∀ k, j = some k → isLane k = true := by
  unfold State.laneDecode at h
  split at h
  · cases h
  · next i' hi =>
    split at h
    · cases h
      exact ⟨isLane_of_decodeLane hi, fun k hk => nomatch hk⟩
    · split at h
      · split at h
        · next j' hj =>
          split at h
          · cases h
            exact ⟨isLane_of_decodeLane hi, fun k hk => by cases hk; exact isLane_of_decodeLane hj⟩
          · cases h
        · cases h
      · cases h

/-! ### A cycle that passes -/

section
variable (s : State)

@[simp] theorem seqFault_cycle (c : Nat) (k : FKind) (pc epc va pte : Word) : (s.seqFault c k pc epc va pte).cycle = s.cycle := by
  unfold State.seqFault
  dsimp only
  split
  · rfl
  · simp only [State.onCore_cycle, takeFault_cycle]
theorem evIllegalOp_cycle : (evIllegalOp s).cycle = s.cycle := by
  unfold evIllegalOp
  split
  · dsimp only
    split
    · exact ite_cycle_of (fun _ => rfl) fun _ => seqFault_cycle _ _ _ _ _ _ _
    · rfl
  · split
    · exact ite_cycle_of (fun _ => rfl) fun _ => bandFault_cycle _ _ _ _ _ _ _
    · rfl
  · rfl
theorem evInstructionFetchFault_cycle : (evInstructionFetchFault s).cycle = s.cycle := by
  unfold evInstructionFetchFault
  split
  · dsimp only
    split
    · exact seqFault_cycle _ _ _ _ _ _ _
    · exact (seqFault_cycle _ _ _ _ _ _ _).trans (health1_cycle _ _)
    · rfl
  · dsimp only
    split
    · exact bandFaultAt_cycle _ _ _ _ _ _ _ _
    · exact bandFaultAt_cycle _ _ _ _ _ _ _ _
    · split
      · exact bandFaultAt_cycle _ _ _ _ _ _ _ _
      · exact bandFaultAt_cycle _ _ _ _ _ _ _ _
      · rfl
    · rfl
  · rfl
@[simp] theorem takePipes_cycle (c n : Nat) (u : LaneUse) (more : Option LaneUse) : (s.takePipes c n u more).cycle = s.cycle := rfl

/-- Running a band's instruction, or a pair, keeps the clock. -/
theorem runPair_clock (c n : Nat) (b : Band) {i : Instr} {j : Option Instr} (hi : isLane i = true) (hj : ∀ k, j = some k → isLane k = true) :
    KeepsClock s (s.runPair c n b i j) := by
  have run : ∀ {k : Instr} {t : State}, isLane k = true → t.cycle = s.cycle → KeepsClock s (exec k t) := fun hk ht u hu =>
    (exec_keeps_clock hk u hu).trans ht
  cases j with
  | none => exact run hi rfl
  | some j =>
    have hj := hj j rfl
    refine .andThen (run hi rfl) fun t ht => ?_
    dsimp only
    split
    · exact .next ht
    · refine .andThen (run hj ht) fun v hv => ?_
      split
      · exact .next hv
      · refine .andThen (run hi (ite_cycle_of (fun _ => hv) fun _ => ht)) fun u hu => ?_
        split
        · exact .next hu
        · exact .andThen (run hj hu) fun x hx => .next hx
theorem bandInstr_clock (c n : Nat) (b : Band) {i : Instr} {j : Option Instr} (hi : isLane i = true) (hj : ∀ k, j = some k → isLane k = true) :
    KeepsClock s (s.bandInstr c n b i j) := by
  unfold State.bandInstr
  refine .andThen (runPair_clock s c n b hi hj) fun t ht => ?_
  dsimp only
  split
  · exact .next ht
  split
  · exact .next ht
  split
  · exact .next (laneStop_cycle _ _ _ _ _ _ _)
  · exact .next ht

/-- Issuing a band's next instruction keeps the clock. -/
theorem bandIssue_clock (c n : Nat) (b : Band) : KeepsClock s (s.bandIssue c n b) := by
  unfold State.bandIssue
  dsimp only
  split
  · exact .next rfl
  · split
    · exact .next rfl
    · split
      · next h => exact bandInstr_clock _ c n _ (isLane_of_laneDecode h).1 (isLane_of_laneDecode h).2
      · exact .next (evIllegalOp_cycle _)
    · split
      · next h => exact bandInstr_clock _ c n _ (isLane_of_laneDecode h).1 (isLane_of_laneDecode h).2
      · exact .next (evIllegalOp_cycle _)
    · exact .next (evInstructionFetchFault_cycle _)
  · exact .next (evInstructionFetchFault_cycle _)

/-- A band takes part in a cycle without moving the clock (R217). -/
@[simp] theorem bandTick_cycle (c n : Nat) : (s.bandTick c n).cycle = s.cycle := by
  unfold State.bandTick
  split
  · rfl
  · next b0 _ =>
    dsimp only
    refine ite_cycle_of (fun _ => rfl) fun _ => ite_cycle_of (fun _ => rfl) fun _ => ite_cycle_of (fun _ => rfl) fun _ =>
      ite_cycle_of (fun _ => rfl) fun _ => ite_cycle_of (fun _ => rfl) fun _ => ite_cycle_of (fun _ => rfl) fun _ =>
      ite_cycle_of (fun _ => rfl) fun _ => ?_
    split
    · next t h =>
      have ht := bandIssue_clock _ c n _ t h
      exact ite_cycle_of (fun _ => ht) fun _ => rfl
    · rfl

@[simp] theorem settleContext_cycle (x : Nat) : (s.settleContext x).cycle = s.cycle := by
  simp only [State.settleContext, ite_cycle, boundary_cycle, State.onCtx_cycle, ite_self]
@[simp] theorem setLaunch_cycle (x id : Nat) (st : LState) : (s.setLaunch x id st).cycle = s.cycle := by
  simp only [State.setLaunch, ite_cycle, State.tell_cycle, State.onCtx_cycle, ite_self]
@[simp] theorem checkLaunch_cycle (x id : Nat) : (s.checkLaunch x id).cycle = s.cycle := by
  unfold State.checkLaunch
  split
  · rfl
  · simp only [ite_cycle, settleContext_cycle, setLaunch_cycle, ite_self]
@[simp] theorem unitEnded_cycle (p slot index c : Nat) : (s.unitEnded p slot index c).cycle = s.cycle := by
  simp only [State.unitEnded, ite_cycle, raiseVector_cycle, State.onTask, State.onPart_cycle, ite_self]
@[simp] theorem endUnit_cycle (c : Nat) : (s.endUnit c).cycle = s.cycle := by
  unfold State.endUnit
  dsimp only
  split
  · refine ite_cycle_of (fun _ => rfl) fun _ => ?_
    split
    · exact ite_cycle_of (fun _ => rfl) fun _ => unitEnded_cycle _ _ _ _ _
    · exact ite_cycle_of (fun _ => rfl) fun _ => checkLaunch_cycle _ _ _
  · rfl
@[simp] theorem hangTick_cycle (c : Nat) : (s.hangTick c).cycle = s.cycle := by
  simp only [State.hangTick, ite_cycle, State.onCore_cycle, ite_self]

variable {s} in
/-- R20: a cycle that passes advances the clock by one, unless the clocks stand still. -/
theorem tick_cycle (h : s.pst < 3) : s.tick.cycle = s.cycle + 1 := by
  have hbands : ∀ (t : State) (c : Nat), ((t.core c).bands.foldl (fun (t : State) (e : Nat × Band) => t.bandTick c e.1) t).cycle = t.cycle := fun t c =>
    foldl_cycle (f := fun (t : State) (e : Nat × Band) => t.bandTick c e.1) (fun t e => bandTick_cycle t c e.1) _ t
  rw [State.tick, if_neg (not_le.mpr h)]
  dsimp only
  rw [foldl_cycle hbands]
  dsimp only
  rw [foldl_cycle endUnit_cycle]
  dsimp only
  rw [foldl_cycle hangTick_cycle]

end
end Sys2Proof.Proofs
end

section
/-!
SETTLES O56. A step takes the agenda's next turn: what the turn of each agent runs, and which turn is next.
-/

namespace Sys2Proof.Proofs

open Sys2Proof Sys2Proof.Machine Sys2Proof.Claims

/-! ### The step and its turn -/

section
variable {s : State} {c n : Nat} {rest : List Turn}

/-- A step is the turn that `upNext` takes. -/
theorem step_of_upNext {t : Turn} (h : upNext s = (t, rest)) : step s = (turned s rest).turn t := by
  have hstep : step s = { { s with fresh := s.fresh + 1 } with agenda := (upNext s).2 }.turn (upNext s).1 := rfl
  rw [hstep, h]
  rfl

theorem upNext_nil (h : s.agenda = []) : upNext s = (.cycle, []) := by
  unfold upNext State.nextPick
  dsimp only
  rw [h]

/-- An agent's turn while the clocks run. -/
theorem running {α : Type} (h : s.pst < 3) (a b : α) : (if 3 ≤ (turned s rest).pst then a else b) = b := if_neg (not_le.mpr h)

/-- What one step does with each turn of the agenda that is no agent's. -/
theorem eventsHappen : EventsHappen := by
  refine ⟨?_, ?_, ?_, ?_, ?_, ?_, ?_, ?_, ?_, ?_⟩
  · intro s i r rest h hrun
    rw [step_of_upNext h]
    refine if_neg fun hstop => ?_
    rw [Bool.and_eq_true, decide_eq_true_eq, Bool.not_eq_true'] at hstop
    obtain ⟨hp, hi⟩ := hstop
    rcases hrun with hrun | hrun
    · exact absurd hp (not_le.mpr hrun)
    · exact absurd (hi.symm.trans hrun) Bool.false_ne_true
  · intro s i r rest h hp hi
    rw [step_of_upNext h]
    exact if_pos (Bool.and_eq_true_iff.mpr ⟨decide_eq_true hp, by rw [hi]; rfl⟩)
  · intro s h hp
    rw [step_of_upNext (upNext_nil h)]
    exact congrArg _ (if_pos hp)
  · intro s h hp
    exact ⟨_, step_of_upNext (upNext_nil h), tick_cycle (s := turned s []) hp⟩
  · intro s rest h hp
    exact ⟨_, step_of_upNext h, tick_cycle (s := turned s rest) hp⟩
  · intro s p rest h hp
    exact (step_of_upNext h).trans (running hp _ _)
  · intro s p n rest h hp
    exact (step_of_upNext h).trans (running hp _ _)
  · intro s p f rest h hp
    exact (step_of_upNext h).trans (running hp _ _)
  · intro s r rest h
    exact step_of_upNext h
  · intro s bs rest h
    exact step_of_upNext h

/-! ### Policy engines -/

theorem engineRunsItsInstruction : EngineRunsItsInstruction := by
  intro s e rest g w i h hp hg hbudget hw hi
  refine (step_of_upNext h).trans ((running hp _ _).trans ?_)
  have hengine : State.engine { turned s rest with engineCur := e, cur := .env } = some g := congrArg (Option.getD · none) hg
  have hword : (g.prog[g.pc]?).bind decodePol = some i := by rw [hw, Option.bind_some, hi]
  simp only [State.engineTurn, hengine, hbudget, hword]
  rfl

/-! ### What a fetch leaves alone -/

/-- A part of a core that a change of a core leaves alone is the same in every core. -/
theorem core_onCore_proj {α : Type} (g : Core → α) {f : Core → Core} (hf : ∀ k, g (f k) = g k) (d : Nat) : g ((s.onCore c f).core d) = g (s.core d) := by
  by_cases hd : d = c
  · subst hd
    by_cases hc : d < 64
    · rw [State.core_onCore_same _ hc, hf]
    · rw [State.onCore, State.setCore, State.core, State.core, Vector.getElem?_setIfInBounds]
      simp [hc]
  · rw [State.core_onCore_ne _ hd]

theorem homeWrite_core (h a : Nat) (bs : List Byte) (d : Nat) : (s.homeWrite h a bs).core d = s.core d := by
  rw [State.core, State.homeWrite, State.setHome_cores, State.core]

/-- The layout unit of a core changes what no one but it reads (R268). -/
theorem touch_core_proj {α : Type} (g : Core → α) (hg : ∀ (k : Core) tlb tlrs, g { k with tlb := tlb, tlrs := tlrs } = g k) (x : Nat) (r : BitVec 512)
    (a : Word) (k : AKind) (d : Nat) : g ((s.touch c x r a k).core d) = g (s.core d) := by
  unfold State.touch
  dsimp only
  split
  · split
    · rfl
    · refine (core_onCore_proj g (fun k => hg k _ _) d).trans ?_
      split
      · rw [homeWrite_core]
      · rfl
  · rfl
theorem fetchTouch_core_proj {α : Type} (g : Core → α) (hg : ∀ (k : Core) tlb tlrs, g { k with tlb := tlb, tlrs := tlrs } = g k) (x : Nat) (a : Word)
    (m d : Nat) : g ((s.fetchTouch c x a m).core d) = g (s.core d) := by
  unfold State.fetchTouch
  split
  · rfl
  · dsimp only
    split
    · rfl
    · exact touch_core_proj g hg _ _ _ _ _

theorem fetchTouch_seq (x : Nat) (a : Word) (m d : Nat) : ((s.fetchTouch c x a m).core d).seq = (s.core d).seq :=
  fetchTouch_core_proj Core.seq (fun _ _ _ => rfl) x a m d
theorem fetchTouch_watch (x : Nat) (a : Word) (m d : Nat) : ((s.fetchTouch c x a m).core d).watch = (s.core d).watch :=
  fetchTouch_core_proj Core.watch (fun _ _ _ => rfl) x a m d

theorem watchIssue_cycle (watched : Bool) (l : List (Nat × Nat)) : (s.watchIssue c watched l).cycle = s.cycle := by
  unfold State.watchIssue
  dsimp only
  split
  · rfl
  · split <;> rfl

/-! ### Sequencers -/

theorem seqActs_seq (s : State) (rest : List Turn) (c : Nat) : ((seqActs s rest c).core c).seq = (s.core c).seq := fetchTouch_seq _ _ _ _
theorem seqActs_watch (s : State) (rest : List Turn) (c : Nat) : ((seqActs s rest c).core c).watch = (s.core c).watch := fetchTouch_watch _ _ _ _
theorem seqActs_cycle (s : State) (rest : List Turn) (c : Nat) : (seqActs s rest c).cycle = s.cycle := fetchTouch_cycle _ _ _ _ _

/-- A free sequencer whose fetch gives a word runs the bundle of the word, or raises ILLEGAL_OP. -/
theorem seqTurn_of_free {w : Nat} (hfree : seqFree s c) (hw : (seqMeets s rest c).seqFetch c = .word w) :
    (turned s rest).seqTurn c = Out.andThen
      (match decodeBundle (BitVec.ofNat 256 w) with
        | some x => (seqActs s rest c).seqBundle c x
        | none => exec .illegalOp (seqActs s rest c))
      fun s => .next (afterBundle s) := by
  obtain ⟨hunit, hphase, hfailed, hfrozen, hready, hpatch, hhalt⟩ := hfree
  have hleaves : (turned s rest).freezes c = [] := hfrozen
  have hunit' : ((turned s rest).core c).unit.isNone = false := by
    show (s.core c).unit.isNone = false
    rw [Option.isNone_eq_false_iff, hunit]
  have hphase' : ((turned s rest).core c).seq.phase = .run := hphase
  have hfailed' : ((turned s rest).core c).failed = false := hfailed
  have hready' : ¬(turned s rest).cycle < ((turned s rest).core c).seq.readyAt := not_lt.mpr hready
  have hpatch' : ((turned s rest).core c).seq.patching = false := hpatch
  have hhalt' : ((turned s rest).core c).seq.halted = false := hhalt
  have hfetch : State.seqFetch { turned s rest with cur := .seq c, pre := some ((turned s rest).core c), frame := { Frame.start with slot := 4 } } c
      = .word w := hw
  unfold State.seqTurn
  simp only [hleaves, hunit', hphase', hfailed', hready', hpatch', hhalt', hfetch, List.any_nil, Bool.or_self, Bool.false_eq_true, ne_eq,
    not_true_eq_false, decide_false, if_false]
  cases hd : decodeBundle (BitVec.ofNat 256 w) <;> rfl

theorem sequencerMeetsIllegalWords : SequencerMeetsIllegalWords := by
  intro s c rest w t h hp hfree hw hd ht
  refine (step_of_upNext h).trans ((running hp _ _).trans ?_)
  rw [seqTurn_of_free hfree hw, hd]
  dsimp only
  rw [ht]
  rfl

theorem runSlots_of_slotsRun {x : Bundle} {u td : State} (h : slotsRun x u td) : u.runSlots x = .next td := by
  obtain ⟨ta, tb, tm, te, tq, ha, hb, hm, he, hd, rfl⟩ := h
  show Out.andThen (exec x.a (inSlot (withFlag u 0) 0)) _ = _
  rw [ha]
  show Out.andThen (exec x.b (inSlot ta 1)) _ = _
  rw [hb]
  show Out.andThen (exec x.m (inSlot (if x.dup then withFlag tb (flagOf ta) else tb) 2)) _ = _
  rw [hm]
  show Out.andThen (exec x.e (inSlot tm 3)) _ = _
  rw [he]
  show Out.andThen (exec x.d (inSlot (withFlag te (flagOf u)) 4)) _ = _
  rw [hd]
  rfl

/-- A stalled sequencer keeps all but its stall reason. -/
theorem seqStall_seq (hc : c < 64) (w : Stall) : ((s.seqStall c w).core c).seq = { (s.core c).seq with stall := some w } := by
  rw [State.seqStall, State.core_onCore_same _ hc]

/-- A bundle whose slots have run and stall: the sequencer waits with it (R135). -/
theorem seqBundle_stalls {x : Bundle} {td : State} {r : Stall}
    (hrun : State.runSlots (s.onCore c fun k => { k with seq := { k.seq with entry := some (k.seq.entry.getD s.cycle) } }) x = .next td)
    (hr : td.frame.stall = some r) : s.seqBundle c x = .next (s.seqStall c r) := by
  unfold State.seqBundle
  dsimp only
  rw [hrun]
  show (match td.frame.stall with | some w => _ | none => _) = _
  rw [hr]

/-- A bundle whose slots have run and raise nothing that stops it issues (R135). -/
theorem seqBundle_issues {x : Bundle} {td : State}
    (hrun : State.runSlots (s.onCore c fun k => { k with seq := { k.seq with entry := some (k.seq.entry.getD s.cycle) } }) x = .next td)
    (hstall : td.frame.stall = none) (htrap : td.frame.trap = none) (htarget : ∀ a, td.frame.target = some a → a.toNat % 32 = 0)
    (hbreak : matchBreak (s.core c).watch.sbp (s.core c).seq.pc = none) : s.seqBundle c x = .next (td.seqIssued c x (s.core c).seq.pc) := by
  unfold State.seqBundle
  dsimp only
  rw [hrun]
  cases ht : td.frame.target with
  | none => simp only [Out.andThen, ht, hstall, htrap, hbreak, Bool.false_eq_true, if_false]
  | some a => simp only [Out.andThen, ht, hstall, htrap, hbreak, htarget a ht, ne_eq, not_true_eq_false, decide_false, Bool.false_eq_true, if_false]

/-- What a bundle that issues leaves of its sequencer (R135, R141). -/
theorem seqIssued_seq {x : Bundle} {pc : Word} (hc : c < 64) (hf : s.frame.fault = none) :
    ((s.seqIssued c x pc).core c).seq.pc = s.frame.target.getD (pc + 32)
      ∧ ((s.seqIssued c x pc).core c).seq.readyAt = s.cycle + 1 + x.wait.toNat := by
  unfold State.seqIssued
  simp only [hf, State.core_onCore_same _ hc, watchIssue_cycle, and_self]

theorem sequencerRunsItsBundle : SequencerRunsItsBundle := by
  intro s c rest w x td hc h hp hfree hw hd hslots
  have hstep : step s = Out.andThen ((seqActs s rest c).seqBundle c x) fun s => .next (afterBundle s) := by
    refine (step_of_upNext h).trans ((running hp _ _).trans ?_)
    rw [seqTurn_of_free hfree hw, hd]
  have hseq := seqActs_seq s rest c
  have hrun : State.runSlots ((seqActs s rest c).onCore c fun k =>
      { k with seq := { k.seq with entry := some (k.seq.entry.getD (seqActs s rest c).cycle) } }) x = .next td := by
    rw [seqActs_cycle]
    exact runSlots_of_slotsRun hslots
  refine ⟨fun r hr => ?_, fun hstall htrap hfault htarget hbreak => ?_⟩
  · rw [seqBundle_stalls hrun hr] at hstep
    have hstalled : ((afterBundle ((seqActs s rest c).seqStall c r)).core c).seq = { (s.core c).seq with stall := some r } :=
      (seqStall_seq hc r).trans (by rw [hseq])
    exact ⟨_, hstep, by rw [hstalled], by rw [hstalled], by rw [hstalled], rfl, rfl⟩
  · rw [seqBundle_issues hrun hstall htrap htarget (by rw [seqActs_watch, hseq]; exact hbreak), hseq] at hstep
    exact ⟨hstep, seqIssued_seq hc hfault⟩

/-! ### Bands -/

/-- A band whose paths are in order and that may issue is looked at by the slice scheduler (R221). -/
theorem bandTurn_of_ready {b : Band} (hfailed : (s.core c).failed = false) (hfrozen : s.freezes c = []) (hb : s.band c n = some b)
    (hmay : b.mayIssue s.cycle = true) (hpaths : b.reconverge 34 = b) :
    (turned s rest).bandTurn c n = if (bandMeets s rest c n b).picked c n
      then ((bandMeets s rest c n b).bandFetched c n b).bandIssue c n b else .next (bandMeets s rest c n b) := by
  have hready : b.st ≠ .done := by
    intro hdone
    simp [Band.mayIssue, hdone] at hmay
  unfold State.bandTurn
  extract_lets k u
  rw [show u.band c n = some b from hb]
  dsimp only
  rw [show u.freezes c = [] from hfrozen, show k.failed = false from hfailed, show b.mayIssue u.cycle = true from hmay, hpaths]
  simp only [List.any_nil, Bool.or_self, Bool.not_true, Bool.false_eq_true, if_false, hready, ne_eq, not_true_eq_false]
  cases hpick : (bandMeets s rest c n b).picked c n
  · exact if_pos (congrArg not hpick)
  · exact if_neg (by rw [show (u.onBand c n fun _ => b).picked c n = true from hpick]; exact Bool.false_ne_true)

theorem onBand_watch (s : State) (f : Band → Band) (d : Nat) : ((s.onBand c n f).core d).watch = (s.core d).watch := by
  refine core_onCore_proj Core.watch (fun k => ?_) d
  rfl

/-- The word that a band fetches is no `DP` pair when its `DP` bit is clear. -/
theorem pairFetch_single {w : Nat} (h : (BitVec.ofNat 64 w).getLsbD 48 = false ∨ decodeLane (BitVec.ofNat 64 w) = none) :
    s.pairFetch c n w = none := by
  unfold State.pairFetch
  rcases h with h | h
  · simp only [h, Bool.false_and, Bool.false_eq_true, if_false]
  · simp only [h, Option.isSome_none, Bool.and_false, Bool.false_eq_true, if_false]

/-- What the layout unit keeps of a band's fetch. -/
theorem bandFetched_core_proj {α : Type} (g : Core → α) (hg : ∀ (k : Core) tlb tlrs, g { k with tlb := tlb, tlrs := tlrs } = g k) (b : Band) (d : Nat) :
    g ((s.bandFetched c n b).core d) = g (s.core d) := by
  unfold State.bandFetched
  split
  · dsimp only
    split
    · rw [fetchTouch_core_proj g hg, fetchTouch_core_proj g hg]
    · rw [fetchTouch_core_proj g hg]
  · rfl
theorem bandFetched_cycle (b : Band) : (s.bandFetched c n b).cycle = s.cycle := by
  unfold State.bandFetched
  split
  · dsimp only
    split
    · rw [fetchTouch_cycle, fetchTouch_cycle]
    · rw [fetchTouch_cycle]
  · rfl

theorem bandActs_cycle (b : Band) : (bandActs s rest c n b).cycle = s.cycle := bandFetched_cycle _
theorem bandActs_watch (b : Band) : ((bandActs s rest c n b).core c).watch = (s.core c).watch := by
  have hmeets : ((bandMeets s rest c n b).core c).watch = (s.core c).watch := onBand_watch _ _ _
  exact (onBand_watch _ _ _).trans ((bandFetched_core_proj Core.watch (fun _ _ _ => rfl) b c).trans hmeets)

/-- A band's word that is no instruction raises ILLEGAL_OP (R87). -/
theorem bandIssue_illegal {b : Band} {w : Nat} (hw : (bandActs s rest c n b).bandFetch c n = .word w)
    (hd : decodeLane (BitVec.ofNat 64 w) = none) :
    ((bandMeets s rest c n b).bandFetched c n b).bandIssue c n b = exec .illegalOp (bandActs s rest c n b) := by
  have hdec : (bandActs s rest c n b).laneDecode c n (BitVec.ofNat 64 w) = none := by rw [State.laneDecode, hd]
  have hpair : (bandActs s rest c n b).pairFetch c n w = none := pairFetch_single (.inr hd)
  unfold State.bandIssue
  extract_lets u b' hold t
  rw [show t.bandFetch c n = .word w from hw]
  dsimp only
  rw [show t.pairFetch c n w = none from hpair]
  dsimp only
  rw [show t.laneDecode c n (BitVec.ofNat 64 w) = _ from hdec]
  rfl

/-- A band's word that is one instruction runs (R80). -/
theorem bandIssue_instr {b : Band} {w : Nat} {i : Instr} (hw : (bandActs s rest c n b).bandFetch c n = .word w)
    (hd : decodeLane (BitVec.ofNat 64 w) = some i) (hdp : (BitVec.ofNat 64 w).getLsbD 48 = false) :
    ((bandMeets s rest c n b).bandFetched c n b).bandIssue c n b = (bandActs s rest c n b).bandInstr c n (issuing b) i none := by
  have hdec : (bandActs s rest c n b).laneDecode c n (BitVec.ofNat 64 w) = some (i, none) := by
    rw [State.laneDecode, hd]
    simp only [hdp, Bool.not_false, if_true]
  have hpair : (bandActs s rest c n b).pairFetch c n w = none := pairFetch_single (.inl hdp)
  unfold State.bandIssue
  extract_lets u b' hold t
  rw [show t.bandFetch c n = .word w from hw]
  dsimp only
  rw [show t.pairFetch c n w = none from hpair]
  dsimp only
  rw [show t.laneDecode c n (BitVec.ofNat 64 w) = _ from hdec]
  rfl

/-- An instruction of a band that no breakpoint meets issues when it does not stay (R216). -/
theorem bandInstr_of_exec {b : Band} {i : Instr} {t : State} (ht : exec i s = .next t) :
    (t.stays c n b = true → s.bandInstr c n b i none = .next t)
    ∧ (t.stays c n b = false → matchBreak ((s.core c).watch.lbp.filter fun e => e.1 / 8 = n / 16) b.pc = none →
        s.bandInstr c n b i none = .next ((t.takePipes c n (s.laneUse b i) none).onBand c n fun a =>
          { a.settle with bpSkip := false, lastIssue := s.cycle, readyAt := max a.readyAt (s.cycle + 1) })) := by
  have hrun : s.runPair c n b i none = .next t := ht
  unfold State.bandInstr
  rw [hrun]
  refine ⟨fun hs => if_pos hs, fun hs hbreak => ?_⟩
  dsimp only [Out.andThen]
  simp only [hs, hbreak, Option.map_none, Bool.false_eq_true, if_false, ite_self]

theorem bandRunsItsInstruction : BandRunsItsInstruction := by
  intro s c n b i rest w h hp hfailed hfrozen hb hmay hpaths hw
  have hstep := (step_of_upNext h).trans ((running hp _ _).trans (bandTurn_of_ready hfailed hfrozen hb hmay hpaths))
  refine ⟨fun hpick => ?_, fun hpick => ⟨fun hd => ?_, fun hd hdp hbreak t ht => ?_⟩⟩
  · rw [hstep, hpick]
    rfl
  · rw [hstep, hpick, if_pos rfl, bandIssue_illegal hw hd]
  · rw [hpick, if_pos rfl, bandIssue_instr hw hd hdp] at hstep
    have hinstr := bandInstr_of_exec (c := c) (n := n) (b := issuing b) ht
    rw [bandActs_watch, bandActs_cycle] at hinstr
    obtain ⟨hstay, hgo⟩ := hinstr
    exact ⟨fun hs => hstep.trans (hstay hs), fun hs => hstep.trans (hgo hs hbreak)⟩

end

/-! ### The turn that comes next -/

/-- The first of the turns with the least rank: those before it have a greater rank, those after it none less. -/
theorem firstTurn_spec (rank : Turn → Nat) (t : Turn) (l : List Turn) : ∃ before after, t :: l = before ++ (firstTurn rank t l).1 :: after
    ∧ (firstTurn rank t l).2 = before ++ after ∧ (∀ u ∈ before, rank (firstTurn rank t l).1 < rank u)
    ∧ ∀ u ∈ after, rank (firstTurn rank t l).1 ≤ rank u := by
  induction l generalizing t with
  | nil => exact ⟨[], [], rfl, rfl, fun u hu => absurd hu List.not_mem_nil, fun u hu => absurd hu List.not_mem_nil⟩
  | cons v l ih =>
    obtain ⟨before, after, hlist, hothers, hbefore, hafter⟩ := ih v
    rw [firstTurn]
    dsimp only
    split
    · next hle =>
      refine ⟨[], v :: l, rfl, rfl, fun u hu => absurd hu List.not_mem_nil, fun u hu => hle.trans ?_⟩
      rw [hlist, List.mem_append, List.mem_cons] at hu
      rcases hu with hu | rfl | hu
      · exact (hbefore u hu).le
      · exact le_rfl
      · exact hafter u hu
    · next hlt =>
      refine ⟨t :: before, after, congrArg (t :: ·) hlist, congrArg (t :: ·) hothers, fun u hu => ?_, hafter⟩
      rcases List.mem_cons.mp hu with rfl | hu
      · exact not_le.mp hlt
      · exact hbefore u hu

/-- The state that ranks the turns of a step. -/
def ranking (s : State) : State := { s with fresh := s.fresh + 1 }

/-- What comes next of an agenda that begins with a turn before the end of the cycle. -/
theorem nextPick_cons {s : State} {t : Turn} {l : List Turn} (h : s.agenda = t :: l) (ht : t ≠ .cycle) :
    s.nextPick = ((firstTurn s.turnRank t (l.takeWhile fun u => u ≠ .cycle)).1,
      (firstTurn s.turnRank t (l.takeWhile fun u => u ≠ .cycle)).2 ++ l.dropWhile fun u => u ≠ .cycle) := by
  unfold State.nextPick
  rw [h]
  split
  · next h => cases h
  · next h =>
    cases h
    exact absurd rfl ht
  · next h =>
    cases h
    rw [List.takeWhile_nil, List.dropWhile_nil, firstTurn]
    rfl
  · next h =>
    cases h
    rw [List.span_eq_takeWhile_dropWhile]

theorem upNext_cons {s : State} {t : Turn} {l : List Turn} (h : s.agenda = t :: l) (ht : t ≠ .cycle) :
    upNext s = ((firstTurn (ranking s).turnRank t (l.takeWhile fun u => u ≠ .cycle)).1,
      (firstTurn (ranking s).turnRank t (l.takeWhile fun u => u ≠ .cycle)).2 ++ l.dropWhile fun u => u ≠ .cycle) :=
  nextPick_cons (s := ranking s) h ht

theorem takeWhile_dropWhile {α : Type} (p : α → Bool) (l : List α) : (l.dropWhile p).takeWhile p = [] := by
  induction l with
  | nil => rfl
  | cons a l ih =>
    rw [List.dropWhile_cons]
    split
    · exact ih
    · exact List.takeWhile_cons_of_neg ‹_›

/-- The turn that comes first in order among those before the end of the cycle. -/
theorem upNext_spec {s : State} {t : Turn} {rest : List Turn} (hne : s.agenda ≠ []) (h : upNext s = (t, rest)) :
    ∃ l r, s.agenda = l ++ t :: r ∧ rest = l ++ r ∧ (t = .cycle → l = [])
      ∧ (t ≠ .cycle → Turn.cycle ∉ l ∧ (∀ u ∈ l, (ranking s).turnRank t < (ranking s).turnRank u)
        ∧ ∀ u ∈ r.takeWhile (fun u => u ≠ .cycle), (ranking s).turnRank t ≤ (ranking s).turnRank u) := by
  cases hl : s.agenda with
  | nil => exact absurd hl hne
  | cons a l =>
    by_cases ha : a = .cycle
    · subst ha
      have hcycle : upNext s = (.cycle, l) := by
        unfold upNext State.nextPick
        dsimp only
        rw [hl]
      rw [hcycle] at h
      cases h
      exact ⟨[], rest, rfl, rfl, fun _ => rfl, fun hne => absurd rfl hne⟩
    · rw [upNext_cons hl ha] at h
      cases h
      obtain ⟨before, after, hlist, hothers, hbefore, hafter⟩ := firstTurn_spec (ranking s).turnRank a (l.takeWhile fun u => u ≠ .cycle)
      have hnow : ∀ u ∈ a :: l.takeWhile (fun u => u ≠ .cycle), u ≠ .cycle := by
        intro u hu
        rcases List.mem_cons.mp hu with rfl | hu
        · exact ha
        · simpa using List.mem_takeWhile_imp hu
      have hafterNow : ∀ u ∈ after, decide (u ≠ Turn.cycle) = true := fun u hu =>
        decide_eq_true (hnow u (by rw [hlist]; exact List.mem_append_right _ (List.mem_cons_of_mem _ hu)))
      refine ⟨before, after ++ l.dropWhile fun u => u ≠ .cycle, ?_, ?_, ?_, ?_⟩
      · rw [← List.cons_append, ← List.append_assoc, ← hlist, List.cons_append, List.takeWhile_append_dropWhile]
      · rw [hothers, List.append_assoc]
      · intro hcycle
        exact absurd hcycle (hnow _ (by rw [hlist]; simp))
      · intro _
        refine ⟨fun hc => hnow _ (by rw [hlist]; exact List.mem_append_left _ hc) rfl, hbefore, ?_⟩
        rw [List.takeWhile_append_of_pos hafterNow, takeWhile_dropWhile, List.append_nil]
        exact hafter

/-- The place of an event lies after the bundles and before the policy engines. -/
theorem eventRank_bounds (i : Instr) : 0 < eventRank i ∧ eventRank i < 34 := by
  unfold eventRank
  split <;> decide

theorem bandRank_ge (s : State) (c n : Nat) : 40 ≤ s.turnRank (.band c n) := by
  unfold State.turnRank
  dsimp only
  split <;> omega

/-- Of two turns the second comes first when its place is the lesser. -/
theorem firstTurn_later {rank : Turn → Nat} {t v : Turn} {l rest : List Turn} {u : Turn} (h : firstTurn rank u l = (v, rest)) (hlt : rank v < rank t) :
    firstTurn rank t (u :: l) = (v, t :: rest) := by
  rw [firstTurn, h]
  exact if_neg (not_le.mpr hlt)

/-- An agenda without the end of the cycle: the next turn is the first in order of all. -/
theorem upNext_of_firstTurn {s : State} {t v : Turn} {l rest : List Turn} (h : s.agenda = t :: l) (ht : ∀ u ∈ t :: l, u ≠ .cycle)
    (hf : firstTurn (ranking s).turnRank t l = (v, rest)) : upNext s = (v, rest) := by
  have hl : ∀ u ∈ l, decide (u ≠ Turn.cycle) = true := fun u hu => decide_eq_true (ht u (List.mem_cons_of_mem _ hu))
  rw [upNext_cons h (ht t List.mem_cons_self), List.takeWhile_eq_self_iff.mpr hl, List.dropWhile_eq_nil_iff.mpr hl, hf, List.append_nil]

theorem turnsComeInOrder : TurnsComeInOrder := by
  refine ⟨fun s t rest hne h => upNext_spec hne h, ?_, ?_, ?_, ?_⟩
  · intro s i c n e h
    refine upNext_of_firstTurn h (by simp) ?_
    refine firstTurn_later (firstTurn_later (firstTurn_later rfl (eventRank_bounds i).1) (show 0 < 34 by decide)) ?_
    exact Nat.lt_of_lt_of_le (show 0 < 40 by decide) (bandRank_ge _ c n)
  · intro s i c n e h
    refine upNext_of_firstTurn h (by simp) ?_
    refine firstTurn_later (firstTurn_later rfl (eventRank_bounds i).2) ?_
    exact Nat.lt_of_lt_of_le ((eventRank_bounds i).2.trans (by decide)) (bandRank_ge _ c n)
  · intro s c n e h
    refine upNext_of_firstTurn h (by simp) ?_
    exact firstTurn_later rfl (Nat.lt_of_lt_of_le (show 34 < 40 by decide) (bandRank_ge _ c n))
  · intro i hi s h
    have hrank : ∀ i ∈ contextOrder.zip (contextOrder.drop 1) ++ portOrder.zip (portOrder.drop 1), eventRank i.1 < eventRank i.2 := by decide
    exact upNext_of_firstTurn h (by simp) (firstTurn_later rfl (hrank i hi))

/-- Settles O56: each part says what the turn that `upNext` takes does; the clock clauses rest on `tick_cycle`. -/
theorem stepRunsTheDecodedInstruction : Obligations.StepRunsTheDecodedInstruction :=
  ⟨sequencerRunsItsBundle, sequencerMeetsIllegalWords, bandRunsItsInstruction, engineRunsItsInstruction, eventsHappen, turnsComeInOrder⟩

end Sys2Proof.Proofs
end

section
/-!
SUPPORT. The control port's commands: with no firmware, with one, and the registers of a partition (R98 to R102, R314, R357, R411).
-/

namespace Sys2Proof.Proofs

open Sys2Proof Sys2Proof.Machine Sys2Proof.Claims

/-! ### Commands -/

section
variable {s : State}

theorem ctl_on (h : s.fwStatus = .ok) (f : State → State) : s.ctl f = f s := if_pos h
theorem ctl_off (h : s.fwStatus ≠ .ok) (f : State → State) : s.ctl f = s.answer s.fwStatus := if_neg h

/-- Every command of the control port first asks whether firmware runs (R411). -/
theorem portCommand_ctl {i : Instr} (h : i ∈ portCommands) : ∃ f : State → State, ∀ s, exec i s = .next (s.ctl f) := by
  simp only [portCommands, List.cons_append, List.nil_append, List.mem_cons, List.not_mem_nil, or_false] at h
  rcases h with rfl | rfl | rfl | rfl | rfl | rfl | rfl | rfl | rfl | rfl | rfl | rfl | rfl | rfl | rfl | rfl | rfl | rfl | rfl | rfl | rfl | rfl
    | rfl | rfl | rfl | rfl | rfl | rfl | rfl | rfl | rfl | rfl | rfl | rfl | rfl | rfl | rfl | rfl | rfl | rfl | rfl | rfl
  all_goals exact ⟨_, fun _ => rfl⟩

end

theorem noFirmware : NoFirmware := by
  intro s i h hi
  obtain ⟨f, hf⟩ := portCommand_ctl hi
  exact (hf s).trans (congrArg _ (ctl_off h f))

/-- A command with firmware running does what it does after that question. -/
theorem exec_ctl {s t : State} {i : Instr} {f : State → State} (hi : ∀ s, exec i s = .next (s.ctl f)) (h : s.fwStatus = .ok) (ht : f s = t) :
    exec i s = .next t := by
  rw [hi, ctl_on h, ht]

/-! ### Fields of words -/

theorem bf_eq_fld (w : Word) (lo n : Nat) : bf w.toNat lo n = fld w lo n := by rw [bf, fld, Nat.shiftRight_eq_div_pow]
theorem baseHome_eq_fld (w : Word) : baseHome w = fld w 61 2 := bf_eq_fld w 61 2
theorem baseFrame_eq_fld (w : Word) : baseFrame w = fld w 0 40 := bf_eq_fld w 0 40
theorem truncate_ofNat64 {n : Nat} (h : n ≤ 64) (v : Nat) : (BitVec.ofNat 64 v).truncate n = BitVec.ofNat n v := by
  apply BitVec.eq_of_toNat_eq
  simp [Nat.mod_mod_of_dvd _ (Nat.pow_dvd_pow 2 h)]

/-! ### Searches over the partitions and contexts -/

theorem any_others {p : Nat} {f : Nat → Bool} : ((List.range 16).any fun o => decide (o ≠ p) && f o) = true ↔ ∃ o < 16, o ≠ p ∧ f o = true := by
  simp only [List.any_eq_true, List.mem_range, Bool.and_eq_true, decide_eq_true_eq]

theorem partBusy_iff {s : State} {p : Nat} : s.partBusy p = true ↔ busy s p := by
  simp only [State.partBusy, Context.busy, List.any_eq_true, List.mem_range, Bool.or_eq_true, decide_eq_true_eq, busy]

theorem coresNamed_iff {s : State} {p : Nat} {m : Word} : s.coresNamed p m = true ↔
    ∃ x < 16, (s.ctx (16 * p + x)).st ∉ [CState.empty, .retired] ∧ (s.ctx (16 * p + x)).cores &&& m ≠ 0 := by
  simp only [State.coresNamed, List.any_eq_true, List.mem_range, Bool.and_eq_true, decide_eq_true_eq, List.mem_cons, List.not_mem_nil, or_false,
    not_or, ne_eq, and_assoc]

/-! ### Cores that a mask names -/

theorem mem_bitsOf {m n c : Nat} : c ∈ bitsOf m n ↔ c < n ∧ m.testBit c = true := by
  simp only [bitsOf, List.mem_filter, List.mem_range]

/-- One change each of the cores of a list. -/
theorem core_foldl_onCore {l : List Nat} (hl : l.Nodup) (f : Nat → Core → Core) (s : State) {c : Nat} (hc : c < 64) :
    (l.foldl (fun s c => s.onCore c (f c)) s).core c = if c ∈ l then f c (s.core c) else s.core c := by
  induction l generalizing s with
  | nil => rfl
  | cons a l ih =>
    obtain ⟨hmem, hnodup⟩ := List.nodup_cons.mp hl
    rw [List.foldl_cons, ih hnodup]
    by_cases hca : c = a
    · subst hca
      rw [if_neg hmem, if_pos List.mem_cons_self, State.core_onCore_same _ hc]
    · rw [State.core_onCore_ne _ hca]
      simp only [List.mem_cons, hca, false_or]

theorem core_onCores (s : State) (m : Word) (f : Nat → Core → Core) {c : Nat} (hc : c < 64) :
    (s.onCores m f).core c = if m.getLsbD c = true then f c (s.core c) else s.core c := by
  have hmem : c ∈ bitsOf m.toNat 64 ↔ m.getLsbD c = true := by
    rw [mem_bitsOf, BitVec.testBit_toNat]
    exact and_iff_right hc
  have hnodup : (bitsOf m.toNat 64).Nodup := List.nodup_range.filter _
  rw [State.onCores, core_foldl_onCore hnodup f s hc]
  simp only [hmem]

/-- Changing cores leaves the partitions alone. -/
theorem part_onCores (s : State) (m : Word) (f : Nat → Core → Core) (p : Nat) : (s.onCores m f).part p = s.part p := by
  unfold State.onCores
  induction bitsOf m.toNat 64 generalizing s with
  | nil => rfl
  | cons a l ih => exact ih _

@[simp] theorem part_answer (s : State) (st : Status) (d : List Byte) (p : Nat) : (s.answer st d).part p = s.part p := rfl
@[simp] theorem ctx_answer (s : State) (st : Status) (d : List Byte) (x : Nat) : (s.answer st d).ctx x = s.ctx x := rfl
@[simp] theorem core_answer (s : State) (st : Status) (d : List Byte) (c : Nat) : (s.answer st d).core c = s.core c := rfl

/-! ### The commands on a partition -/

section
variable {s : State}

theorem coreMaskWrite_spec (h : s.fwStatus = .ok) :
    let p := reqPart s
    let w := reqWord s
    let q := s.part p
    let owned := ∃ o < 16, o ≠ p ∧ (s.part o).cores &&& w ≠ 0
    let named := ∃ x < 16, (s.ctx (16 * p + x)).st ∉ [CState.empty, .retired] ∧ (s.ctx (16 * p + x)).cores &&& (q.cores &&& ~~~w) ≠ 0
    (owned → refused .coreMaskWrite s .coreOwned)
    ∧ (¬ owned → busy s p → refused .coreMaskWrite s .partitionBusy)
    ∧ (¬ owned → ¬ busy s p → named → refused .coreMaskWrite s .coreOwned)
    ∧ (¬ owned → ¬ busy s p → ¬ named → ∃ u, exec .coreMaskWrite s = .next u ∧ u.resp = ⟨.ok, []⟩ ∧ u.part p = { q with cores := w }
        ∧ (∀ o < 16, o ≠ p → u.part o = s.part o)
        ∧ ∀ c < 64, u.core c = if q.cores.getLsbD c = true ∧ w.getLsbD c = false then { s.core c with credits := 0 } else s.core c) := by
  intro p w q owned named
  have howned : ((List.range 16).any fun o => decide (o ≠ p) && decide ((s.part o).cores &&& w ≠ 0)) = true ↔ owned := by
    simp only [any_others, decide_eq_true_eq, owned]
  have hnamed : s.coresNamed p (q.cores &&& ~~~w) = true ↔ named := coresNamed_iff
  have hbusy := partBusy_iff (s := s) (p := p)
  refine ⟨fun ho => ?_, fun ho hb => ?_, fun ho hb hn => ?_, fun ho hb hn => ?_⟩
  · exact exec_ctl (i := .coreMaskWrite) (fun _ => rfl) h (if_pos (howned.mpr ho))
  · exact exec_ctl (i := .coreMaskWrite) (fun _ => rfl) h ((if_neg (howned.not.mpr ho)).trans (if_pos (hbusy.mpr hb)))
  · exact exec_ctl (i := .coreMaskWrite) (fun _ => rfl) h
      ((if_neg (howned.not.mpr ho)).trans ((if_neg (hbusy.not.mpr hb)).trans (if_pos (hnamed.mpr hn))))
  · let t := s.onCores (q.cores &&& ~~~w) fun _ k => { k with credits := 0 }
    have hrun : exec .coreMaskWrite s = .next ((t.onPart p fun q => { q with cores := w }).answer .ok) :=
      exec_ctl (i := .coreMaskWrite) (fun _ => rfl) h
        ((if_neg (howned.not.mpr ho)).trans ((if_neg (hbusy.not.mpr hb)).trans (if_neg (hnamed.not.mpr hn))))
    have hparts : ∀ o, t.part o = s.part o := part_onCores _ _ _
    have hp : p < 16 := Nat.mod_lt _ (by decide)
    refine ⟨_, hrun, rfl, ?_, ?_, ?_⟩
    · rw [part_answer, State.part_onPart_same t hp, hparts]
    · intro o _ hne
      rw [part_answer, State.part_onPart_ne t hne, hparts]
    · intro c hc
      refine (core_onCores s (q.cores &&& ~~~w) (fun _ k => { k with credits := 0 }) hc).trans ?_
      have hgone : (q.cores &&& ~~~w).getLsbD c = true ↔ q.cores.getLsbD c = true ∧ w.getLsbD c = false := by
        simp [hc]
      simp only [hgone]

theorem rootMaskWrite_spec (h : s.fwStatus = .ok) :
    let p := reqPart s
    let roots := ∃ o < 16, o ≠ p ∧ (s.part o).roots &&& BitVec.ofNat 16 s.req.value ≠ 0
    (roots → refused .rootMaskWrite s .rootOwned) ∧ (¬ roots → busy s p → refused .rootMaskWrite s .partitionBusy)
    ∧ (¬ roots → ¬ busy s p → doneAs .rootMaskWrite s (s.onPart p fun q => { q with roots := BitVec.ofNat 16 s.req.value })) := by
  intro p roots
  have hword : s.rv.truncate 16 = BitVec.ofNat 16 s.req.value := truncate_ofNat64 (by decide) _
  have hroots : ((List.range 16).any fun o => decide (o ≠ p) && decide ((s.part o).roots &&& s.rv.truncate 16 ≠ 0)) = true ↔ roots := by
    simp only [any_others, decide_eq_true_eq, roots, hword]
  have hbusy := partBusy_iff (s := s) (p := p)
  refine ⟨fun hr => ?_, fun hr hb => ?_, fun hr hb => ?_⟩
  · exact exec_ctl (i := .rootMaskWrite) (fun _ => rfl) h (if_pos (hroots.mpr hr))
  · exact exec_ctl (i := .rootMaskWrite) (fun _ => rfl) h ((if_neg (hroots.not.mpr hr)).trans (if_pos (hbusy.mpr hb)))
  · rw [← hword]
    exact exec_ctl (i := .rootMaskWrite) (fun _ => rfl) h ((if_neg (hroots.not.mpr hr)).trans (if_neg (hbusy.not.mpr hb)))

/-- Two polder ranges share a frame (R100). -/
theorem polderMeets_iff (e r : Word) : (baseSet e && polderMeets e r) = true ↔
    e.getLsbD 63 = true ∧ fld e 61 2 = fld r 61 2 ∧ fld e 0 27 ≠ 0 ∧ fld r 0 27 ≠ 0
      ∧ fld e 32 27 < fld r 32 27 + fld r 0 27 ∧ fld r 32 27 < fld e 32 27 + fld e 0 27 := by
  simp only [polderMeets, baseSet, baseHome_eq_fld, bf_eq_fld, Bool.and_eq_true, decide_eq_true_eq]
  tauto

theorem polderRangeWrite_spec (h : s.fwStatus = .ok) :
    let p := reqPart s
    let r := reqWord s &&& 0xE7FFFFFF07FFFFFF#64
    let meets := fun (e : Word) => e.getLsbD 63 = true ∧ fld e 61 2 = fld r 61 2 ∧ fld e 0 27 ≠ 0 ∧ fld r 0 27 ≠ 0
      ∧ fld e 32 27 < fld r 32 27 + fld r 0 27 ∧ fld r 32 27 < fld e 32 27 + fld e 0 27
    let overlap := ∃ o < 16, o ≠ p ∧ ∃ e ∈ (s.part o).polders.toList, meets e
    (busy s p → refused .polderRangeWrite s .partitionBusy)
    ∧ (¬ busy s p → 2 ≤ fld r 61 2 → refused .polderRangeWrite s .polderHome)
    ∧ (¬ busy s p → fld r 61 2 ≤ 1 → overlap → refused .polderRangeWrite s .polderOverlap)
    ∧ (¬ busy s p → fld r 61 2 ≤ 1 → ¬ overlap → s.req.n < 16 →
        doneAs .polderRangeWrite s (s.onPart p fun q => { q with polders := q.polders.setIfInBounds s.req.n r })) := by
  intro p r meets overlap
  have hbusy := partBusy_iff (s := s) (p := p)
  have hhome : 1 < baseHome r ↔ 2 ≤ fld r 61 2 := by rw [baseHome_eq_fld]; exact Iff.rfl
  have hoverlap : ((List.range 16).any fun o => decide (o ≠ p) && (s.part o).polders.toList.any fun e => baseSet e && polderMeets e r) = true
      ↔ overlap := by
    rw [any_others]
    simp only [List.any_eq_true, polderMeets_iff, overlap, meets]
  refine ⟨fun hb => ?_, fun hb hh => ?_, fun hb hh ho => ?_, fun hb hh ho _ => ?_⟩
  · exact exec_ctl (i := .polderRangeWrite) (fun _ => rfl) h (if_pos (hbusy.mpr hb))
  · exact exec_ctl (i := .polderRangeWrite) (fun _ => rfl) h ((if_neg (hbusy.not.mpr hb)).trans (if_pos (hhome.mpr hh)))
  · exact exec_ctl (i := .polderRangeWrite) (fun _ => rfl) h
      ((if_neg (hbusy.not.mpr hb)).trans ((if_neg (hhome.not.mpr (by omega))).trans (if_pos (hoverlap.mpr ho))))
  · exact exec_ctl (i := .polderRangeWrite) (fun _ => rfl) h
      ((if_neg (hbusy.not.mpr hb)).trans ((if_neg (hhome.not.mpr (by omega))).trans (if_neg (hoverlap.not.mpr ho))))

theorem vectorPendingClear_spec (h : s.fwStatus = .ok) :
    doneAs .vectorPendingClear s (s.onPart (reqPart s) fun q => { q with vecs := q.vecs &&& ~~~reqWord s }) :=
  exec_ctl (i := .vectorPendingClear) (fun _ => rfl) h rfl

end

/-! ### Runs of frames inside the polders (R100) -/

/-- A range of a polder list holds a frame of a home. -/
def rangeHolds (h f : Nat) (e : Word) : Bool :=
  e.getLsbD 63 && decide (bf e.toNat 61 2 = h) && decide (bf e.toNat 32 27 ≤ f) && decide (f < bf e.toNat 32 27 + bf e.toNat 0 27)
/-- The frame after a range. -/
def rangeEnd (e : Word) : Nat := bf e.toNat 32 27 + bf e.toNat 0 27

section
variable (q : Partition)

theorem inPolder_iff (h f : Nat) : q.inPolder h f = true ↔ frameValid h f = true ∧ ∃ e ∈ q.polders.toList, rangeHolds h f e = true := by
  rw [Partition.inPolder, Bool.and_eq_true, List.any_eq_true]
  rfl

/-- The fold of `polderEnd` over some ranges. -/
theorem foldl_rangeEnd (h f m : Nat) (l : List Word) :
    let z := l.foldl (fun m e => if rangeHolds h f e then max m (rangeEnd e) else m) m
    m ≤ z ∧ (∀ e ∈ l, rangeHolds h f e = true → rangeEnd e ≤ z) ∧ (z = m ∨ ∃ e ∈ l, rangeHolds h f e = true ∧ z = rangeEnd e) := by
  induction l generalizing m with
  | nil => exact ⟨le_rfl, fun e he => absurd he List.not_mem_nil, .inl rfl⟩
  | cons a l ih =>
    intro z
    by_cases ha : rangeHolds h f a = true
    · have hz : z = l.foldl (fun m e => if rangeHolds h f e then max m (rangeEnd e) else m) (max m (rangeEnd a)) := by
        simp only [z, List.foldl_cons, ha, if_true]
      obtain ⟨hle, hall, hcase⟩ := ih (max m (rangeEnd a))
      rw [← hz] at hle hall hcase
      refine ⟨(le_max_left _ _).trans hle, fun e he hh => ?_, ?_⟩
      · rcases List.mem_cons.mp he with rfl | he
        · exact (le_max_right _ _).trans hle
        · exact hall e he hh
      · rcases hcase with hc | ⟨e, he, hh, hc⟩
        · rcases le_total m (rangeEnd a) with hm | hm
          · exact .inr ⟨a, List.mem_cons_self, ha, hc.trans (max_eq_right hm)⟩
          · exact .inl (hc.trans (max_eq_left hm))
        · exact .inr ⟨e, List.mem_cons_of_mem _ he, hh, hc⟩
    · have hz : z = l.foldl (fun m e => if rangeHolds h f e then max m (rangeEnd e) else m) m := by
        simp only [z, List.foldl_cons, ha, Bool.false_eq_true, if_false]
      obtain ⟨hle, hall, hcase⟩ := ih m
      rw [← hz] at hle hall hcase
      refine ⟨hle, fun e he hh => ?_, ?_⟩
      · rcases List.mem_cons.mp he with rfl | he
        · exact absurd hh ha
        · exact hall e he hh
      · rcases hcase with hc | ⟨e, he, hh, hc⟩
        · exact .inl hc
        · exact .inr ⟨e, List.mem_cons_of_mem _ he, hh, hc⟩

/-- The frame after the range that reaches furthest: beyond `f` exactly when a range holds `f`. -/
theorem polderEnd_spec (h f : Nat) : f ≤ q.polderEnd h f ∧ (∀ e ∈ q.polders.toList, rangeHolds h f e = true → rangeEnd e ≤ q.polderEnd h f)
    ∧ (q.polderEnd h f = f ∨ ∃ e ∈ q.polders.toList, rangeHolds h f e = true ∧ q.polderEnd h f = rangeEnd e) := by
  have hfold : q.polderEnd h f = q.polders.toList.foldl (fun m e => if rangeHolds h f e then max m (rangeEnd e) else m) f := rfl
  rw [hfold]
  exact foldl_rangeEnd h f f _

theorem rangeHolds_iff {h f : Nat} {e : Word} : rangeHolds h f e = true ↔
    (e.getLsbD 63 = true ∧ bf e.toNat 61 2 = h) ∧ bf e.toNat 32 27 ≤ f ∧ f < rangeEnd e := by
  simp only [rangeHolds, rangeEnd, Bool.and_eq_true, decide_eq_true_eq, and_assoc]

/-- A run that the walk accepts lies in the ranges. -/
theorem holds_of_polderRun {h l n f : Nat} (hrun : q.polderRun h l n f = true) (g : Nat) (hf : f ≤ g) (hg : g < l) :
    ∃ e ∈ q.polders.toList, rangeHolds h g e = true := by
  induction n generalizing f with
  | zero => exact absurd (hf.trans_lt hg) (not_lt.mpr (of_decide_eq_true hrun))
  | succ n ih =>
    rw [Partition.polderRun, Bool.or_eq_true, Bool.and_eq_true, bne_iff_ne] at hrun
    rcases hrun with hrun | ⟨hne, hrun⟩
    · exact absurd (hf.trans_lt hg) (not_lt.mpr (of_decide_eq_true hrun))
    · rcases Nat.lt_or_ge g (q.polderEnd h f) with hlt | hge
      · obtain ⟨_, _, heq | ⟨e, he, hh, hend⟩⟩ := polderEnd_spec q h f
        · exact absurd heq hne
        · rw [rangeHolds_iff] at hh
          obtain ⟨hhome, hlo, _⟩ := hh
          exact ⟨e, he, rangeHolds_iff.mpr ⟨hhome, hlo.trans hf, hend ▸ hlt⟩⟩
      · exact ih hrun hge

/-- The walk accepts a run that lies in the ranges: every step passes the end of one range more. -/
theorem polderRun_of_holds {h l n f : Nat} (hall : ∀ g, f ≤ g → g < l → ∃ e ∈ q.polders.toList, rangeHolds h g e = true)
    (hn : (q.polders.toList.filter fun e => f < rangeEnd e).length < n) : q.polderRun h l n f = true := by
  induction n generalizing f with
  | zero => exact absurd hn (Nat.not_lt_zero _)
  | succ n ih =>
    rw [Partition.polderRun, Bool.or_eq_true, Bool.and_eq_true, bne_iff_ne]
    rcases Nat.lt_or_ge f l with hlt | hge
    · refine .inr ?_
      obtain ⟨hle, hends, hcase⟩ := polderEnd_spec q h f
      obtain ⟨e, he, hh⟩ := hall f le_rfl hlt
      have hbeyond : f < q.polderEnd h f := (rangeHolds_iff.mp hh).2.2.trans_le (hends e he hh)
      refine ⟨hbeyond.ne', ih (fun g hg => hall g (hle.trans hg)) ?_⟩
      obtain ⟨e0, he0, hend⟩ : ∃ e0 ∈ q.polders.toList, q.polderEnd h f = rangeEnd e0 := by
        rcases hcase with heq | ⟨e0, he0, _, hend⟩
        · exact absurd heq hbeyond.ne'
        · exact ⟨e0, he0, hend⟩
      have hfilter : q.polders.toList.filter (fun e => q.polderEnd h f < rangeEnd e)
          = (q.polders.toList.filter fun e => f < rangeEnd e).filter fun e => q.polderEnd h f < rangeEnd e := by
        rw [List.filter_filter]
        refine List.filter_congr fun e _ => ?_
        rw [Bool.eq_iff_iff, Bool.and_eq_true, decide_eq_true_eq, decide_eq_true_eq]
        exact ⟨fun h => ⟨h, hbeyond.trans h⟩, fun h => h.1⟩
      have hless := List.length_filter_lt_length_iff_exists.mpr (⟨e0, List.mem_filter.mpr ⟨he0, decide_eq_true (hend ▸ hbeyond)⟩,
        fun hlt => (of_decide_eq_true hlt).ne hend⟩ :
          ∃ x ∈ q.polders.toList.filter (fun e => f < rangeEnd e), ¬ decide (q.polderEnd h f < rangeEnd x) = true)
      rw [hfilter]
      omega
    · exact .inl (decide_eq_true hge)

theorem frameValid_mono {h f g : Nat} (hv : frameValid h g = true) (hle : f ≤ g) : frameValid h f = true := by
  unfold frameValid at hv ⊢
  split at hv
  · next h0 =>
    rw [if_pos h0]
    exact decide_eq_true (hle.trans_lt (of_decide_eq_true hv))
  · next h0 =>
    rw [if_neg h0]
    rw [Bool.and_eq_true, decide_eq_true_eq, decide_eq_true_eq] at hv ⊢
    exact ⟨hv.1, hle.trans_lt hv.2⟩

/-- R100: a run of frames lies in the polders when every frame of it does. -/
theorem framesIn_iff {h f n : Nat} (hn : n ≠ 0) : q.framesIn h f n = true ↔ ∀ i < n, q.inPolder h (f + i) = true := by
  have hmax : max n 1 = n := max_eq_left (Nat.one_le_iff_ne_zero.mpr hn)
  rw [Partition.framesIn, Bool.and_eq_true, Bool.and_eq_true, hmax]
  refine ⟨fun ⟨⟨_, hlast⟩, hrun⟩ i hi => ?_, fun hall => ⟨⟨?_, ?_⟩, ?_⟩⟩
  · exact (inPolder_iff q h _).mpr ⟨frameValid_mono hlast (by omega), holds_of_polderRun q hrun _ (by omega) (by omega)⟩
  · exact ((inPolder_iff q h _).mp (hall 0 (by omega))).1
  · have hlast := ((inPolder_iff q h _).mp (hall (n - 1) (by omega))).1
    rwa [show f + n - 1 = f + (n - 1) by omega]
  · refine polderRun_of_holds q (fun g hf hg => ?_) ?_
    · have hin := ((inPolder_iff q h _).mp (hall (g - f) (by omega))).2
      rwa [show f + (g - f) = g by omega] at hin
    · refine (List.length_filter_le _ _).trans_lt ?_
      rw [Vector.length_toList]
      decide

end

/-- Two changes of a partition that agree on it are one. -/
theorem onPart_congr {s : State} {p : Nat} {f g : Partition → Partition} (h : f (s.part p) = g (s.part p)) : s.onPart p f = s.onPart p g := by
  rw [State.onPart, h, State.onPart]

/-! ### Free frames and the registers without a behaviour of their own -/

section
variable {s : State}

theorem freeFrameAppend_spec (h : s.fwStatus = .ok) :
    let q := s.part (reqPart s)
    let w := reqWord s
    let home := s.req.n % 2
    let list := if home = 0 then q.free0 else q.free1
    let inside := ∀ i < fld w 0 27, q.inPolder home (fld w 32 27 + i) = true
    let formed := w &&& ~~~0x07FFFFFF07FFFFFF#64 = 0 ∧ fld w 0 27 ≠ 0
    (¬ formed → refused .freeFrameAppend s .cpFrame) ∧ (formed → ¬ inside → refused .freeFrameAppend s .polderFault)
    ∧ (formed → inside → 1024 ≤ list.length → refused .freeFrameAppend s .framesFull)
    ∧ (formed → inside → list.length < 1024 → doneAs .freeFrameAppend s (s.onPart (reqPart s) fun q =>
        if home = 0 then { q with free0 := list ++ [(fld w 32 27, fld w 0 27)] } else { q with free1 := list ++ [(fld w 32 27, fld w 0 27)] })) := by
  intro q w home list inside formed
  have hformed : (decide (w &&& ~~~0x07FFFFFF07FFFFFF#64 ≠ 0) || decide (bf w.toNat 0 27 = 0)) = true ↔ ¬ formed := by
    rw [Bool.or_eq_true, decide_eq_true_eq, decide_eq_true_eq, bf_eq_fld]
    simp only [formed, not_and_or, not_not, ne_eq]
  have hinside (hf : formed) : (!q.framesIn home (bf w.toNat 32 27) (bf w.toNat 0 27)) = true ↔ ¬ inside := by
    rw [Bool.not_eq_true', Bool.eq_false_iff, ne_eq, bf_eq_fld, bf_eq_fld, framesIn_iff q hf.2]
  refine ⟨fun hf => ?_, fun hf hi => ?_, fun hf hi hl => ?_, fun hf hi hl => ?_⟩
  · exact exec_ctl (i := .freeFrameAppend) (fun _ => rfl) h (if_pos (hformed.mpr hf))
  · exact exec_ctl (i := .freeFrameAppend) (fun _ => rfl) h
      ((if_neg (hformed.not.mpr (not_not.mpr hf))).trans (if_pos ((hinside hf).mpr hi)))
  · exact exec_ctl (i := .freeFrameAppend) (fun _ => rfl) h
      ((if_neg (hformed.not.mpr (not_not.mpr hf))).trans ((if_neg ((hinside hf).not.mpr (not_not.mpr hi))).trans (if_pos hl)))
  · refine exec_ctl (i := .freeFrameAppend) (fun _ => rfl) h
      ((if_neg (hformed.not.mpr (not_not.mpr hf))).trans ((if_neg ((hinside hf).not.mpr (not_not.mpr hi))).trans
        ((if_neg (not_le.mpr hl)).trans ?_)))
    have hp : reqPart s < 16 := Nat.mod_lt _ (by decide)
    refine congrArg (fun t : State => t.answer .ok) (onPart_congr ?_)
    by_cases hh : home = 0
    · have hlist : list = q.free0 := if_pos hh
      rw [if_pos hh, hlist, bf_eq_fld, bf_eq_fld]
      exact (if_pos hh).symm
    · have hlist : list = q.free1 := if_neg hh
      rw [if_neg hh, hlist, bf_eq_fld, bf_eq_fld]
      exact (if_neg hh).symm

theorem raiseVector_health (s : State) (p v : Nat) (x : Option (BitVec 4)) : (s.raiseVector p v x).health = s.health := by
  unfold State.raiseVector
  split <;> rfl

theorem setHealth_health (h : BitVec 128) : (s.setHealth h).health = h := by
  unfold State.setHealth
  split
  · next he => exact he.symm
  · exact List.foldlRecOn (motive := fun t : State => t.health = h) _ _ rfl fun t ht p _ => (raiseVector_health t p 6 none).trans ht

theorem cpRegisterWrite_spec (h : s.fwStatus = .ok) :
    let a := s.req.addr
    let w := reqWord s
    (a % 8 ≠ 0 → refused .cpRegisterWrite s .cpFrame)
    ∧ (∀ j < 16, a = 0x1000000 + 0x100000 * j + 0x10 → doneAs .cpRegisterWrite s (s.onPart j fun q => { q with bandq := w.toNat % 2 ^ 14 }))
    ∧ (∀ j < 256, a = 0x11000000 + 0x10000 * j + 0xC00 → doneAs .cpRegisterWrite s (s.onCtx j fun k => { k with cancelWord := w }))
    ∧ (∀ j < 256, a = 0x11000000 + 0x10000 * j + 0xC10 →
        doneAs .cpRegisterWrite s (s.onCtx j fun k => { k with launchSel := BitVec.ofNat 32 s.req.value }))
    ∧ (∀ g < 256, a = 0x1000 + 8 * g → w &&& ~~~0x7FFFFF#64 ≠ 0 →
        doneAs .cpRegisterWrite s { s with groups := aput s.groups g (w &&& ~~~0x7FFFFF#64) })
    ∧ (a = 8 → w.getLsbD 6 = true → ∃ u, exec .cpRegisterWrite s = .next u ∧ u.health = s.health &&& ~~~(1#128 <<< 70) ∧ u.resp = ⟨.ok, []⟩)
    ∧ (∀ j, a = 0x18000000 + 8 * j → doneAs .cpRegisterWrite s s) := by
  intro a w
  refine ⟨fun ha => ?_, fun j hj ha => ?_, fun j hj ha => ?_, fun j hj ha => ?_, fun g hg ha hw => ?_, fun ha hw => ?_, fun j ha => ?_⟩
  · exact exec_ctl (i := .cpRegisterWrite) (fun _ => rfl) h (if_pos ha)
  · have h8 : ¬ s.req.addr = 8 := by omega
    have hgroups : (decide (0x1000 ≤ s.req.addr) && decide (s.req.addr < 0x1800)) = false := by simp; omega
    have hbandq : (decide (0x1000000 ≤ s.req.addr) && decide (s.req.addr < 0x2000000) && decide (s.req.addr % 0x100000 = 0x10)) = true := by
      simp; omega
    have hj' : (s.req.addr - 0x1000000) / 0x100000 = j := by omega
    refine exec_ctl (i := .cpRegisterWrite) (fun _ => rfl) h ((if_neg (by omega)).trans ?_)
    simp only [h8, hgroups, hbandq, hj', if_false, if_true, Bool.false_eq_true]
    rfl
  · have h8 : ¬ s.req.addr = 8 := by omega
    have hgroups : (decide (0x1000 ≤ s.req.addr) && decide (s.req.addr < 0x1800)) = false := by simp; omega
    have hbandq : (decide (0x1000000 ≤ s.req.addr) && decide (s.req.addr < 0x2000000) && decide (s.req.addr % 0x100000 = 0x10)) = false := by
      simp; omega
    have hcancel : (decide (0x11000000 ≤ s.req.addr) && decide (s.req.addr < 0x12000000) && decide (s.req.addr % 0x10000 = 0xC00)) = true := by
      simp; omega
    have hj' : (s.req.addr - 0x11000000) / 0x10000 = j := by omega
    refine exec_ctl (i := .cpRegisterWrite) (fun _ => rfl) h ((if_neg (by omega)).trans ?_)
    simp only [h8, hgroups, hbandq, hcancel, hj', if_false, if_true, Bool.false_eq_true]
    rfl
  · have h8 : ¬ s.req.addr = 8 := by omega
    have hgroups : (decide (0x1000 ≤ s.req.addr) && decide (s.req.addr < 0x1800)) = false := by simp; omega
    have hbandq : (decide (0x1000000 ≤ s.req.addr) && decide (s.req.addr < 0x2000000) && decide (s.req.addr % 0x100000 = 0x10)) = false := by
      simp; omega
    have hcancel : (decide (0x11000000 ≤ s.req.addr) && decide (s.req.addr < 0x12000000) && decide (s.req.addr % 0x10000 = 0xC00)) = false := by
      simp; omega
    have hselect : (decide (0x11000000 ≤ s.req.addr) && decide (s.req.addr < 0x12000000) && decide (s.req.addr % 0x10000 = 0xC10)) = true := by
      simp; omega
    have hj' : (s.req.addr - 0x11000000) / 0x10000 = j := by omega
    have hword : s.rv.truncate 32 = BitVec.ofNat 32 s.req.value := truncate_ofNat64 (by decide) _
    refine exec_ctl (i := .cpRegisterWrite) (fun _ => rfl) h ((if_neg (by omega)).trans ?_)
    simp only [h8, hgroups, hbandq, hcancel, hselect, hj', hword, if_false, if_true, Bool.false_eq_true]
    rfl
  · have h8 : ¬ s.req.addr = 8 := by omega
    have hgroups : (decide (0x1000 ≤ s.req.addr) && decide (s.req.addr < 0x1800)) = true := by simp; omega
    have hg' : (s.req.addr - 0x1000) / 8 = g := by omega
    have hw' : ¬ s.rv &&& ~~~0x7FFFFF#64 = 0 := hw
    refine exec_ctl (i := .cpRegisterWrite) (fun _ => rfl) h ((if_neg (by omega)).trans ?_)
    simp only [h8, hgroups, hg', hw', if_false, if_true]
    rfl
  · have h8 : s.req.addr = 8 := ha
    refine ⟨(s.setHealth (s.health &&& ~~~(1#128 <<< 70))).answer .ok, exec_ctl (i := .cpRegisterWrite) (fun _ => rfl) h ((if_neg (by omega)).trans ?_),
      setHealth_health _, rfl⟩
    have hw' : s.rv.getLsbD 6 = true := hw
    simp only [h8, hw', if_true]
  · have h8 : ¬ s.req.addr = 8 := by omega
    have hgroups : (decide (0x1000 ≤ s.req.addr) && decide (s.req.addr < 0x1800)) = false := by simp; omega
    have hbandq : (decide (0x1000000 ≤ s.req.addr) && decide (s.req.addr < 0x2000000)) = false := by simp; omega
    have hcontext : (decide (0x11000000 ≤ s.req.addr) && decide (s.req.addr < 0x12000000)) = false := by simp; omega
    refine exec_ctl (i := .cpRegisterWrite) (fun _ => rfl) h ((if_neg (by omega)).trans ?_)
    simp only [h8, hgroups, hbandq, hcontext, Bool.false_and, if_false, Bool.false_eq_true]
    rfl

end

theorem partitionRegisters : PartitionRegisters := by
  intro s h p w q others owned named roots r meets overlap
  obtain ⟨hc1, hc2, hc3, hc4⟩ := coreMaskWrite_spec h
  obtain ⟨hr1, hr2, hr3⟩ := rootMaskWrite_spec h
  obtain ⟨hp1, hp2, hp3, hp4⟩ := polderRangeWrite_spec h
  exact ⟨hc1, hc2, hc3, hc4, hr1, hr2, hr3, hp1, hp2, hp3, hp4, vectorPendingClear_spec h, freeFrameAppend_spec h, cpRegisterWrite_spec h⟩

end Sys2Proof.Proofs
end

section
/-!
SUPPORT. The control port's commands on a context (R103 to R105, R109, R126, R130, R326, R331).
-/

namespace Sys2Proof.Proofs

open Sys2Proof Sys2Proof.Machine Sys2Proof.Claims

theorem bnot_of_false {b : Bool} (h : b = false) : (!b) = true := by rw [h]; rfl
theorem bnot_of_true {b : Bool} (h : b = true) : ¬ (!b) = true := by rw [h]; decide

section
variable {s : State}

theorem reqCtx_lt (s : State) : reqCtx s < 256 := by
  have hp : reqPart s < 16 := Nat.mod_lt _ (by decide)
  have hx : s.req.ctx % 16 < 16 := Nat.mod_lt _ (by decide)
  unfold reqCtx
  omega

theorem reqCtx_div (s : State) : reqCtx s / 16 = reqPart s := by
  have hx : s.req.ctx % 16 < 16 := Nat.mod_lt _ (by decide)
  unfold reqCtx
  omega

/-! ### Descriptor fields (R103, R104) -/

theorem logOk_iff (k : Context) : k.logOk = true ↔ k.record = false ∨ k.logsz = 0 ∨ k.log.getLsbD 63 = true := by
  simp only [Context.logOk, baseSet, Bool.or_eq_true, Bool.not_eq_true', decide_eq_true_eq, or_assoc]

/-- The states of a context in which a field may be written: early fields before the image is there, late fields while no launch runs. -/
def fieldOpen (late : Bool) : CState → Bool
  | .empty | .loading => true
  | .ready | .preempted => late
  | _ => false

theorem early_open_iff (st : CState) : fieldOpen false st = true ↔ st = .empty ∨ st = .loading := by
  cases st <;> simp [fieldOpen]

theorem late_open_iff (st : CState) : fieldOpen true st = true ↔ (st = .empty ∨ st = .loading) ∨ st = .ready ∨ st = .preempted := by
  cases st <;> simp [fieldOpen]

theorem descField_eq (s : State) (late : Bool) (bad : Option Status) (f : Context → Context) :
    s.descField late bad f = if !fieldOpen late (s.ctx (reqCtx s)).st then s.answer .contextBusy
      else match bad with
        | some st => s.answer st
        | none => if !(f (s.ctx (reqCtx s))).logOk then s.answer .contextBases else (s.onCtx (reqCtx s) f).answer .ok := rfl

theorem descField_closed {late : Bool} (h : ¬ fieldOpen late (s.ctx (reqCtx s)).st = true) (bad : Option Status) (f : Context → Context) :
    s.descField late bad f = s.answer .contextBusy :=
  (descField_eq s late bad f).trans (if_pos (bnot_of_false (Bool.eq_false_iff.mpr h)))

theorem descField_refused {late : Bool} (h : fieldOpen late (s.ctx (reqCtx s)).st = true) (st : Status) (f : Context → Context) :
    s.descField late (some st) f = s.answer st :=
  (descField_eq s late (some st) f).trans (if_neg (bnot_of_true h))

/-- R103: the checks of a base, in their order. -/
theorem baseStatus_spec (q : Partition) {w : Word} (hv : w.getLsbD 63 = true) :
    let formed := fld w 40 21 = 0 ∧ fld w 61 2 ≤ 1
    (¬ formed → baseStatus q w = some .cpFrame)
    ∧ (formed → q.inPolder (fld w 61 2) (fld w 0 40) = false → baseStatus q w = some .polderFault)
    ∧ (formed → q.inPolder (fld w 61 2) (fld w 0 40) = true → baseStatus q w = none) := by
  intro formed
  have hset : ¬ (!baseSet w) = true := by rw [baseSet, hv]; decide
  have hform : (decide (1 < baseHome w) || decide (bf w.toNat 40 21 ≠ 0)) = true ↔ ¬ formed := by
    rw [Bool.or_eq_true, decide_eq_true_eq, decide_eq_true_eq, baseHome_eq_fld, bf_eq_fld]
    simp only [formed]
    omega
  have hin : (!q.inPolder (baseHome w) (baseFrame w)) = true ↔ q.inPolder (fld w 61 2) (fld w 0 40) = false := by
    rw [Bool.not_eq_true', baseHome_eq_fld, baseFrame_eq_fld]
  refine ⟨fun hf => ?_, fun hf hi => ?_, fun hf hi => ?_⟩
  · exact (if_neg hset).trans (if_pos (hform.mpr hf))
  · exact (if_neg hset).trans ((if_neg (hform.not.mpr (not_not.mpr hf))).trans (if_pos (hin.mpr hi)))
  · have hin' := hin.not.mpr (by rw [hi]; decide)
    exact (if_neg hset).trans ((if_neg (hform.not.mpr (not_not.mpr hf))).trans (if_neg hin'))

/-- A descriptor word that no check refuses goes to its field (R103, R104). -/
theorem descField_put {late : Bool} {f : Context → Context} (hopen : fieldOpen late (s.ctx (reqCtx s)).st = true)
    (hlog : (f (s.ctx (reqCtx s))).record = false ∨ (f (s.ctx (reqCtx s))).logsz = 0 ∨ (f (s.ctx (reqCtx s))).log.getLsbD 63 = true) :
    s.descField late none f = (s.onCtx (reqCtx s) f).answer .ok := by
  exact (descField_eq s late none f).trans ((if_neg (bnot_of_true hopen)).trans (if_neg (bnot_of_true ((logOk_iff _).mpr hlog))))

/-- A write of a base: the four outcomes (R103, R104). -/
theorem base_spec {f : Context → Context}
    (hexec : exec .descriptorWrite s = .next (s.descField false (baseStatus (s.part (reqPart s)) (reqWord s)) f))
    (hkeeps : ∀ k, (f k).record = k.record ∧ (f k).logsz = k.logsz ∧ (f k).log = k.log) :
    let k := s.ctx (reqCtx s)
    let w := reqWord s
    let q := s.part (reqPart s)
    let early := k.st = .empty ∨ k.st = .loading
    let logKept := k.record = false ∨ k.logsz = 0 ∨ k.log.getLsbD 63 = true
    let formed := fld w 40 21 = 0 ∧ fld w 61 2 ≤ 1
    (¬ early → refused .descriptorWrite s .contextBusy)
    ∧ (early → w.getLsbD 63 = true → ¬ formed → refused .descriptorWrite s .cpFrame)
    ∧ (early → w.getLsbD 63 = true → formed → q.inPolder (fld w 61 2) (fld w 0 40) = false → refused .descriptorWrite s .polderFault)
    ∧ (early → w.getLsbD 63 = true → formed → q.inPolder (fld w 61 2) (fld w 0 40) = true → logKept →
        doneAs .descriptorWrite s (s.onCtx (reqCtx s) f)) := by
  intro k w q early logKept formed
  have hframe (hv : w.getLsbD 63 = true) (hf : ¬ formed) : baseStatus q w = some .cpFrame := (baseStatus_spec q hv).1 hf
  have hpolder (hv : w.getLsbD 63 = true) (hf : formed) (hi : q.inPolder (fld w 61 2) (fld w 0 40) = false) : baseStatus q w = some .polderFault :=
    (baseStatus_spec q hv).2.1 hf hi
  have hnone (hv : w.getLsbD 63 = true) (hf : formed) (hi : q.inPolder (fld w 61 2) (fld w 0 40) = true) : baseStatus q w = none :=
    (baseStatus_spec q hv).2.2 hf hi
  refine ⟨fun he => ?_, fun he hv hf => ?_, fun he hv hf hi => ?_, fun he hv hf hi hl => ?_⟩
  · exact hexec.trans (congrArg _ (descField_closed ((early_open_iff _).not.mpr he) _ _))
  · rw [hframe hv hf] at hexec
    exact hexec.trans (congrArg _ (descField_refused ((early_open_iff _).mpr he) _ _))
  · rw [hpolder hv hf hi] at hexec
    exact hexec.trans (congrArg _ (descField_refused ((early_open_iff _).mpr he) _ _))
  · rw [hnone hv hf hi] at hexec
    obtain ⟨hr, hs, hlg⟩ := hkeeps k
    exact hexec.trans (congrArg _ (descField_put ((early_open_iff _).mpr he) (by rw [hr, hs, hlg]; exact hl)))

/-- Which word of the descriptor the address names. -/
theorem word_valid {n : Nat} (h : s.req.addr = 8 * n) (hn : n < 16) :
    ¬ (decide (s.req.addr % 8 ≠ 0) || decide (128 ≤ s.req.addr)) = true ∧ s.req.addr / 8 = n := by
  refine ⟨?_, by omega⟩
  rw [Bool.or_eq_true, decide_eq_true_eq, decide_eq_true_eq]
  omega

/-- The words of the descriptor that hold a base (R103). -/
theorem descriptorWrite_base (h : s.fwStatus = .ok) :
    let base := fun (f : Context → Context) => exec .descriptorWrite s
      = .next (s.descField false (baseStatus (s.part (reqPart s)) (reqWord s)) f)
    (s.req.addr = 8 * 1 → base fun k => { k with ttab := reqWord s }) ∧ (s.req.addr = 8 * 2 → base fun k => { k with ptab := reqWord s })
    ∧ (s.req.addr = 8 * 5 → base fun k => { k with save := reqWord s }) ∧ (s.req.addr = 8 * 7 → base fun k => { k with keys := reqWord s })
    ∧ (s.req.addr = 8 * 8 → base fun k => { k with hot := reqWord s }) ∧ (s.req.addr = 8 * 9 → base fun k => { k with frec := reqWord s }) := by
  intro base
  refine ⟨fun ha => ?_, fun ha => ?_, fun ha => ?_, fun ha => ?_, fun ha => ?_, fun ha => ?_⟩
  all_goals
    obtain ⟨hvalid, hn⟩ := word_valid ha (by decide)
    refine exec_ctl (i := .descriptorWrite) (fun _ => rfl) h ((if_neg hvalid).trans ?_)
    rw [hn]
    rfl

/-- The set of spilled structures: SEQ, ENGQ and LEAF read 1 (R109). -/
theorem descriptorWrite_sset (h : s.fwStatus = .ok) (ha : s.req.addr = 8 * 6) :
    exec .descriptorWrite s = .next (s.descField true none fun k => { k with sset := BitVec.ofNat 10 s.req.value ||| 0x19 }) := by
  obtain ⟨hvalid, hn⟩ := word_valid ha (by decide)
  refine exec_ctl (i := .descriptorWrite) (fun _ => rfl) h ((if_neg hvalid).trans ?_)
  rw [hn, ← truncate_ofNat64 (by decide : 10 ≤ 64)]
  rfl

/-! ### The cores of a context (R103, R108) -/

theorem onCore_id {c : Nat} {f : Core → Core} (h : f (s.core c) = s.core c) : s.onCore c f = s := by
  have hset : s.cores.setIfInBounds c (s.core c) = s.cores := by
    apply Vector.ext
    intro i hi
    rw [Vector.getElem_setIfInBounds]
    split
    · next he =>
      subst he
      simp [State.core, hi]
    · rfl
  rw [State.onCore, h, State.setCore, hset]

theorem onCtx_id {x : Nat} {f : Context → Context} (h : f (s.ctx x) = s.ctx x) : s.onCtx x f = s := by
  have hset : s.ctxs.setIfInBounds x (s.ctx x) = s.ctxs := by
    apply Vector.ext
    intro i hi
    rw [Vector.getElem_setIfInBounds]
    split
    · next he =>
      subst he
      simp [State.ctx, hi]
    · rfl
  rw [State.onCtx, h, hset]

theorem foldl_id {α : Type} {f : State → α → State} {l : List α} (h : ∀ a ∈ l, f s a = s) : l.foldl f s = s := by
  induction l with
  | nil => rfl
  | cons a l ih =>
    rw [List.foldl_cons, h a List.mem_cons_self]
    exact ih fun b hb => h b (List.mem_cons_of_mem _ hb)

theorem filter_saved {l : List LEntry} {f : LEntry → Bool} (h : ∀ e ∈ l, e.saved = false) :
    l.filter (fun e => !(e.saved && f e)) = l ∧ l.filter (fun e => e.saved && f e) = [] := by
  constructor
  · exact List.filter_eq_self.mpr fun e he => by rw [h e he]; rfl
  · exact List.filter_eq_nil_iff.mpr fun e he => by rw [h e he]; exact Bool.false_ne_true

/-- With nothing saved there is nothing to move (R108). -/
theorem moveSaved_id {x : Nat} (old new : Word) (hsaved : ∀ c < 64, (∀ e ∈ (s.core c).list, e.saved = false) ∧ ∀ e ∈ (s.core c).returning, e.saved = false)
    (hl : (s.ctx x).launches = []) (hi : (s.ctx x).images = []) : s.moveSaved x old new = s := by
  unfold State.moveSaved
  extract_lets mine dest from_ t u
  have hempty : ∀ e ∈ from_, e.2 = [] := by
    intro e he
    obtain ⟨c, hc, rfl⟩ := List.mem_map.mp he
    obtain ⟨hlist, hret⟩ := hsaved c (mem_bitsOf.mp hc).1
    have hall : ∀ e ∈ (s.core c).returning ++ (s.core c).list, e.saved = false := fun e he =>
      (List.mem_append.mp he).elim (hret e) (hlist e)
    exact List.map_eq_nil_iff.mpr (filter_saved hall).2
  have ht : t = s := foldl_id fun c hc => by
    obtain ⟨hlist, hret⟩ := hsaved c (mem_bitsOf.mp hc).1
    refine onCore_id ?_
    show ({ s.core c with list := _, returning := _ } : Core) = s.core c
    rw [(filter_saved hlist).1, (filter_saved hret).1]
  have hu : u = s := by
    refine (foldl_id fun e he => ?_ : u = t).trans ht
    refine onCore_id ?_
    show ({ t.core e.1 with returning := _ } : Core) = t.core e.1
    rw [hempty e he, List.append_nil]
  rw [hu]
  refine onCtx_id ?_
  show ({ s.ctx x with launches := _, images := _ } : Context) = s.ctx x
  rw [hl, hi, List.map_nil, List.map_nil, ← hl, ← hi]

/-- The write of CORES (R103, R108): a context's cores are cores of its partition. -/
theorem descriptorWrite_cores (h : s.fwStatus = .ok) (ha : s.req.addr = 8 * 10) :
    let k := s.ctx (reqCtx s)
    let q := s.part (reqPart s)
    let w := reqWord s
    let late := (k.st = .empty ∨ k.st = .loading) ∨ k.st = .ready ∨ k.st = .preempted
    let logKept := k.record = false ∨ k.logsz = 0 ∨ k.log.getLsbD 63 = true
    (¬ late → refused .descriptorWrite s .contextBusy) ∧ (late → w &&& ~~~q.cores ≠ 0 → refused .descriptorWrite s .coreOwned)
    ∧ (late → w &&& ~~~q.cores = 0 → k.images = [] → k.launches = [] → logKept →
        (∀ c < 64, (∀ e ∈ (s.core c).list, e.saved = false) ∧ ∀ e ∈ (s.core c).returning, e.saved = false) →
        doneAs .descriptorWrite s (s.onCtx (reqCtx s) fun k => { k with cores := w })) := by
  intro k q w late logKept
  obtain ⟨hvalid, hn⟩ := word_valid ha (by decide)
  let bad : Option Status :=
    if (w &&& ~~~q.cores) ≠ 0 then some .coreOwned
    else if !k.images.isEmpty && popcount w.toNat 64 ≠ popcount k.cores.toNat 64 then some .contextBusy
    else none
  have hexec {t : State} (ht : s.descField true bad (fun k => { k with cores := w }) = t) :
      exec .descriptorWrite s = .next (if t.resp.status = .ok then t.moveSaved (reqCtx s) k.cores w else t) := by
    refine exec_ctl (i := .descriptorWrite) (fun _ => rfl) h ((if_neg hvalid).trans ?_)
    rw [hn, ← ht]
    rfl
  refine ⟨fun hl => ?_, fun hl hw => ?_, fun hl hw hi hlaunch hlog hsaved => ?_⟩
  · exact hexec (descField_closed ((late_open_iff _).not.mpr hl) _ _)
  · have hbad : bad = some .coreOwned := if_pos hw
    have hrefused : s.descField true bad (fun k => { k with cores := w }) = s.answer .coreOwned := by
      rw [hbad]
      exact descField_refused ((late_open_iff _).mpr hl) _ _
    exact hexec hrefused
  · have hbad : bad = none := by
      refine (if_neg (not_not.mpr hw)).trans (if_neg ?_)
      rw [hi]
      exact Bool.false_ne_true
    have hput : s.descField true bad (fun k => { k with cores := w }) = (s.onCtx (reqCtx s) fun k => { k with cores := w }).answer .ok := by
      rw [hbad]
      exact descField_put ((late_open_iff _).mpr hl) hlog
    refine (hexec hput).trans (congrArg _ ((if_pos rfl).trans (moveSaved_id _ _ hsaved ?_ ?_)))
    · rw [ctx_answer, State.ctx_onCtx_same _ (reqCtx_lt s)]
      exact hlaunch
    · rw [ctx_answer, State.ctx_onCtx_same _ (reqCtx_lt s)]
      exact hi

theorem descriptorWrite_spec (h : s.fwStatus = .ok) :
    let k := s.ctx (reqCtx s)
    let late := (k.st = .empty ∨ k.st = .loading) ∨ k.st = .ready ∨ k.st = .preempted
    let logKept := k.record = false ∨ k.logsz = 0 ∨ k.log.getLsbD 63 = true
    (s.req.addr % 8 ≠ 0 ∨ 128 ≤ s.req.addr → refused .descriptorWrite s .cpFrame)
    ∧ (s.req.addr = 8 * 6 → (¬ late → refused .descriptorWrite s .contextBusy)
        ∧ (late → logKept → doneAs .descriptorWrite s (s.onCtx (reqCtx s) fun k => { k with sset := BitVec.ofNat 10 s.req.value ||| 0x19 }))) := by
  intro k late logKept
  refine ⟨fun hbad => ?_, fun ha => ⟨fun hl => ?_, fun hl hlog => ?_⟩⟩
  · refine exec_ctl (i := .descriptorWrite) (fun _ => rfl) h (if_pos ?_)
    rw [Bool.or_eq_true, decide_eq_true_eq, decide_eq_true_eq]
    exact hbad
  · exact (descriptorWrite_sset h ha).trans (congrArg _ (descField_closed ((late_open_iff _).not.mpr hl) _ _))
  · exact (descriptorWrite_sset h ha).trans (congrArg _ (descField_put ((late_open_iff _).mpr hl) hlog))

/-! ### Loading and scrubbing (R104, R105, R126) -/

theorem imageLoadOpen_spec (h : s.fwStatus = .ok) :
    let k := s.ctx (reqCtx s)
    let q := s.part (reqPart s)
    let bases := k.ttab.getLsbD 63 = true ∧ k.ptab.getLsbD 63 = true ∧ k.frec.getLsbD 63 = true ∧ k.save.getLsbD 63 = true
      ∧ (k.logsz = 0 ∨ k.log.getLsbD 63 = true) ∧ k.cores ≠ 0 ∧ k.cores &&& ~~~q.cores = 0
    (k.st ≠ .empty → refused .imageLoadOpen s .contextBusy) ∧ (k.st = .empty → ¬ bases → refused .imageLoadOpen s .contextBases)
    ∧ (k.st = .empty → bases → doneAs .imageLoadOpen s (s.onCtx (reqCtx s) fun k => { k with st := .loading })) := by
  intro k q bases
  have hbases : (baseSet k.ttab && baseSet k.ptab && baseSet k.frec && baseSet k.save && (decide (k.logsz = 0) || baseSet k.log) && decide (k.cores ≠ 0)
      && decide ((k.cores &&& ~~~q.cores) = 0)) = true ↔ bases := by
    simp only [baseSet, Bool.and_eq_true, Bool.or_eq_true, decide_eq_true_eq, and_assoc, bases]
  refine ⟨fun hst => ?_, fun hst hb => ?_, fun hst hb => ?_⟩
  · exact exec_ctl (i := .imageLoadOpen) (fun _ => rfl) h (if_pos hst)
  · exact exec_ctl (i := .imageLoadOpen) (fun _ => rfl) h ((if_neg (not_not.mpr hst)).trans (if_neg (hbases.not.mpr hb)))
  · exact exec_ctl (i := .imageLoadOpen) (fun _ => rfl) h ((if_neg (not_not.mpr hst)).trans (if_pos (hbases.mpr hb)))

theorem contextScrub_spec (h : s.fwStatus = .ok) :
    let k := s.ctx (reqCtx s)
    (k.st ≠ .retired → refused .contextScrub s .contextBusy)
    ∧ (k.st = .retired → doneAs .contextScrub s (s.onCtx (reqCtx s) fun k => { Context.reset with checks := k.checks })) :=
  ⟨fun hst => exec_ctl (i := .contextScrub) (fun _ => rfl) h (if_neg hst), fun hst => exec_ctl (i := .contextScrub) (fun _ => rfl) h (if_pos hst)⟩

/-! ### Counters and cancels (R326, R331) -/

theorem depCounterWrite_spec (h : s.fwStatus = .ok) :
    let k := s.ctx (reqCtx s)
    (k.active = true → refused .depCounterWrite s .contextBusy)
    ∧ (k.active = false → doneAs .depCounterWrite s (s.onCtx (reqCtx s) fun k => { k with
        deps := aput k.deps (s.req.n % 256) ⟨(BitVec.ofNat 32 s.req.value).toInt, (reqWord s).getLsbD 32⟩ })) := by
  intro k
  refine ⟨fun ha => ?_, fun ha => ?_⟩
  · exact exec_ctl (i := .depCounterWrite) (fun _ => rfl) h (if_pos ha)
  · refine exec_ctl (i := .depCounterWrite) (fun _ => rfl) h ((if_neg (by rw [show (s.ctx s.rx).active = false from ha]; exact Bool.false_ne_true)).trans ?_)
    rw [← truncate_ofNat64 (by decide : 32 ≤ 64)]
    rfl

theorem cancelCommand_spec (h : s.fwStatus = .ok) :
    let k := s.ctx (reqCtx s)
    (4 < s.req.value % 8 → refused .cancelCommand s .cpFrame)
    ∧ (∀ m, s.req.value % 8 ≤ 4 → cancelOf (reqCtx s) (s.req.value % 8) k.cancelWord 0 = some m → 2 ≤ m.level ∨ m.id ≠ 0 →
        doneAs .cancelCommand s { s with nextId := s.nextId + 1, cancels := s.cancels ++ [{ m with core := 64, num := s.nextId }] }) := by
  intro k
  have hlevel : s.rv.toNat % 8 = s.req.value % 8 := by
    rw [show s.rv.toNat = s.req.value % 2 ^ 64 from BitVec.toNat_ofNat _ _]
    omega
  refine ⟨fun hl => ?_, fun m hl hm hid => ?_⟩
  · exact exec_ctl (i := .cancelCommand) (fun _ => rfl) h (if_pos (hlevel ▸ hl))
  · refine exec_ctl (i := .cancelCommand) (fun _ => rfl) h ((if_neg (by rw [hlevel]; omega)).trans ?_)
    have hm' : cancelOf s.rx (s.rv.toNat % 8) (s.ctx s.rx).cancelWord 0 = some m := by rw [hlevel]; exact hm
    have hnone : ¬ (decide (m.level ≤ 1) && decide (m.id = 0)) = true := by
      rw [Bool.and_eq_true, decide_eq_true_eq, decide_eq_true_eq]
      omega
    rw [hm']
    exact if_neg hnone

end

/-! ### The image is loaded (R126, R127) -/

section
variable {s : State}

theorem raiseVector_ctx (s : State) (p v : Nat) (z : Option (BitVec 4)) (x : Nat) : (s.raiseVector p v z).ctx x = s.ctx x := by
  unfold State.raiseVector
  split <;> rfl

/-- A raised vector is pending (R102). -/
theorem raiseVector_pending (s : State) {p v : Nat} (hp : p < 16) (hv : v < 64) (z : Option (BitVec 4)) :
    ((s.raiseVector p v z).part p).vecs.getLsbD v = true := by
  unfold State.raiseVector
  split
  · next hpending => exact hpending
  · show ((s.onPart p fun q => { q with vecs := q.vecs ||| BitVec.ofNat 64 (1 <<< v) }).part p).vecs.getLsbD v = true
    rw [State.part_onPart_same s hp]
    show ((s.part p).vecs ||| BitVec.ofNat 64 (1 <<< v)).getLsbD v = true
    rw [BitVec.getLsbD_or, BitVec.getLsbD_ofNat, Nat.one_shiftLeft, Nat.testBit_two_pow_self, decide_eq_true hv]
    exact Bool.or_true _

/-- A context that fails is FAILED and vector 0 of its partition is raised (R132). -/
theorem failContext_spec {x : Nat} (hx : x < 256) (hst : (s.ctx x).st = .loading) :
    ((s.failContext x).ctx x).st = .failed ∧ ((s.failContext x).part (x / 16)).vecs.getLsbD 0 = true := by
  unfold State.failContext
  rw [hst]
  exact ⟨by rw [raiseVector_ctx, State.ctx_onCtx_same _ hx], raiseVector_pending _ (by omega) (by decide) _⟩

theorem imageTransfer_spec (h : s.fwStatus = .ok) :
    let x := reqCtx s
    let k := s.ctx x
    (k.st ≠ .loading → refused .imageTransfer s .contextBusy)
    ∧ (∀ st, k.st = .loading → imageSections s.req.bytes = .error st → ∃ u, exec .imageTransfer s = .next u ∧ u.resp = ⟨st, []⟩
        ∧ (u.ctx x).st = .failed ∧ (u.part (reqPart s)).vecs.getLsbD 0 = true)
    ∧ (∀ l t, k.st = .loading → imageSections s.req.bytes = .ok l → (s.clearInit x).applySections x l = (t, .ok) →
        doneAs .imageTransfer s (t.onCtx x fun k => { k with st := .ready, nextLid := 1, lastLid := 0, lstate := 0, deps := [] })) := by
  intro x k
  refine ⟨fun hst => ?_, fun st hst he => ?_, fun l t hst hl ht => ?_⟩
  · exact exec_ctl (i := .imageTransfer) (fun _ => rfl) h (if_pos hst)
  · have hrun : exec .imageTransfer s = .next ((s.failContext x).answer st) := by
      refine exec_ctl (i := .imageTransfer) (fun _ => rfl) h ((if_neg (not_not.mpr hst)).trans ?_)
      rw [he]
      rfl
    obtain ⟨hfailed, hvec⟩ := failContext_spec (reqCtx_lt s) hst
    rw [reqCtx_div] at hvec
    exact ⟨_, hrun, rfl, hfailed, hvec⟩
  · refine exec_ctl (i := .imageTransfer) (fun _ => rfl) h ((if_neg (not_not.mpr hst)).trans ?_)
    have ht' : (s.clearInit s.rx).applySections s.rx l = (t, .ok) := ht
    simp only [hl, ht']
    rfl

end

/-! ### A context is retired (R105, R132) -/

section
variable {s : State}

/-- A core runs nothing of a context. -/
def coreClear (x : Nat) (k : Core) : Prop := k.runs x = false ∧ k.hasBands x = false

/-- The unit and the bands of a core. -/
def unitAndBands (k : Core) : Option SeqUnit × List (Nat × Band) := (k.unit, k.bands)

theorem coreClear_congr {x : Nat} {k j : Core} (h : unitAndBands j = unitAndBands k) : coreClear x k → coreClear x j := by
  obtain ⟨hunit, hbands⟩ := Prod.mk.inj h
  unfold coreClear Core.runs Core.hasBands
  rw [hunit, hbands]
  exact id

/-- What a core discards of a context (R105). -/
theorem discard_clear (k : Core) (x : Nat) : coreClear x (k.discard x) := by
  unfold Core.discard
  extract_lets j i
  have hbands : (k.bands.filter fun b => decide (b.2.slot ≠ x)).any (fun b => decide (b.2.slot = x)) = false := by
    rw [List.any_eq_false]
    intro b hb
    rw [decide_eq_true_eq]
    exact of_decide_eq_true (List.mem_filter.mp hb).2
  by_cases hruns : j.runs x = true
  · have hi : i = j.clearUnit := if_pos hruns
    rw [hi]
    exact ⟨rfl, hbands⟩
  · have hi : i = j := if_neg hruns
    rw [hi]
    exact ⟨Bool.eq_false_iff.mpr hruns, hbands⟩

theorem failArrivals_units (s : State) (c : Nat) (mine : CopyCmd → Bool) (d : Nat) :
    unitAndBands ((s.failArrivals c mine).core d) = unitAndBands (s.core d) := by
  unfold State.failArrivals
  refine List.foldlRecOn (motive := fun t : State => unitAndBands (t.core d) = unitAndBands (s.core d)) _ _ rfl fun t ht m _ => ?_
  refine (core_onCore_proj unitAndBands (fun k => ?_) d).trans ht
  split <;> rfl

theorem raiseSteals_cores (s : State) (p : Nat) : (s.raiseSteals p).cores = s.cores := by
  unfold State.raiseSteals
  dsimp only
  split
  · rfl
  · refine List.foldlRecOn (motive := fun t : State => t.cores = s.cores) _ _ rfl fun t ht c _ => ?_
    split
    · exact ht
    · exact ht

theorem raiseDispatch_cores (s : State) (p : Nat) : (s.raiseDispatch p).cores = s.cores := by
  unfold State.raiseDispatch
  split <;> rfl

theorem coreFreed_cores (s : State) (c : Nat) : (s.coreFreed c).cores = s.cores := by
  unfold State.coreFreed
  refine List.foldlRecOn (motive := fun t : State => t.cores = s.cores) _ _ rfl fun t ht p _ => ?_
  split
  · rw [raiseSteals_cores, raiseDispatch_cores, ht]
  · exact ht

theorem cancelLaunches_cores (s : State) (x : Nat) : (s.cancelLaunches x).cores = s.cores := by
  unfold State.cancelLaunches
  refine List.foldlRecOn (motive := fun t : State => t.cores = s.cores) _ _ rfl fun t ht l _ => ?_
  have hset : ∀ id st, (t.setLaunch x id st).cores = s.cores := fun id st => by
    unfold State.setLaunch
    extract_lets code last t1
    split <;> exact ht
  split
  · exact hset _ _
  · exact hset _ _
  · exact hset _ _
  · exact ht

theorem core_of_cores {s t : State} (h : t.cores = s.cores) (c : Nat) : t.core c = s.core c := by rw [State.core, h, State.core]

/-- One pass over a list: what each turn makes true of its own and leaves true of the others holds of all at the end, where it held of the
rest before. -/
theorem foldl_forall {α : Type} {f : State → α → State} {P : α → State → Prop} (hkeep : ∀ t a b, P b t → P b (f t a)) :
    ∀ (l : List α) (t : State), (∀ a ∈ l, ∀ t, P a (f t a)) → ∀ b, (b ∈ l ∨ P b t) → P b (l.foldl f t)
  | [], _, _, _, hb => hb.resolve_left List.not_mem_nil
  | a :: l, t, hown, b, hb => by
    refine foldl_forall hkeep l (f t a) (fun c hc => hown c (List.mem_cons_of_mem _ hc)) b ?_
    rcases hb with hb | hb
    · rcases List.mem_cons.mp hb with rfl | hb
      · exact .inr (hown b List.mem_cons_self t)
      · exact .inl hb
    · exact .inr (hkeep t a b hb)

/-- No core runs anything of a context whose work is discarded (R105). -/
theorem discardContext_clear (s : State) (x : Nat) {c : Nat} (hc : c < 64) : coreClear x ((s.discardContext x).core c) := by
  unfold State.discardContext
  extract_lets held t
  have hfreed : (held.foldl (fun (s : State) c => s.coreFreed c) t).cores = t.cores :=
    List.foldlRecOn (motive := fun u : State => u.cores = t.cores) _ _ rfl fun u hu d _ => (coreFreed_cores u d).trans hu
  rw [core_of_cores hfreed]
  refine foldl_forall (P := fun (d : Nat) (u : State) => coreClear x (u.core d)) (fun u a d hd => ?_) held s (fun a ha u => ?_) c ?_
  · dsimp only
    by_cases hda : d = a
    · subst hda
      by_cases hd64 : d < 64
      · rw [State.core_setCore_same _ hd64]
        exact coreClear_congr rfl (discard_clear _ x)
      · refine coreClear_congr ?_ hd
        rw [State.setCore, State.core, Vector.setIfInBounds_eq_of_size_le (by omega)]
        exact failArrivals_units u d _ d
    · rw [State.core_setCore_ne _ hda]
      exact coreClear_congr (failArrivals_units u a _ d) hd
  · dsimp only
    rw [State.core_setCore_same _ (List.mem_range.mp (List.mem_filter.mp ha).1)]
    exact coreClear_congr rfl (discard_clear _ x)
  · by_cases hheld : s.onCoreOf x c = true
    · exact .inl (List.mem_filter.mpr ⟨List.mem_range.mpr hc, hheld⟩)
    · refine .inr ?_
      rw [State.onCoreOf, Bool.or_eq_true, Bool.or_eq_true, not_or, not_or] at hheld
      exact ⟨Bool.eq_false_iff.mpr hheld.1.1, Bool.eq_false_iff.mpr hheld.1.2⟩

theorem stopContext_clear (s : State) (x : Nat) {c : Nat} (hc : c < 64) : coreClear x ((s.stopContext x).core c) :=
  discardContext_clear (s.cancelTasks x) x hc

theorem foldHot_cores (s : State) (t : TlbEntry) : (s.foldHot t).cores = s.cores := by
  unfold State.foldHot
  split
  · rfl
  · dsimp only
    split
    · exact State.setHome_cores _ _ _
    · rfl

/-- What the layout unit of a core keeps when it drops what it holds of a context. -/
def dropsCopies (x : Nat) (k : Core) : Core := { k with tlb := k.tlb.filter fun t => t.ctx ≠ x, tlrs := k.tlrs.filter fun t => t.ctx ≠ x }

theorem dropCopies_units (s : State) (x d : Nat) : unitAndBands ((s.dropCopies x).core d) = unitAndBands (s.core d) := by
  unfold State.dropCopies
  refine List.foldlRecOn (motive := fun t : State => unitAndBands (t.core d) = unitAndBands (s.core d)) _ _ rfl fun t ht c _ => ?_
  dsimp only
  split
  · exact ht
  · refine List.foldlRecOn (motive := fun u : State => unitAndBands (u.core d) = unitAndBands (s.core d)) _ _ ?_ fun u hu e _ => ?_
    · exact (core_onCore_proj unitAndBands (s := t) (c := c) (f := dropsCopies x) (fun _ => rfl) d).trans ht
    · rw [core_of_cores (foldHot_cores u e)]
      exact hu

/-- The device while a context is retired, before its slot says so. -/
def retiring (s : State) (x : Nat) : State := ((s.stopContext x).cancelLaunches x).dropCopies x

theorem retiring_clear (s : State) (x : Nat) {c : Nat} (hc : c < 64) : coreClear x ((retiring s x).core c) := by
  refine coreClear_congr (dropCopies_units _ x c) ?_
  rw [core_of_cores (cancelLaunches_cores _ x)]
  exact stopContext_clear s x hc

theorem contextRetire_spec (h : s.fwStatus = .ok) :
    let x := reqCtx s
    let k := s.ctx x
    (k.st ∉ [CState.ready, .preempted, .failed] → refused .contextRetire s .contextBusy)
    ∧ (k.st ∈ [CState.ready, .preempted, .failed] → ∃ u, exec .contextRetire s = .next u ∧ u.resp = ⟨.ok, []⟩ ∧ (u.ctx x).st = .retired
        ∧ (u.ctx x).images = [] ∧ ∀ c < 64, (u.core c).runs x = false ∧ (u.core c).hasBands x = false) := by
  intro x k
  refine ⟨fun hst => ?_, fun hst => ?_⟩
  · simp only [List.mem_cons, List.not_mem_nil, or_false, not_or] at hst
    obtain ⟨hready, hpreempted, hfailed⟩ := hst
    refine exec_ctl (i := .contextRetire) (fun _ => rfl) h ?_
    dsimp only
    split
    · next hs => exact absurd hs hready
    · next hs => exact absurd hs hpreempted
    · next hs => exact absurd hs hfailed
    · rfl
  · have hrun : exec .contextRetire s
        = .next (((retiring s x).onCtx x fun k => { k with st := .retired, images := [], freezing := [], replay := [] }).answer .ok) := by
      refine exec_ctl (i := .contextRetire) (fun _ => rfl) h ?_
      have hst' : (s.ctx s.rx).st = .ready ∨ (s.ctx s.rx).st = .preempted ∨ (s.ctx s.rx).st = .failed := by
        simp only [List.mem_cons, List.not_mem_nil, or_false] at hst
        exact hst
      rcases hst' with hs | hs | hs
      all_goals
        simp only [hs]
        rfl
    refine ⟨_, hrun, rfl, ?_, ?_, fun c hc => ?_⟩
    · rw [ctx_answer, State.ctx_onCtx_same _ (reqCtx_lt s)]
    · rw [ctx_answer, State.ctx_onCtx_same _ (reqCtx_lt s)]
    · rw [core_answer, State.core_onCtx]
      exact retiring_clear s x hc

/-! ### Start vectors (R130) -/

/-- The entries of a start vector: core and start address. -/
def startEntries (bs : List Byte) : List (Nat × Word) :=
  ((List.range 64).map fun i => (i, BitVec.ofNat 64 (natOfBytes ((bs.drop (8 * i)).take 8)))).filter fun e => e.2 ≠ 0

theorem startEntries_eq (bs : List Byte) : ((List.range 64).zip (wordsOf bs 64)).filter (fun e => e.2 ≠ 0) = startEntries bs := by
  rw [startEntries, wordsOf, List.map_prod_left_eq_zip]

/-- The launch that a start vector opens, and its context (R128, R130). -/
def startLaunch (n : Nat) (v : List (Nat × Word)) : Launch := ⟨BitVec.ofNat 32 n, .pending, some v, 64, [], [], false⟩

/-- A log that does not run takes no entry (R114). -/
theorem log_off {x kind : Nat} {payload : List Byte} (h : (s.ctx x).record = false) : s.log x kind payload = s := by
  unfold State.log
  refine if_pos ?_
  rw [h]
  rfl

/-- The first launch of a context that is READY, from a start vector (R128, R130). -/
theorem openLaunch_first {x : Nat} (hx : x < 256) (hl : (s.ctx x).launches = []) (hst : (s.ctx x).st = .ready) (v : List (Nat × Word)) :
    let k := s.ctx x
    let j := (s.openLaunch x (some v)).2.ctx x
    j.st = .running ∧ j.launches = [(k.nextLid, startLaunch k.nextLid v)] ∧ j.lastLid = k.nextLid ∧ j.lstate = 1 ∧ j.record = k.record := by
  intro k j
  have hid : k.freeLid k.launches.length k.nextLid = k.nextLid := by rw [hl]; rfl
  have hj : j = _ := State.ctx_onCtx_same s hx _
  refine ⟨?_, ?_, ?_, ?_, ?_⟩
  · rw [hj]
    exact if_pos hst
  · rw [hj]
    show aput k.launches (k.freeLid k.launches.length k.nextLid) (startLaunch (k.freeLid k.launches.length k.nextLid) v) = _
    rw [hid, hl]
    rfl
  · rw [hj]
    exact hid
  · rw [hj]
    rfl
  · rw [hj]

theorem startVectorWrite_spec (h : s.fwStatus = .ok) :
    let x := reqCtx s
    let k := s.ctx x
    let v := startEntries s.req.bytes
    (s.req.bytes.length = 512 →
      (k.st ≠ .ready → refused .startVectorWrite s .contextBusy) ∧ (k.st = .ready → v = [] → refused .startVectorWrite s .startEmpty)
      ∧ (k.st = .ready → v ≠ [] → (∃ e ∈ v, k.cores.getLsbD e.1 = false) → refused .startVectorWrite s .startCore)
      ∧ (k.st = .ready → v ≠ [] → (∀ e ∈ v, k.cores.getLsbD e.1 = true) → (∃ e ∈ v, e.2.toNat % 32 ≠ 0) → refused .startVectorWrite s .startAlign)
      ∧ (k.st = .ready → v ≠ [] → (∀ e ∈ v, k.cores.getLsbD e.1 = true ∧ e.2.toNat % 32 = 0) → k.launches = [] → 1 ≤ k.nextLid → k.nextLid < 2 ^ 32 → k.record = false →
          ∃ u l, exec .startVectorWrite s = .next u ∧ u.resp = ⟨.ok, []⟩ ∧ (u.ctx x).st = .running ∧ (u.ctx x).launches = [(k.nextLid, l)]
            ∧ l.vector = some v ∧ l.st = .pending ∧ l.id.toNat = k.nextLid ∧ (u.ctx x).start = v ∧ (u.ctx x).lastLid = k.nextLid ∧ (u.ctx x).lstate = 1 ∧ u.cores = s.cores))
    ∧ (s.req.bytes.length ≠ 512 → refused .startVectorWrite s .cpFrame) := by
  intro x k v
  have hv := startEntries_eq s.req.bytes
  have hempty : v.isEmpty = true ↔ v = [] := List.isEmpty_iff
  have hcore : (v.any fun e => !k.cores.toNat.testBit e.1) = true ↔ ∃ e ∈ v, k.cores.getLsbD e.1 = false := by
    simp only [List.any_eq_true, Bool.not_eq_true', BitVec.testBit_toNat]
  have halign : (v.any fun e => decide (e.2.toNat % 32 ≠ 0)) = true ↔ ∃ e ∈ v, e.2.toNat % 32 ≠ 0 := by
    simp only [List.any_eq_true, decide_eq_true_eq]
  have hvz : ∀ t : State, s.req.bytes.length = 512 → k.st = .ready →
      (if v.isEmpty then s.answer .startEmpty
        else if v.any fun e => !k.cores.toNat.testBit e.1 then s.answer .startCore
        else if v.any fun e => e.2.toNat % 32 ≠ 0 then s.answer .startAlign
        else (((s.openLaunch x (some v)).2.onCtx x fun k => { k with start := v }).log x 1 s.req.bytes).answer .ok) = t →
      exec .startVectorWrite s = .next t := fun t hlen hst ht => by
    refine exec_ctl (i := .startVectorWrite) (fun _ => rfl) h ?_
    rw [← ht]
    simp only [hv]
    exact (if_neg (not_not.mpr hlen)).trans (if_neg (not_not.mpr hst))
  refine ⟨fun hlen => ⟨fun hst => ?_, fun hst hn => ?_, fun hst hn hc => ?_, fun hst hn hc ha => ?_, fun hst hn hall hl h1 h2 hr => ?_⟩, fun hlen => ?_⟩
  · exact exec_ctl (i := .startVectorWrite) (fun _ => rfl) h ((if_neg (not_not.mpr hlen)).trans (if_pos hst))
  · exact hvz _ hlen hst (if_pos (hempty.mpr hn))
  · exact hvz _ hlen hst ((if_neg (hempty.not.mpr hn)).trans (if_pos (hcore.mpr hc)))
  · have hc' : ¬ ∃ e ∈ v, k.cores.getLsbD e.1 = false := fun ⟨e, he, hf⟩ => absurd (hc e he) (ne_true_of_eq_false hf)
    exact hvz _ hlen hst ((if_neg (hempty.not.mpr hn)).trans ((if_neg (hcore.not.mpr hc')).trans (if_pos (halign.mpr ha))))
  · have hcores : ¬ (v.any fun e => !k.cores.toNat.testBit e.1) = true := hcore.not.mpr fun ⟨e, he, hf⟩ =>
      absurd (hall e he).1 (ne_true_of_eq_false hf)
    have haligned : ¬ (v.any fun e => decide (e.2.toNat % 32 ≠ 0)) = true := halign.not.mpr fun ⟨e, he, hf⟩ => hf (hall e he).2
    obtain ⟨hrunning, hlaunch, hlast, hlstate, hrecord⟩ := openLaunch_first (reqCtx_lt s) hl hst v
    let t := (s.openLaunch x (some v)).2.onCtx x fun k => { k with start := v }
    have ht : t.ctx x = { (s.openLaunch x (some v)).2.ctx x with start := v } := State.ctx_onCtx_same _ (reqCtx_lt s) _
    have hlog : t.log x 1 s.req.bytes = t := log_off (by rw [ht]; exact hrecord.trans hr)
    have hrun : exec .startVectorWrite s = .next (t.answer .ok) := by
      refine hvz _ hlen hst ((if_neg (hempty.not.mpr hn)).trans ((if_neg hcores).trans ((if_neg haligned).trans ?_)))
      rw [hlog]
    refine ⟨t.answer .ok, startLaunch k.nextLid v, hrun, rfl, ?_⟩
    rw [ctx_answer, ht]
    exact ⟨hrunning, hlaunch, rfl, rfl, by rw [startLaunch, BitVec.toNat_ofNat, Nat.mod_eq_of_lt h2], rfl, hlast, hlstate, rfl⟩
  · exact exec_ctl (i := .startVectorWrite) (fun _ => rfl) h (if_pos hlen)

end

theorem contextLife : ContextLife := by
  intro s h x k q w early late word logKept formed put base bases
  obtain ⟨hb1, hb2, hb5, hb7, hb8, hb9⟩ := descriptorWrite_base h
  obtain ⟨hd1, hd2⟩ := descriptorWrite_spec h
  obtain ⟨hi1, hi2, hi3⟩ := imageLoadOpen_spec h
  obtain ⟨ht1, ht2, ht3⟩ := imageTransfer_spec h
  obtain ⟨hs1, hs2⟩ := contextScrub_spec h
  obtain ⟨hr1, hr2⟩ := contextRetire_spec h
  obtain ⟨hv1, hv2⟩ := startVectorWrite_spec h
  obtain ⟨hc1, hc2⟩ := depCounterWrite_spec h
  obtain ⟨hm1, hm2⟩ := cancelCommand_spec h
  refine ⟨hd1, fun ha => base_spec (hb1 ha) fun _ => ⟨rfl, rfl, rfl⟩, fun ha => base_spec (hb2 ha) fun _ => ⟨rfl, rfl, rfl⟩,
    fun ha => base_spec (hb5 ha) fun _ => ⟨rfl, rfl, rfl⟩, fun ha => base_spec (hb7 ha) fun _ => ⟨rfl, rfl, rfl⟩,
    fun ha => base_spec (hb8 ha) fun _ => ⟨rfl, rfl, rfl⟩, fun ha => base_spec (hb9 ha) fun _ => ⟨rfl, rfl, rfl⟩, hd2,
    fun ha => descriptorWrite_cores h ha, hi1, hi2, hi3, ht1, ht2, ht3, hs1, hs2, hr1, hr2, hv1, hv2, hc1, hc2, hm1, hm2⟩

end Sys2Proof.Proofs
end

section
/-!
SUPPORT. The control port's commands on data, pennants and host answers (R409, R436, R437).
-/

namespace Sys2Proof.Proofs

open Sys2Proof Sys2Proof.Machine Sys2Proof.Claims

section
variable {s : State}

/-- A log that is not being written takes no entry. -/
theorem log_stopped {x kind : Nat} {payload : List Byte} (h : (s.ctx x).logging = false) : s.log x kind payload = s := by
  unfold State.log
  refine if_pos ?_
  rw [h]
  exact Bool.or_true _

theorem controlPortDataWrite_spec (h : s.fwStatus = .ok) :
    let x := reqCtx s
    let k := s.ctx x
    let bs := s.req.bytes
    let formed := bs.length % 8 = 0 ∧ bs.length ≤ 4096 ∧ bs ≠ [] ∧ k.ttab.getLsbD 63 = true
    (¬ formed → refused .controlPortDataWrite s .cpFrame)
    ∧ (∀ e, formed → s.frontWrite x (BitVec.ofNat 64 s.req.addr) bs = .error e →
        refused .controlPortDataWrite s (if e = .polderFault then .polderFault else .cpFrame))
    ∧ (∀ t, formed → k.logging = false → s.frontWrite x (BitVec.ofNat 64 s.req.addr) bs = .ok t → t.ctx x = k → doneAs .controlPortDataWrite s t) := by
  intro x k bs formed
  have hformed : (decide (bs.length % 8 ≠ 0) || decide (4096 < bs.length) || bs.isEmpty || !baseSet k.ttab) = true ↔ ¬ formed := by
    simp only [Bool.or_eq_true, decide_eq_true_eq, List.isEmpty_iff, Bool.not_eq_true', baseSet, formed, not_and_or, not_le, ne_eq, not_not,
      Bool.not_eq_true, or_assoc]
  have hgo {t : State} (hf : formed) (ht : (match s.frontWrite x (BitVec.ofNat 64 s.req.addr) bs with
      | .error k => s.answer (frontStatus k)
      | .ok t => (t.log x 2 (bytesOfNat 8 s.req.addr ++ bs)).answer .ok) = t) : exec .controlPortDataWrite s = .next t :=
    exec_ctl (i := .controlPortDataWrite) (fun _ => rfl) h ((if_neg (hformed.not.mpr (not_not.mpr hf))).trans ht)
  refine ⟨fun hf => ?_, fun e hf he => ?_, fun t hf hlog ht hk => ?_⟩
  · exact exec_ctl (i := .controlPortDataWrite) (fun _ => rfl) h (if_pos (hformed.mpr hf))
  · exact hgo hf (by rw [he]; rfl)
  · have hsame : t.log x 2 (bytesOfNat 8 s.req.addr ++ bs) = t := log_stopped (by rw [hk]; exact hlog)
    refine hgo hf ?_
    rw [ht]
    exact congrArg (fun u : State => u.answer .ok) hsame

/-! ### Pennants (R298, R409) -/

theorem homeWrite_pens (s : State) (h a : Nat) (bs : List Byte) : (s.homeWrite h a bs).pens = s.pens := by
  unfold State.homeWrite State.setHome
  split <;> rfl

theorem scanWaiters_none {h a : Nat} (hw : ∀ o ∈ s.pens, o.waiting = false) : s.scanWaiters h a = s := by
  unfold State.scanWaiters
  dsimp only
  rw [List.filter_eq_nil_iff.mpr fun o ho => by rw [hw o ho]; exact Bool.false_ne_true]
  rfl

theorem pennantWordWrite_spec (h : s.fwStatus = .ok) :
    let k := s.ctx (reqCtx s)
    let w := reqWord s
    let pl := k.penPlace (s.req.n % 65536)
    (k.ptab.getLsbD 63 = false → refused .pennantWordWrite s .cpFrame)
    ∧ (k.ptab.getLsbD 63 = true → (s.part (reqPart s)).inPolder pl.1 (pl.2 / 4096) = false → refused .pennantWordWrite s .polderFault)
    ∧ (k.ptab.getLsbD 63 = true → (s.part (reqPart s)).inPolder pl.1 (pl.2 / 4096) = true → (∀ o ∈ s.pens, o.waiting = false) →
        doneAs .pennantWordWrite s (s.homeWrite pl.1 pl.2
          (bytesOfNat 8 (if w.getLsbD 63 = true ∧ w.getLsbD 62 = true then w &&& ~~~(3#64 <<< 48) else w).toNat))) := by
  intro k w pl
  refine ⟨fun hp => ?_, fun hp hi => ?_, fun hp hi hw => ?_⟩
  · exact exec_ctl (i := .pennantWordWrite) (fun _ => rfl) h (if_pos (bnot_of_false hp))
  · exact exec_ctl (i := .pennantWordWrite) (fun _ => rfl) h ((if_neg (bnot_of_true hp)).trans (if_pos (bnot_of_false hi)))
  · let v := if s.rv.getLsbD 63 && s.rv.getLsbD 62 then s.rv &&& ~~~(3#64 <<< 48) else s.rv
    have hv : v = if w.getLsbD 63 = true ∧ w.getLsbD 62 = true then w &&& ~~~(3#64 <<< 48) else w := by
      simp only [v, Bool.and_eq_true]
      rfl
    have hpens : ∀ o ∈ (s.homeWrite pl.1 pl.2 (bytesOfNat 8 v.toNat)).pens, o.waiting = false := by
      rw [homeWrite_pens]
      exact hw
    rw [← hv]
    refine exec_ctl (i := .pennantWordWrite) (fun _ => rfl) h ((if_neg (bnot_of_true hp)).trans ((if_neg (bnot_of_true hi)).trans ?_))
    by_cases hset : baseSet v = true
    · refine (if_pos hset).trans (congrArg (fun u : State => u.answer .ok) ?_)
      exact (ite_congr rfl (fun _ => rfl) fun _ => scanWaiters_none hpens).trans (ite_self _)
    · refine (if_neg hset).trans (congrArg (fun u : State => u.answer .ok) ?_)
      rw [List.filter_eq_nil_iff.mpr fun o ho => by rw [hpens o ho]; exact Bool.false_ne_true]
      rfl

/-! ### Host answers (R436) -/

/-- With no packet and no link queue in use there is nothing to serve. -/
theorem served_calm (h : calm s) : s.served = s := by
  obtain ⟨hpeers, hidle⟩ := h
  have hserve : s.serveAll = s := by
    unfold State.serveAll
    rw [hpeers]
    rfl
  rw [State.served, hserve]
  refine foldl_id fun c hc => if_pos ?_
  obtain ⟨hrq, hlq⟩ := hidle c (List.mem_range.mp hc)
  rw [hrq, Bool.and_eq_true, List.all_eq_true]
  exact ⟨fun l hl => List.isEmpty_iff.mpr (hlq l hl), rfl⟩

theorem hackWrite_spec (h : s.fwStatus = .ok) :
    let bs := s.req.bytes
    (∀ r, calm s → let v := natOfBytes (bs.take 8)
      aget s.remote (v % 2 ^ 32) = some r → r.host = true → r.stat = .waiting → r.isRead = true → r.who ≠ .none → v / 2 ^ 32 % 2 ^ 32 = 0 →
      bs.length = 8 + (r.n + 7) / 8 * 8 →
      doneAs .hackWrite s { s with remote := aput s.remote (v % 2 ^ 32) { r with stat := .answered ((bs.drop 8).take r.n) } })
    ∧ (aget s.remote (natOfBytes (bs.take 8) % 2 ^ 32) = none → refused .hackWrite s .cpFrame) := by
  intro bs
  have htag : bf (natOfBytes (bs.take 8)) 0 32 = natOfBytes (bs.take 8) % 2 ^ 32 := by rw [bf, Nat.shiftRight_zero]
  refine ⟨?_, fun hr => ?_⟩
  · intro r hcalm v hr hhost hst hread hwho hhigh hlen
    have hhigh' : natOfBytes (s.req.bytes.take 8) / 2 ^ 32 % 2 ^ 32 = 0 := hhigh
    have hok : bf (natOfBytes (s.req.bytes.take 8)) 32 1 = 0 := by rw [bf, Nat.shiftRight_eq_div_pow]; omega
    have hzero : bf (natOfBytes (s.req.bytes.take 8)) 33 31 = 0 := by rw [bf, Nat.shiftRight_eq_div_pow]; omega
    have hr' : aget s.remote (bf (natOfBytes (s.req.bytes.take 8)) 0 32) = some r := htag ▸ hr
    have hlen' : s.req.bytes.length = 8 + (r.n + 7) / 8 * 8 := hlen
    let t : State := { s with remote := aput s.remote (v % 2 ^ 32) { r with stat := .answered ((bs.drop 8).take r.n) } }
    have hanswer : s.answerReq (bf (natOfBytes (s.req.bytes.take 8)) 0 32) (.answered ((s.req.bytes.drop 8).take r.n)) = t := by
      unfold State.answerReq
      rw [hr', htag]
      exact if_neg hwho
    have hcalm' : calm t := hcalm
    refine exec_ctl (t := t.answer .ok) (i := .hackWrite) (fun _ => rfl) h ?_
    simp only [hr', hhost, hst, hread, hok, hzero, hlen']
    refine (if_neg (by simp)).trans (congrArg (fun u : State => u.answer .ok) ?_)
    refine (congrArg State.served ?_).trans (served_calm hcalm')
    exact hanswer
  · refine exec_ctl (i := .hackWrite) (fun _ => rfl) h ?_
    have hr' : aget s.remote (bf (natOfBytes (s.req.bytes.take 8)) 0 32) = none := htag ▸ hr
    simp only [hr']
    rfl

end

theorem dataCommands : DataCommands := by
  intro s h x k bs w formed pl
  obtain ⟨hd1, hd2, hd3⟩ := controlPortDataWrite_spec h
  obtain ⟨hp1, hp2, hp3⟩ := pennantWordWrite_spec h
  obtain ⟨hh1, hh2⟩ := hackWrite_spec h
  exact ⟨hd1, hd2, hd3, hp1, hp2, hp3, hh1, hh2⟩

end Sys2Proof.Proofs
end

section
/-!
SUPPORT. The control port's commands on pages and translation (R273, R280, R357).
-/

namespace Sys2Proof.Proofs

open Sys2Proof Sys2Proof.Machine Sys2Proof.Claims

/-! ### What goes on after a page is mapped keeps the stores -/

theorem memSame_refl (s : State) : memSame s s := fun _ => rfl
theorem memSame_trans {s t u : State} (h : memSame s t) (g : memSame t u) : memSame s u := fun n => (g n).trans (h n)

theorem memSame_foldl {α : Type} {f : State → α → State} (h : ∀ t a, memSame t (f t a)) (l : List α) (s : State) : memSame s (l.foldl f s) :=
  List.foldlRecOn (motive := fun t : State => memSame s t) _ _ (memSame_refl s) fun t ht a _ => memSame_trans ht (h t a)

theorem memSame_ite {p : Prop} [Decidable p] {s t u : State} (ht : memSame s t) (hu : memSame s u) : memSame s (if p then t else u) := by
  split
  · exact ht
  · exact hu

theorem memSame_answer {s t : State} (h : memSame s t) (st : Status) : memSame s (t.answer st) := fun n => h n

theorem memSame_onCore (s : State) (c : Nat) (f : Core → Core) : memSame s (s.onCore c f) := fun _ => rfl

theorem memSame_onBand (s : State) (c n : Nat) (f : Band → Band) : memSame s (s.onBand c n f) := fun _ => rfl

/-- An agent that goes on changes only its core (R293). -/
theorem memSame_resumeAgent (s : State) (who : Agent) : memSame s (s.resumeAgent who) := by
  unfold State.resumeAgent
  split
  · split
    · split
      · split
        · exact memSame_onCore _ _ _
        · exact memSame_onBand _ _ _ _
      · exact memSame_onBand _ _ _ _
    · exact memSame_refl s
  · exact memSame_onCore _ _ _
  · exact memSame_onCore _ _ _
  · exact memSame_onCore _ _ _
  · exact memSame_refl s

theorem memSame_resumePage (s : State) (x : Nat) (t : BitVec 512) (tensor page : Nat) : memSame s (s.resumePage x t tensor page) := by
  unfold State.resumePage
  refine memSame_foldl (fun u c => ?_) _ s
  extract_lets k u1 r u2 u3
  have h1 : memSame u u1 := memSame_foldl (fun v b => memSame_ite (memSame_resumeAgent v _) (memSame_refl v)) _ u
  have h2 : memSame u1 u2 := memSame_ite (memSame_resumeAgent u1 _) (memSame_refl u1)
  have h3 : memSame u2 u3 := memSame_foldl (fun v ch => by
    split
    · exact memSame_ite (memSame_resumeAgent v _) (memSame_refl v)
    · exact memSame_refl v) _ u2
  refine memSame_trans (memSame_trans (memSame_trans h1 h2) h3) ?_
  split
  · exact memSame_ite (memSame_resumeAgent u3 _) (memSame_refl u3)
  · exact memSame_refl u3

theorem core_invals (s : State) (v : List Inval) (c : Nat) : ({ s with invals := v } : State).core c = s.core c := rfl
theorem memSame_invals {s t : State} (h : memSame s t) (v : List Inval) : memSame s { t with invals := v } := fun n => h n

/-! ### Translation is invalidated (R280) -/

/-- One core drops the translations that an invalidate concerns. -/
def invalidateAt (x : Nat) (tensor : Option Nat) (hit : TlbEntry → Bool) (s : State) (c : Nat) : State :=
  if (s.core c).tlb.any hit || (s.core c).tlrs.any (fun t => t.ctx = x) then
    ((s.core c).tlb.filter hit).foldl State.foldHot (s.setCore c { s.core c with
      tlb := (s.core c).tlb.filter fun t => !hit t
      tlrs := (s.core c).tlrs.filter fun t => !(t.ctx = x && (tensor = none || tensor = some t.tensor)) })
  else s

/-- The translations that an invalidate concerns. -/
def invalidates (x : Nat) (tensor : Option Nat) (lo hi : Nat) (t : TlbEntry) : Bool :=
  t.ctx = x && (tensor = none || (tensor = some t.tensor && lo ≤ t.page && t.page ≤ hi))

theorem invalidate_eq (s : State) (x : Nat) (tensor : Option Nat) (lo hi : Nat) (mig : Option Nat) :
    ∃ v, s.invalidate x tensor lo hi mig
      = { (List.range 64).foldl (invalidateAt x tensor (invalidates x tensor lo hi)) s with
          invals := ((List.range 64).foldl (invalidateAt x tensor (invalidates x tensor lo hi)) s).invals ++ [v] } :=
  ⟨_, rfl⟩

theorem foldl_foldHot_cores (l : List TlbEntry) (s : State) : (l.foldl State.foldHot s).cores = s.cores :=
  List.foldlRecOn (motive := fun t : State => t.cores = s.cores) _ _ rfl fun t ht e _ => (foldHot_cores t e).trans ht

theorem invalidateAt_tlb (x : Nat) (tensor : Option Nat) (hit : TlbEntry → Bool) (s : State) {c : Nat} (hc : c < 64) (d : Nat) :
    ((invalidateAt x tensor hit s c).core d).tlb = if d = c then (s.core c).tlb.filter (fun t => !hit t) else (s.core d).tlb := by
  unfold invalidateAt
  split
  · rw [core_of_cores (foldl_foldHot_cores _ _)]
    by_cases hd : d = c
    · subst hd
      rw [State.core_setCore_same s hc, if_pos rfl]
    · rw [State.core_setCore_ne s hd, if_neg hd]
  · next hnone =>
    split
    · next hd =>
      rw [hd]
      rw [Bool.or_eq_true, not_or, List.any_eq_true, not_exists] at hnone
      refine (List.filter_eq_self.mpr fun t ht => ?_).symm
      rw [Bool.not_eq_true', ← Bool.not_eq_true]
      exact fun hhit => hnone.1 t ⟨ht, hhit⟩
    · rfl

theorem foldl_invalidateAt_tlb (x : Nat) (tensor : Option Nat) (hit : TlbEntry → Bool) {d : Nat} {y : TlbEntry} :
    ∀ (l : List Nat) (s : State), (∀ c ∈ l, c < 64) → y ∈ ((l.foldl (invalidateAt x tensor hit) s).core d).tlb →
      y ∈ (s.core d).tlb ∧ (d ∈ l → hit y = false)
  | [], _, _, hy => ⟨hy, fun hd => absurd hd List.not_mem_nil⟩
  | c :: l, s, hl, hy => by
    obtain ⟨hmem, hrest⟩ := foldl_invalidateAt_tlb x tensor hit l _ (fun a ha => hl a (List.mem_cons_of_mem _ ha)) hy
    rw [invalidateAt_tlb x tensor hit s (hl c List.mem_cons_self)] at hmem
    by_cases hd : d = c
    · rw [if_pos hd] at hmem
      obtain ⟨hin, hhit⟩ := List.mem_filter.mp hmem
      rw [Bool.not_eq_true'] at hhit
      exact ⟨hd ▸ hin, fun _ => hhit⟩
    · rw [if_neg hd] at hmem
      exact ⟨hmem, fun hin => hrest ((List.mem_cons.mp hin).resolve_left hd)⟩

/-- After an invalidate no layout unit holds a translation that it concerns (R280). -/
theorem invalidate_tlb (s : State) (x : Nat) (tensor : Option Nat) (lo hi : Nat) (mig : Option Nat) {c : Nat} (hc : c < 64) {y : TlbEntry}
    (hy : y ∈ ((s.invalidate x tensor lo hi mig).core c).tlb) : y ∈ (s.core c).tlb ∧ invalidates x tensor lo hi y = false := by
  obtain ⟨v, hv⟩ := invalidate_eq s x tensor lo hi mig
  rw [hv, core_invals] at hy
  obtain ⟨hin, hhit⟩ := foldl_invalidateAt_tlb x tensor _ (List.range 64) s (fun _ => List.mem_range.mp) hy
  exact ⟨hin, hhit (List.mem_range.mpr hc)⟩

theorem invalidateAt_empty (x : Nat) (tensor : Option Nat) (hit : TlbEntry → Bool) {s : State} {c : Nat} (h : (s.core c).tlb = []) :
    memSame s (invalidateAt x tensor hit s c) := by
  unfold invalidateAt
  rw [h]
  exact memSame_ite (fun _ => rfl) (memSame_refl s)

/-- With no translation held there is no hotness to write back. -/
theorem invalidate_empty {s : State} (x : Nat) (tensor : Option Nat) (lo hi : Nat) (mig : Option Nat) (h : ∀ c < 64, (s.core c).tlb = []) :
    memSame s (s.invalidate x tensor lo hi mig) := by
  obtain ⟨v, hv⟩ := invalidate_eq s x tensor lo hi mig
  rw [hv]
  refine memSame_invals ?_ _
  refine (List.foldlRecOn (motive := fun t : State => memSame s t ∧ ∀ c < 64, (t.core c).tlb = []) (List.range 64) _ ⟨memSame_refl s, h⟩
    fun t ⟨hmem, htlb⟩ c hc => ?_).1
  have hc64 := List.mem_range.mp hc
  refine ⟨memSame_trans hmem (invalidateAt_empty _ _ _ (htlb c hc64)), fun d hd => ?_⟩
  rw [invalidateAt_tlb _ _ _ _ hc64, htlb d hd, htlb c hc64]
  exact ite_self _

/-! ### The commands -/

section
variable {s : State} {t : BitVec 512} {tensor page h ea : Nat} {e : Word}

theorem controlNodeMap_spec (hfw : s.fwStatus = .ok) (hpage : s.pageAt (reqCtx s) (BitVec.ofNat 64 s.req.addr) = .ok (t, tensor, page, h, ea, e)) :
    let w := reqWord s &&& ~~~(3#64 <<< 43)
    (e.getLsbD 63 = true ∨ fld e 40 3 ≠ 0 → refused .controlNodeMap s .contextBusy)
    ∧ (e.getLsbD 63 = false → fld e 40 3 = 0 → w.getLsbD 63 = false ∨ leafOk w (tlrPage t) = false → refused .controlNodeMap s .cpFrame)
    ∧ (e.getLsbD 63 = false → fld e 40 3 = 0 → w.getLsbD 63 = true → leafOk w (tlrPage t) = true → fld w 61 2 ≤ 1 →
        (s.part (reqPart s)).framesIn (fld w 61 2) (fld w 0 40) (tlrPage t / 4096) = false → refused .controlNodeMap s .polderFault)
    ∧ (e.getLsbD 63 = false → fld e 40 3 = 0 → w.getLsbD 63 = true → leafOk w (tlrPage t) = true →
        (fld w 61 2 ≤ 1 → (s.part (reqPart s)).framesIn (fld w 61 2) (fld w 0 40) (tlrPage t / 4096) = true) →
        ∃ u, exec .controlNodeMap s = .next u ∧ u.resp = ⟨.ok, []⟩ ∧ memSame (s.homeWrite h ea (bytesOfNat 8 w.toNat)) u) := by
  intro w
  have hgo {u : State} (hu : (if leafV e || leafVst e ≠ 0 then s.answer .contextBusy
      else if !leafV w || !leafOk w (tlrPage t) then s.answer .cpFrame
      else if baseHome w ≤ 1 && !(s.part (reqPart s)).framesIn (baseHome w) (baseFrame w) (tlrPage t / 4096) then s.answer .polderFault
      else ((s.homeWrite h ea (bytesOfNat 8 w.toNat)).resumePage (reqCtx s) t tensor page).answer .ok) = u) : exec .controlNodeMap s = .next u := by
    refine exec_ctl (i := .controlNodeMap) (fun _ => rfl) hfw (.trans ?_ hu)
    have hpage' : s.pageAt s.rx (BitVec.ofNat 64 s.req.addr) = .ok (t, tensor, page, h, ea, e) := hpage
    simp only [hpage']
    rfl
  have hbusy : (leafV e || decide (leafVst e ≠ 0)) = true ↔ e.getLsbD 63 = true ∨ fld e 40 3 ≠ 0 := by
    rw [Bool.or_eq_true, decide_eq_true_eq, leafVst, bf_eq_fld, leafV]
  have hframe : (!leafV w || !leafOk w (tlrPage t)) = true ↔ w.getLsbD 63 = false ∨ leafOk w (tlrPage t) = false := by
    rw [Bool.or_eq_true, Bool.not_eq_true', Bool.not_eq_true', leafV]
  have hpolder : (decide (baseHome w ≤ 1) && !(s.part (reqPart s)).framesIn (baseHome w) (baseFrame w) (tlrPage t / 4096)) = true
      ↔ fld w 61 2 ≤ 1 ∧ (s.part (reqPart s)).framesIn (fld w 61 2) (fld w 0 40) (tlrPage t / 4096) = false := by
    rw [Bool.and_eq_true, decide_eq_true_eq, Bool.not_eq_true', baseHome_eq_fld, baseFrame_eq_fld]
  have hfree (hv : e.getLsbD 63 = false) (h0 : fld e 40 3 = 0) : ¬ (leafV e || decide (leafVst e ≠ 0)) = true :=
    hbusy.not.mpr (not_or.mpr ⟨ne_true_of_eq_false hv, not_not.mpr h0⟩)
  have hformed (hv : w.getLsbD 63 = true) (hok : leafOk w (tlrPage t) = true) : ¬ (!leafV w || !leafOk w (tlrPage t)) = true :=
    hframe.not.mpr (not_or.mpr ⟨ne_false_of_eq_true hv, ne_false_of_eq_true hok⟩)
  refine ⟨fun hb => ?_, fun hv h0 hf => ?_, fun hv h0 hw hok h1 hin => ?_, fun hv h0 hw hok hin => ?_⟩
  · exact hgo (if_pos (hbusy.mpr hb))
  · exact hgo ((if_neg (hfree hv h0)).trans (if_pos (hframe.mpr hf)))
  · exact hgo ((if_neg (hfree hv h0)).trans ((if_neg (hformed hw hok)).trans (if_pos (hpolder.mpr ⟨h1, hin⟩))))
  · have hinside := hpolder.not.mpr fun ⟨h1, hout⟩ => absurd (hin h1) (ne_true_of_eq_false hout)
    exact ⟨_, hgo ((if_neg (hfree hv h0)).trans ((if_neg (hformed hw hok)).trans (if_neg hinside))), rfl, memSame_answer (memSame_resumePage _ _ _ _ _) _⟩

theorem controlNodeUnmap_spec (hfw : s.fwStatus = .ok) (hpage : s.pageAt (reqCtx s) (BitVec.ofNat 64 s.req.addr) = .ok (t, tensor, page, h, ea, e)) :
    (e.getLsbD 63 = false → fld e 40 3 ≠ 2 → refused .controlNodeUnmap s .contextBusy)
    ∧ (e.getLsbD 63 = true ∨ fld e 40 3 = 2 → (∀ c < 64, (s.core c).tlb = []) →
        ∃ u, exec .controlNodeUnmap s = .next u ∧ u.resp = ⟨.ok, []⟩
          ∧ memSame (s.homeWrite h ea (bytesOfNat 8 (e &&& ~~~(1#64 <<< 63 ||| 7#64 <<< 40)).toNat)) u) := by
  have hgo {u : State} (hu : (if !leafV e && leafVst e ≠ 2 then s.answer .contextBusy
      else ((s.homeWrite h ea (bytesOfNat 8 (e &&& ~~~(1#64 <<< 63 ||| 7#64 <<< 40)).toNat)).invalidate (reqCtx s) (some tensor) page page
        none).answer .ok) = u) : exec .controlNodeUnmap s = .next u := by
    refine exec_ctl (i := .controlNodeUnmap) (fun _ => rfl) hfw (.trans ?_ hu)
    have hpage' : s.pageAt s.rx (BitVec.ofNat 64 s.req.addr) = .ok (t, tensor, page, h, ea, e) := hpage
    simp only [hpage']
    rfl
  have hbusy : (!leafV e && decide (leafVst e ≠ 2)) = true ↔ e.getLsbD 63 = false ∧ fld e 40 3 ≠ 2 := by
    rw [Bool.and_eq_true, decide_eq_true_eq, Bool.not_eq_true', leafVst, bf_eq_fld, leafV]
  refine ⟨fun hv h2 => hgo (if_pos (hbusy.mpr ⟨hv, h2⟩)), fun hb htlb => ?_⟩
  have hfree := hbusy.not.mpr fun ⟨hv, h2⟩ => hb.elim (ne_true_of_eq_false hv) h2
  refine ⟨_, hgo (if_neg hfree), rfl, memSame_answer (invalidate_empty _ _ _ _ _ fun c hc => ?_) _⟩
  rw [homeWrite_core]
  exact htlb c hc

theorem controlNodePage_refused {st : Status} (hfw : s.fwStatus = .ok) (hpage : s.pageAt (reqCtx s) (BitVec.ofNat 64 s.req.addr) = .error st) :
    refused .controlNodeMap s st ∧ refused .controlNodeUnmap s st := by
  have hpage' : s.pageAt s.rx (BitVec.ofNat 64 s.req.addr) = .error st := hpage
  constructor
  · refine exec_ctl (i := .controlNodeMap) (fun _ => rfl) hfw ?_
    simp only [hpage']
    rfl
  · refine exec_ctl (i := .controlNodeUnmap) (fun _ => rfl) hfw ?_
    simp only [hpage']
    rfl

theorem translationInvalidate_spec (hfw : s.fwStatus = .ok) : ∃ u, exec .translationInvalidate s = .next u ∧ u.resp = ⟨.ok, []⟩
    ∧ ∀ c < 64, ∀ y ∈ (u.core c).tlb, y ∈ (s.core c).tlb
      ∧ (y.ctx = reqCtx s → s.req.m ≠ 0 ∧ ¬ (y.tensor = s.req.n % 65536 ∧ s.req.addr ≤ y.page ∧ y.page ≤ s.req.value)) := by
  by_cases hm : s.req.m = 0
  · refine ⟨_, exec_ctl (i := .translationInvalidate) (fun _ => rfl) hfw (if_pos hm), rfl, fun c hc y hy => ?_⟩
    rw [core_answer] at hy
    obtain ⟨hin, hout⟩ := invalidate_tlb s (reqCtx s) none 0 (2 ^ 36) none hc hy
    refine ⟨hin, fun hctx => ?_⟩
    rw [invalidates, hctx] at hout
    simp at hout
  · refine ⟨_, exec_ctl (i := .translationInvalidate) (fun _ => rfl) hfw (if_neg hm), rfl, fun c hc y hy => ?_⟩
    rw [core_answer] at hy
    obtain ⟨hin, hout⟩ := invalidate_tlb s (reqCtx s) (some (s.req.n % 65536)) s.req.addr s.req.value none hc hy
    refine ⟨hin, fun hctx => ⟨hm, fun ⟨ht, hlo, hhi⟩ => ?_⟩⟩
    rw [invalidates, hctx, ht] at hout
    simp [hlo, hhi] at hout

theorem translationInvalidateAck_spec :
    (s.invals[s.req.n]? = none → exec .translationInvalidateAck s = .next s)
    ∧ (∀ v, s.invals[s.req.n]? = some v →
        ((∃ a ∈ v.accs, s.outstanding a = true) → exec .translationInvalidateAck s = .next s)
        ∧ ((∀ a ∈ v.accs, s.outstanding a = false) → exec .translationInvalidateAck s = .next { s with
            invals := s.invals.eraseIdx s.req.n, migs := s.migs.map fun g => if v.mig = some g.id then { g with acked := true } else g })) := by
  refine ⟨fun hv => ?_, fun v hv => ⟨fun ho => ?_, fun ho => ?_⟩⟩
  · refine congrArg Host.Outcome.next (?_ : evTranslationInvalidateAck s = s)
    rw [evTranslationInvalidateAck, hv]
  · refine congrArg Host.Outcome.next (?_ : evTranslationInvalidateAck s = s)
    rw [evTranslationInvalidateAck, hv]
    exact if_pos (List.any_eq_true.mpr ho)
  · refine congrArg Host.Outcome.next (?_ : evTranslationInvalidateAck s = _)
    rw [evTranslationInvalidateAck, hv]
    refine (if_neg fun hany => ?_).trans ?_
    · obtain ⟨a, ha, hout⟩ := List.any_eq_true.mp hany
      exact absurd hout (ne_true_of_eq_false (ho a ha))
    · simp only [updWhere, decide_eq_true_eq]

end

theorem pageCommands : PageCommands := by
  refine ⟨fun s t tensor page h ea e hfw hpage _ => ?_, fun s st hfw hpage => controlNodePage_refused hfw hpage,
    fun s hfw => translationInvalidate_spec hfw, fun s hv => translationInvalidateAck_spec.1 hv, fun s v hv => translationInvalidateAck_spec.2 v hv⟩
  intro w
  obtain ⟨hm1, hm2, hm3, hm4⟩ := controlNodeMap_spec hfw hpage
  obtain ⟨hu1, hu2⟩ := controlNodeUnmap_spec hfw hpage
  exact ⟨hm1, hm2, hm3, hm4, hu1, hu2⟩

end Sys2Proof.Proofs
end

section
/-!
SUPPORT. What the control node reads, and the frame that answers a frame (R4, R102, R326, R330, R336, R365, R406, R414).
-/

namespace Sys2Proof.Proofs

open Sys2Proof Sys2Proof.Machine Sys2Proof.Claims

/-! ### Register reads (R4, R406) -/

section
variable {s : State}

/-- The registers that a read clears (R4). -/
def clearedByRead (a : Nat) : Prop := a = 0x18 ∨ ∃ p < 16, a = 0x100 + 8 * p

theorem readClears_eq {a : Nat} (ha : a % 8 = 0) (hports : ∀ p < 16, a ≠ 0x100 + 8 * p) :
    s.readClears a 8 = if a = 0x18 then { s with dupcnt := 0 } else s := by
  have hlies : ∀ o, o % 8 = 0 → ((decide (a ≤ o) && decide (o < a + 8)) = true ↔ a = o) := by
    intro o ho
    rw [Bool.and_eq_true, decide_eq_true_eq, decide_eq_true_eq]
    omega
  unfold State.readClears
  extract_lets lies t
  have ht : t = if a = 0x18 then { s with dupcnt := 0 } else s := if_congr (hlies 0x18 (by decide)) rfl rfl
  rw [← ht]
  refine foldl_id fun p hp => if_neg fun hl => ?_
  exact hports p (List.mem_range.mp hp) ((hlies _ (by omega)).mp hl)

theorem cpRead_spec (hfw : s.fwStatus = .ok) (hm : s.req.m = 0) (hn : s.req.n = 8) (ha : s.req.addr % 8 = 0) :
    s.cpRead = match s.regWord s.req.addr with
      | .error st => s.answer st
      | .ok v => (s.readClears s.req.addr 8).answer .ok (bytesOfNat 8 v) := by
  have hform : ¬ (decide (s.req.addr % 8 ≠ 0) || decide (s.req.n % 8 ≠ 0) || decide (s.req.n = 0) || decide (4096 < s.req.addr % 4096 + s.req.n)) = true := by
    simp only [Bool.or_eq_true, decide_eq_true_eq, hn]
    omega
  rw [State.cpRead, ctl_on hfw, if_pos hm, State.readRegisters]
  refine (if_neg hform).trans ?_
  rw [hn]
  unfold State.regWords State.regWords
  cases s.regWord s.req.addr with
  | error st => rfl
  | ok v => simp

/-- A read of a register word that is not cleared by it. -/
theorem cpRead_word {v : Nat} (hfw : s.fwStatus = .ok) (hm : s.req.m = 0) (hn : s.req.n = 8) (ha : s.req.addr % 8 = 0)
    (hclear : ¬ clearedByRead s.req.addr) (hv : s.regWord s.req.addr = .ok v) : s.cpRead = { s with resp := ⟨.ok, bytesOfNat 8 v⟩ } := by
  obtain ⟨h18, hports⟩ := not_or.mp hclear
  rw [cpRead_spec hfw hm hn ha, hv]
  dsimp only
  rw [readClears_eq ha fun p hp he => hports ⟨p, hp, he⟩, if_neg h18]
  rfl

theorem regWord_device (hp : s.pst ≠ 4) {a : Nat} (h : a < 0x10000) : s.regWord a = .ok (s.deviceWord a) := (if_neg hp).trans (if_pos h)

theorem regWord_part (hp : s.pst ≠ 4) {p o : Nat} (h : p < 16) (ho : o < 0x100000) :
    s.regWord (0x1000000 + 0x100000 * p + o) = .ok ((s.part p).word o) := by
  have hin : (decide (0x1000000 ≤ 0x1000000 + 0x100000 * p + o) && decide (0x1000000 + 0x100000 * p + o < 0x2000000)) = true := by simp; omega
  refine (if_neg hp).trans ((if_neg (by omega)).trans ((if_pos hin).trans ?_))
  rw [show (0x1000000 + 0x100000 * p + o - 0x1000000) / 0x100000 = p by omega, show (0x1000000 + 0x100000 * p + o) % 0x100000 = o by omega]

theorem regWord_ctx (hp : s.pst ≠ 4) {x o : Nat} (h : x < 256) (ho : o < 0x10000) :
    s.regWord (0x11000000 + 0x10000 * x + o) = if s.mayDescribe (x / 16) then .ok (s.ctxWord x o) else .error .debugDenied := by
  have hpart : ¬ (decide (0x1000000 ≤ 0x11000000 + 0x10000 * x + o) && decide (0x11000000 + 0x10000 * x + o < 0x2000000)) = true := by simp; omega
  have hin : (decide (0x11000000 ≤ 0x11000000 + 0x10000 * x + o) && decide (0x11000000 + 0x10000 * x + o < 0x12000000)) = true := by simp; omega
  refine (if_neg hp).trans ((if_neg (by omega)).trans ((if_neg hpart).trans ((if_pos hin).trans ?_)))
  rw [show (0x11000000 + 0x10000 * x + o - 0x11000000) / 0x10000 = x by omega, show (0x11000000 + 0x10000 * x + o) % 0x10000 = o by omega]

theorem mayDescribe_iff {p : Nat} : s.mayDescribe p = true ↔ (s.part p).key = false ∨ s.vendor = true ∨ (s.req.auth = true ∧ reqPart s = p) := by
  rw [State.mayDescribe, Bool.or_eq_true, Bool.or_eq_true, Bool.and_eq_true, decide_eq_true_eq, Bool.not_eq_true']
  exact ⟨fun h => h.elim (fun h => h.elim (.inr ∘ .inl) .inl) (.inr ∘ .inr), fun h => h.elim (.inl ∘ .inr) fun h => h.elim (.inl ∘ .inl) .inr⟩

end

/-! ### Words of fields -/

/-- Fields of a word that do not meet add up. -/
theorem or_shiftLeft {x i : Nat} (y : Nat) (h : x < 2 ^ i) : x ||| y <<< i = x + y * 2 ^ i := by
  rw [Nat.or_comm, ← Nat.shiftLeft_add_eq_or_of_lt h, Nat.add_comm, Nat.shiftLeft_eq]

theorem pstate_code_lt (st : PState) : st.code < 6 := by cases st <;> decide
theorem pshadow_code_lt (sh : PShadow) : sh.code < 5 := by cases sh <;> decide

/-- PSTAT (R336). -/
theorem slotWord_eq {q : PSlot} (ha : q.alen < 1024) (hs : q.slen < 1024) (hi : q.cidx < 1024) (hf : q.cfail < 16) (ho : q.ovrn < 16) :
    q.word = q.st.code + q.shadow.code * 2 ^ 5 + q.alen * 2 ^ 10 + q.slen * 2 ^ 20 + q.cidx * 2 ^ 30 + q.cfail * 2 ^ 40 + q.ovrn * 2 ^ 44 := by
  have hst := pstate_code_lt q.st
  have hsh := pshadow_code_lt q.shadow
  unfold PSlot.word
  rw [Nat.mod_eq_of_lt ha, Nat.mod_eq_of_lt hs, Nat.mod_eq_of_lt hi, Nat.mod_eq_of_lt hf, Nat.mod_eq_of_lt ho,
    or_shiftLeft q.shadow.code (by omega), or_shiftLeft q.alen (by omega), or_shiftLeft q.slen (by omega), or_shiftLeft q.cidx (by omega),
    or_shiftLeft q.cfail (by omega), or_shiftLeft q.ovrn (by omega)]

/-! ### What each register reads -/

section
variable {s : State}

theorem readsDevice (hfw : s.fwStatus = .ok) (hm : s.req.m = 0) (hn : s.req.n = 8) (hp : s.pst ≠ 4) :
    let a := s.req.addr
    let gives := fun (t : State) (v : Nat) => s.cpRead = { t with resp := ⟨.ok, bytesOfNat 8 v⟩ }
    let reads := gives s
    (a % 8 ≠ 0 → refusedRead s .cpFrame)
    ∧ (a = 0 → reads (s.health.toNat % 2 ^ 64)) ∧ (a = 8 → reads (s.health.toNat / 2 ^ 64))
    ∧ (a = 0x18 → gives { s with dupcnt := 0 } (s.e2et ||| s.devid * 2 ^ 16 ||| s.dupcnt * 2 ^ 32))
    ∧ (a = 0x20 ∨ a = 0x28 → reads 0) := by
  intro a gives reads
  have hword {v : Nat} (ha : a < 0x100) (h8 : a % 8 = 0) (h18 : a ≠ 0x18) (hv : s.deviceWord a = v) : reads v := by
    refine cpRead_word hfw hm hn h8 ?_ ((regWord_device hp (by omega)).trans (congrArg _ hv))
    rintro (h | ⟨p, _, h⟩) <;> omega
  refine ⟨fun ha => ?_, fun ha => ?_, fun ha => ?_, fun ha => ?_, fun ha => ?_⟩
  · have hform : (decide (s.req.addr % 8 ≠ 0) || decide (s.req.n % 8 ≠ 0) || decide (s.req.n = 0) || decide (4096 < s.req.addr % 4096 + s.req.n)) = true := by
      simp only [Bool.or_eq_true, decide_eq_true_eq, hn]
      omega
    rw [refusedRead, State.cpRead, ctl_on hfw, if_pos hm]
    exact if_pos hform
  · exact hword (by omega) (by omega) (by omega) (by rw [ha]; rfl)
  · exact hword (by omega) (by omega) (by omega) (by rw [ha]; rfl)
  · have ha' : s.req.addr = 0x18 := ha
    have hv : s.regWord 0x18 = .ok (s.e2et ||| s.devid * 2 ^ 16 ||| s.dupcnt * 2 ^ 32) := by
      rw [regWord_device hp (by decide), ← Nat.shiftLeft_eq, ← Nat.shiftLeft_eq]
      rfl
    show s.cpRead = _
    rw [cpRead_spec hfw hm hn (by rw [ha']), ha', hv]
    dsimp only
    rw [readClears_eq (by decide) (fun p _ => by omega), if_pos rfl]
    rfl
  · rcases ha with ha | ha
    · exact hword (by omega) (by omega) (by omega) (by rw [ha]; rfl)
    · exact hword (by omega) (by omega) (by omega) (by rw [ha]; rfl)

theorem readsPartition (hfw : s.fwStatus = .ok) (hm : s.req.m = 0) (hn : s.req.n = 8) (hp : s.pst ≠ 4) {p : Nat} (hp16 : p < 16) :
    let a := s.req.addr
    let reads := fun (v : Nat) => s.cpRead = { s with resp := ⟨.ok, bytesOfNat 8 v⟩ }
    let o := 0x1000000 + 0x100000 * p
    let q := s.part p
    (a = o → reads q.cores.toNat) ∧ (a = o + 8 → reads q.roots.toNat) ∧ (a = o + 0x10 → reads q.bandq) ∧ (a = o + 0x18 → reads q.vecs.toNat)
    ∧ (a = o + 0x1008 → reads 0) ∧ (a = o + 0x1800 → reads 0)
    ∧ (a = o + 0x1000 → q.slot.alen < 1024 → q.slot.slen < 1024 → q.slot.cidx < 1024 → q.slot.cfail < 16 → q.slot.ovrn < 16 →
        reads (q.slot.st.code + q.slot.shadow.code * 2 ^ 5 + q.slot.alen * 2 ^ 10 + q.slot.slen * 2 ^ 20 + q.slot.cidx * 2 ^ 30
          + q.slot.cfail * 2 ^ 40 + q.slot.ovrn * 2 ^ 44)) := by
  intro a reads o q
  have hword {n v : Nat} (ha : a = o + n) (hn' : n < 0x100000) (h8 : n % 8 = 0) (hv : q.word n = v) : reads v := by
    have ha' : s.req.addr = 0x1000000 + 0x100000 * p + n := ha
    refine cpRead_word hfw hm hn (by omega) ?_ ?_
    · rintro (h | ⟨r, _, h⟩) <;> omega
    · rw [ha', regWord_part hp hp16 hn']
      exact congrArg _ hv
  refine ⟨fun ha => hword (n := 0) ha (by decide) rfl rfl, fun ha => hword ha (by decide) rfl rfl, fun ha => hword ha (by decide) rfl rfl,
    fun ha => hword ha (by decide) rfl rfl, fun ha => hword ha (by decide) rfl rfl, fun ha => hword ha (by decide) rfl rfl,
    fun ha h1 h2 h3 h4 h5 => hword ha (by decide) rfl ?_⟩
  exact slotWord_eq h1 h2 h3 h4 h5

theorem readsContext (hfw : s.fwStatus = .ok) (hm : s.req.m = 0) (hn : s.req.n = 8) (hp : s.pst ≠ 4) {x : Nat} (hx : x < 256) :
    let a := s.req.addr
    let reads := fun (v : Nat) => s.cpRead = { s with resp := ⟨.ok, bytesOfNat 8 v⟩ }
    let o := 0x11000000 + 0x10000 * x
    let own := (s.part (x / 16)).key = false ∨ s.vendor = true ∨ (s.req.auth = true ∧ reqPart s = x / 16)
    let k := s.ctx x
    (¬ own → a = o → refusedRead s .debugDenied)
    ∧ (own → a = o + 8 → reads k.ttab.toNat) ∧ (own → a = o + 0x50 → reads k.cores.toNat)
    ∧ (own → ∀ i < 256, ∀ d, aget k.deps i = some d → a = o + 0x400 + 8 * i → reads ((BitVec.ofInt 32 d.count).toNat ||| (if d.ovf then 1 else 0) * 2 ^ 32))
    ∧ (own → a = o + 0xC18 → ∀ l, aget k.launches k.launchSel.toNat = some l → l.st.active = true → reads (s.launchCount x k.launchSel.toNat)) := by
  intro a reads o own k
  have hword {n v : Nat} (hown : own) (ha : a = o + n) (hn' : n < 0x10000) (h8 : n % 8 = 0) (hv : s.ctxWord x n = v) : reads v := by
    have ha' : s.req.addr = 0x11000000 + 0x10000 * x + n := ha
    refine cpRead_word hfw hm hn (by omega) ?_ ?_
    · rintro (h | ⟨r, _, h⟩) <;> omega
    · rw [ha', regWord_ctx hp hx hn', if_pos (mayDescribe_iff.mpr hown), hv]
  refine ⟨fun hown ha => ?_, fun hown ha => hword hown ha (by decide) rfl rfl, fun hown ha => hword hown ha (by decide) rfl rfl,
    fun hown i hi d hd ha => ?_, fun hown ha l hl hact => ?_⟩
  · have ha' : s.req.addr = 0x11000000 + 0x10000 * x + 0 := ha
    rw [refusedRead, cpRead_spec hfw hm hn (by omega), ha', regWord_ctx hp hx (by decide), if_neg (mayDescribe_iff.not.mpr hown)]
    rfl
  · refine hword (n := 0x400 + 8 * i) hown (by omega) (by omega) (by omega) ?_
    have h1 : ¬ 0x400 + 8 * i < 0x80 := by omega
    have h2 : ¬ 0x400 + 8 * i = 0x100 := by omega
    have h3 : ¬ (decide (0x200 ≤ 0x400 + 8 * i) && decide (0x400 + 8 * i < 0x400)) = true := by simp
    have h4 : (decide (0x400 ≤ 0x400 + 8 * i) && decide (0x400 + 8 * i < 0xC00)) = true := by simp; omega
    refine (if_neg h1).trans ((if_neg h2).trans ((if_neg h3).trans ((if_pos h4).trans ?_)))
    rw [show (0x400 + 8 * i - 0x400) / 8 = i by omega, show aget (s.ctx x).deps i = some d from hd, ← Nat.shiftLeft_eq]
    rfl
  · refine hword hown ha (by decide) rfl ?_
    have hactive : k.launchActive k.launchSel.toNat = true := by rw [Context.launchActive, hl]; exact hact
    exact if_pos hactive

end

/-! ### Frames (R406) -/

theorem length_bytesOfNat (n w : Nat) : (bytesOfNat n w).length = n := by
  induction n generalizing w with
  | zero => rfl
  | succ n ih => rw [bytesOfNat, List.length_cons, ih]

/-- An event that ends in a next state whatever the device. -/
def Completes (i : Instr) : Prop := ∀ s, ∃ t, exec i s = .next t

theorem deviceWrite_completes (r : Request) (o v : Nat) (bs : List Byte) : Completes (deviceWrite r o v bs).ev := by
  unfold deviceWrite
  repeat' split
  all_goals exact fun _ => ⟨_, rfl⟩

theorem pcmdEvent_completes (v : Nat) : Completes (pcmdEvent v) := by
  unfold pcmdEvent
  split
  all_goals exact fun _ => ⟨_, rfl⟩

theorem partWrite_completes (r : Request) (p o v : Nat) : Completes (partWrite r p o v).ev := by
  unfold partWrite
  repeat' split
  case isFalse.isFalse.isFalse.isFalse.isTrue => exact pcmdEvent_completes v
  all_goals exact fun _ => ⟨_, rfl⟩

theorem ctxWrite_completes (r : Request) (x o v : Nat) (bs : List Byte) : Completes (ctxWrite r x o v bs).ev := by
  unfold ctxWrite
  repeat' split
  all_goals exact fun _ => ⟨_, rfl⟩

theorem coreWrite_completes (s : State) (r : Request) (c o v : Nat) (bs : List Byte) : Completes (s.coreWrite r c o v bs).ev := by
  unfold State.coreWrite
  repeat' split
  all_goals exact fun _ => ⟨_, rfl⟩

/-- The event of a register write ends in a next state. -/
theorem regWrite_completes (s : State) (r : Request) (a : Nat) (bs : List Byte) : Completes (s.regWrite r a bs).ev := by
  unfold State.regWrite
  split
  · exact deviceWrite_completes _ _ _ _
  split
  · exact partWrite_completes _ _ _ _
  split
  · exact ctxWrite_completes _ _ _ _ _
  split
  · exact coreWrite_completes _ _ _ _ _ _
  · exact fun _ => ⟨_, rfl⟩

/-- The writes of a payload end in a next state. -/
theorem regWrites_completes (r : Request) (fuel : Nat) : ∀ (s : State) (a : Nat) (bs : List Byte), ∃ t, s.regWrites r a bs fuel = .next t := by
  induction fuel with
  | zero => exact fun s _ _ => ⟨s, rfl⟩
  | succ fuel ih =>
    intro s a bs
    rw [State.regWrites]
    split
    · exact ⟨s, rfl⟩
    · obtain ⟨t, ht⟩ := regWrite_completes s r a bs { s with cur := .env, req := (s.regWrite r a bs).req }
      dsimp only
      rw [ht, Out.andThen]
      split
      · exact ⟨t, rfl⟩
      · exact ih t _ _

theorem serveFrame_completes (s : State) (h : Nat) (payload : List Byte) : ∃ t, s.serveFrame h payload = .next t := by
  unfold State.serveFrame
  dsimp only
  repeat' split
  case isFalse.isFalse.isFalse.isFalse => exact regWrites_completes _ _ _ _ _
  all_goals exact ⟨_, rfl⟩

/-! ### The header of a response (R406) -/

theorem take_bytesOfNat {k n : Nat} (h : k ≤ n) (w : Nat) : (bytesOfNat n w).take k = bytesOfNat k w := by
  induction k generalizing n w with
  | zero => rfl
  | succ k ih =>
    obtain ⟨n, rfl⟩ : ∃ m, n = m + 1 := ⟨n - 1, by omega⟩
    rw [bytesOfNat, bytesOfNat, List.take_succ_cons, ih (by omega)]

/-- The low bytes of a number depend on its low bits alone. -/
theorem bytesOfNat_congr {k v w : Nat} (h : v % 2 ^ (8 * k) = w % 2 ^ (8 * k)) : bytesOfNat k v = bytesOfNat k w := by
  induction k generalizing v w with
  | zero => rfl
  | succ k ih =>
    have hpow : 2 ^ (8 * (k + 1)) = 256 * 2 ^ (8 * k) := by rw [Nat.mul_add, pow_add, Nat.mul_comm]; rfl
    rw [hpow] at h
    have hlow : v % 256 = w % 256 := by
      rw [← Nat.mod_mul_right_mod v 256, h, Nat.mod_mul_right_mod]
    have hhigh : v / 256 % 2 ^ (8 * k) = w / 256 % 2 ^ (8 * k) := by
      rw [← Nat.mod_mul_right_div_self, h, Nat.mod_mul_right_div_self]
    rw [bytesOfNat, bytesOfNat, ih hhigh]
    congr 1
    exact BitVec.eq_of_toNat_eq hlow

theorem bytesOfNat_natOfBytes {k : Nat} {l : List Byte} (h : k ≤ l.length) : bytesOfNat k (natOfBytes l) = l.take k := by
  induction k generalizing l with
  | zero => rfl
  | succ k ih =>
    cases l with
    | nil => exact absurd h (by simp)
    | cons b l =>
      have hb := b.isLt
      have hrest : (b.toNat + 256 * natOfBytes l) / 256 = natOfBytes l := by omega
      rw [natOfBytes, bytesOfNat, hrest, ih (Nat.le_of_succ_le_succ h), List.take_succ_cons]
      congr 1
      apply BitVec.eq_of_toNat_eq
      rw [BitVec.toNat_ofNat]
      omega

/-- The response repeats the TAG of its frame. -/
theorem responseFrame_tag {bs : List Byte} (h : 32 ≤ bs.length) (r : Resp) : (responseFrame (natOfBytes (bs.take 32)) r).take 4 = bs.take 4 := by
  have hlen : (bs.take 32).length = 32 := by rw [List.length_take, Nat.min_eq_left h]
  unfold responseFrame
  rw [List.take_append_of_le_length (by rw [length_bytesOfNat]; decide), take_bytesOfNat (by decide)]
  have htake : bs.take 4 = (bs.take 32).take 4 := by rw [List.take_take]; rfl
  rw [htake, ← bytesOfNat_natOfBytes (k := 4) (l := bs.take 32) (by rw [hlen]; decide)]
  refine bytesOfNat_congr (Nat.eq_of_testBit_eq fun i => ?_)
  rw [Nat.testBit_mod_two_pow, Nat.testBit_mod_two_pow]
  by_cases hi : i < 32
  · have h64 : ¬ 64 ≤ i := by omega
    have h68 : ¬ 68 ≤ i := by omega
    have h72 : ¬ 72 ≤ i := by omega
    have h80 : ¬ 80 ≤ i := by omega
    have h96 : ¬ 96 ≤ i := by omega
    simp only [Nat.testBit_or, Nat.testBit_shiftLeft, h64, h68, h72, h80, h96, decide_false, Bool.false_and, Bool.or_false, bf, Nat.shiftRight_zero,
      Nat.testBit_mod_two_pow, decide_eq_true hi, Bool.true_and]
  · rw [decide_eq_false hi, Bool.false_and, Bool.false_and]

theorem responseFrame_length (h : Nat) (r : Resp) : (responseFrame h r).length = 32 + r.data.length := by
  rw [responseFrame, List.length_append, length_bytesOfNat]

/-- Before the boot has ended no frame is accepted (R411). -/
theorem frameIn_unbooted {s : State} {bs : List Byte} (h : s.booted = false) : s.frameIn bs = .next s := by
  refine if_pos ?_
  rw [h]
  rfl

theorem frameIn_answers {s : State} {bs : List Byte} (hb : s.booted = true) (hlen : 32 ≤ bs.length) :
    ∃ t f l, s.frameIn bs = .next t ∧ t.answers = l ++ [f] ∧ f.take 4 = bs.take 4 ∧ f.length = 32 + t.resp.data.length := by
  obtain ⟨u, hu⟩ := serveFrame_completes s (natOfBytes (bs.take 32)) (bs.drop 32)
  have htaken : ¬ (!s.booted || decide (bs.length < 32)) = true := by
    rw [hb, Bool.or_eq_true, decide_eq_true_eq]
    exact not_or.mpr ⟨by decide, not_lt.mpr hlen⟩
  have hrun : s.frameIn bs = .next { u with answers := u.answers ++ [responseFrame (natOfBytes (bs.take 32)) u.resp] } := by
    refine (if_neg htaken).trans ?_
    rw [hu]
    rfl
  exact ⟨_, _, _, hrun, rfl, responseFrame_tag hlen _, responseFrame_length _ _⟩

theorem readsAnswer : ReadsAnswer := by
  refine ⟨fun s hfw hm hn hp => ?_, fun s bs h => frameIn_unbooted h, fun s bs hb hlen => frameIn_answers hb hlen⟩
  intro a gives reads
  obtain ⟨hd1, hd2, hd3, hd4, hd5⟩ := readsDevice hfw hm hn hp
  refine ⟨hd1, hd2, hd3, hd4, hd5, fun p hp16 => ?_, fun x hx => readsContext hfw hm hn hp hx⟩
  obtain ⟨hp1, hp2, hp3, hp4, hp5, hp6, hp7⟩ := readsPartition hfw hm hn hp hp16
  refine ⟨hp1, hp2, hp3, hp4, hp5, hp6, fun ha h1 h2 h3 h4 h5 => ⟨_, _, ?_, ?_, hp7 ha h1 h2 h3 h4 h5⟩⟩
  · cases ((s.part p).slot).st <;> rfl
  · cases ((s.part p).slot).shadow <;> rfl

/-- Settles O51: each command of the control port answers with its status, one lemma for each command, then the reads and the frames. -/
theorem controlPortCommands : Obligations.ControlPortCommands :=
  ⟨noFirmware, partitionRegisters, contextLife, dataCommands, pageCommands, readsAnswer⟩

end Sys2Proof.Proofs
end

section
/-!
SUPPORT. Sparse tables of distinct keys, and the round in which credits are given (R324).
-/

namespace Sys2Proof.Proofs

open Sys2Proof Sys2Proof.Machine Sys2Proof.Claims

/-! ### Sparse tables of distinct keys -/

section
variable {α : Type} {l : List (Nat × α)}

theorem adel_eq_filter (h : (l.map fun e => e.1).Nodup) (n : Nat) : adel l n = l.filter fun e => decide (e.1 ≠ n) := by
  induction l with
  | nil => rfl
  | cons e t ih =>
    obtain ⟨k, v⟩ := e
    obtain ⟨hk, ht⟩ := List.nodup_cons.mp h
    rw [adel]
    split
    case isTrue hn =>
      subst hn
      rw [List.filter_cons_of_neg (by simp), List.filter_eq_self.mpr]
      exact fun e he => decide_eq_true fun heq => hk (List.mem_map.mpr ⟨e, he, heq⟩)
    case isFalse hn => rw [List.filter_cons_of_pos (by simpa using Ne.symm hn), ih ht]

theorem adel_of_aget_none {n : Nat} (h : aget l n = none) : adel l n = l := by
  induction l with
  | nil => rfl
  | cons e t ih =>
    obtain ⟨k, v⟩ := e
    rw [aget] at h
    split at h
    case isTrue => exact absurd h (Option.some_ne_none v)
    case isFalse hn => rw [adel, if_neg hn, ih h]

theorem aget_eq_some_iff (h : (l.map fun e => e.1).Nodup) {n : Nat} {x : α} : aget l n = some x ↔ (n, x) ∈ l := by
  induction l with
  | nil => simp
  | cons e t ih =>
    obtain ⟨k, v⟩ := e
    obtain ⟨hk, ht⟩ := List.nodup_cons.mp h
    rw [aget, List.mem_cons, Prod.mk.injEq]
    split
    case isTrue hn =>
      subst hn
      have hout : (n, x) ∉ t := fun hmem => hk (List.mem_map.mpr ⟨_, hmem, rfl⟩)
      simp [hout, eq_comm]
    case isFalse hn => simp [hn, ih ht]

/-- What a filtered table holds at a key. -/
theorem aget_filter (h : (l.map fun e => e.1).Nodup) (f : Nat × α → Bool) {n : Nat} {x : α} (hx : aget l n = some x) :
    aget (l.filter f) n = if f (n, x) = true then some x else none := by
  have hsub : ((l.filter f).map fun e => e.1).Nodup := h.sublist (List.filter_sublist.map _)
  split
  case isTrue hf => exact (aget_eq_some_iff hsub).mpr (List.mem_filter.mpr ⟨(aget_eq_some_iff h).mp hx, hf⟩)
  case isFalse hf =>
    refine Option.eq_none_iff_forall_not_mem.mpr fun y hy => hf ?_
    obtain ⟨hmem, hfy⟩ := List.mem_filter.mp ((aget_eq_some_iff hsub).mp hy)
    have hxy : x = y := Option.some.inj (hx.symm.trans ((aget_eq_some_iff h).mpr hmem))
    exact hxy ▸ hfy

end

/-! ### A round (R324) -/

/-- The first element of a list that a test accepts, where every element before it in the list's order fails the test. -/
theorem find?_eq_some_of_pairwise {α : Type} {R : α → α → Prop} {p : α → Bool} {c : α} :
    ∀ {l : List α}, l.Pairwise R → c ∈ l → p c = true → (∀ d ∈ l, R d c → p d = false) → l.find? p = some c
  | a :: l, hl, hc, hp, hbefore => by
    obtain ⟨ha, hl⟩ := List.pairwise_cons.mp hl
    rcases List.mem_cons.mp hc with rfl | hc
    · exact List.find?_cons_of_pos hp
    · rw [List.find?_cons_of_neg (by simp [hbefore a List.mem_cons_self (ha c hc)])]
      exact find?_eq_some_of_pairwise hl hc hp fun d hd => hbefore d (List.mem_cons_of_mem a hd)

theorem bitsOf_eq_coresOf (m : Word) : bitsOf m.toNat 64 = coresOf m := by
  simp only [bitsOf, coresOf, BitVec.testBit_toNat]

/-- The round of CREDIT_GRANT takes the cores in the order of `roundBefore`. -/
theorem pairwise_round (m : Word) (n : Nat) :
    ((coresOf m).filter (fun c => n ≤ c) ++ (coresOf m).filter fun c => c < n).Pairwise (roundBefore n) := by
  have hrise : (coresOf m).Pairwise (· < ·) := List.pairwise_lt_range.filter _
  refine List.pairwise_append.mpr ⟨?_, ?_, fun d hd c hc => ?_⟩
  · refine List.pairwise_filter.mpr (hrise.imp fun hlt hd hc => ?_)
    exact .inr (.inl ⟨of_decide_eq_true hd, of_decide_eq_true hc, hlt⟩)
  · refine List.pairwise_filter.mpr (hrise.imp fun hlt hd hc => ?_)
    exact .inr (.inr ⟨of_decide_eq_true hd, of_decide_eq_true hc, hlt⟩)
  · exact .inl ⟨of_decide_eq_true (List.mem_filter.mp hd).2, of_decide_eq_true (List.mem_filter.mp hc).2⟩

theorem mem_round {m : Word} {n c : Nat} :
    c ∈ (coresOf m).filter (fun c => n ≤ c) ++ (coresOf m).filter (fun c => c < n) ↔ c ∈ coresOf m := by
  simp only [List.mem_append, List.mem_filter, decide_eq_true_eq]
  refine ⟨fun h => h.elim And.left And.left, fun h => ?_⟩
  exact (Nat.lt_or_ge c n).elim (fun hlt => .inr ⟨h, hlt⟩) fun hge => .inl ⟨h, hge⟩

section
variable {s : State} {p : Nat}

theorem rp_eq (hreq : s.req.part = p) (hp : p < 16) : s.rp = p := by rw [State.rp, hreq, Nat.mod_eq_of_lt hp]

/-- R324: no credit is given while the store has no free slot; else the next core in the round with fewer than 4 credits gets one. -/
theorem creditGrant_spec (hrp : s.rp = p) :
    let q := s.part p
    let held := ((coresOf q.cores).map fun c => (s.core c).credits).sum
    (8192 ≤ q.tasks.length + held → exec .creditGrant s = .next s)
     ∧ (q.tasks.length + held < 8192 → ∀ c ∈ coresOf q.cores, (s.core c).credits < 4 →
        (∀ d ∈ coresOf q.cores, roundBefore q.creditNext d c → 4 ≤ (s.core d).credits) →
        exec .creditGrant s = .next ((s.onCore c fun k => { k with credits := k.credits + 1 }).onPart p fun q => { q with creditNext := c + 1 })) := by
  intro q held
  have hrun : exec .creditGrant s = .next (evCreditGrant s) := rfl
  simp only [hrun, evCreditGrant, hrp, bitsOf_eq_coresOf]
  refine ⟨fun hfull => congrArg _ (if_pos hfull), fun hfree c hc hlow hbefore => congrArg _ ((if_neg (Nat.not_le.mpr hfree)).trans ?_)⟩
  have hfind := find?_eq_some_of_pairwise (p := fun c => decide ((s.core c).credits < 4)) (pairwise_round q.cores q.creditNext)
    (mem_round.mpr hc) (decide_eq_true hlow) fun d hd hdc => decide_eq_false (Nat.not_lt.mpr (hbefore d (mem_round.mp hd) hdc))
  rw [hfind]

end

end Sys2Proof.Proofs
end

section
/-!
SUPPORT. What raising sluices, taking faults and raising vectors leave of the tasks, the cores and the contexts (R102, R339, R346).
-/

namespace Sys2Proof.Proofs

open Sys2Proof Sys2Proof.Machine Sys2Proof.Claims

/-! ### What raising sluices leaves -/

/-- The device without the pending invocations of its partitions. -/
def butSluices (s : State) : State := { s with parts := s.parts.map fun q => { q with sluices := [] } }

/-- The tasks of a partition: its store, the enqueued ones, its queues. -/
def taskLists (q : Partition) : List (Nat × Task) × List Nat × Vector (List Nat) 8 := (q.tasks, q.enqs, q.queues)

/-- The cancels on their way and the tasks of every partition. -/
def taskStore (s : State) : List CancelMsg × Vector (List (Nat × Task) × List Nat × Vector (List Nat) 8) 16 :=
  (s.cancels, s.parts.map taskLists)

/-- The cores, the contexts and the decrements on their way. -/
def outsideTasks (s : State) : Vector Core 64 × Vector Context 256 × List DecMsg := (s.cores, s.ctxs, s.decs)

section
variable {s t : State}

theorem taskLists_part (h : taskStore t = taskStore s) {p : Nat} (hp : p < 16) : taskLists (t.part p) = taskLists (s.part p) := by
  have hat : ∀ u : State, (taskStore u).2[p] = taskLists (u.part p) := fun u => by simp [taskStore, State.part, hp]
  rw [← hat, ← hat, h]

theorem cancels_of_taskStore (h : taskStore t = taskStore s) : t.cancels = s.cancels := congrArg Prod.fst h
theorem tasks_of_taskStore (h : taskStore t = taskStore s) {p : Nat} (hp : p < 16) : (t.part p).tasks = (s.part p).tasks :=
  congrArg Prod.fst (taskLists_part h hp)
theorem enqs_of_taskStore (h : taskStore t = taskStore s) {p : Nat} (hp : p < 16) : (t.part p).enqs = (s.part p).enqs :=
  congrArg (fun l => l.2.1) (taskLists_part h hp)

theorem taskStore_butSluices (s : State) : taskStore (butSluices s) = taskStore s := by
  simp only [taskStore, butSluices, Vector.map_map]
  rfl

theorem taskStore_of_butSluices (h : butSluices t = butSluices s) : taskStore t = taskStore s := by
  rw [← taskStore_butSluices t, h, taskStore_butSluices]

theorem outsideTasks_of_butSluices (h : butSluices t = butSluices s) : outsideTasks t = outsideTasks s := (congrArg outsideTasks h :)

theorem cores_of_outsideTasks (h : outsideTasks t = outsideTasks s) : t.cores = s.cores := congrArg Prod.fst h
theorem decs_of_outsideTasks (h : outsideTasks t = outsideTasks s) : t.decs = s.decs := congrArg (fun k => k.2.2) h
theorem ctx_of_outsideTasks (h : outsideTasks t = outsideTasks s) (x : Nat) : t.ctx x = s.ctx x :=
  congrArg (fun v : Vector Context 256 => (v[x]?).getD Context.reset) (congrArg (fun k => k.2.1) h)

/-- A change of one partition keeps a projection of all of them that it keeps in that partition. -/
theorem map_setPart {α : Type} (f : Partition → α) (v : Vector Partition 16) (p : Nat) (q : Partition)
    (hq : f q = f ((v[p]?).getD Partition.reset)) : (v.setIfInBounds p q).map f = v.map f := by
  ext i hi
  rw [Vector.getElem_map, Vector.getElem_map, Vector.getElem_setIfInBounds]
  split
  case isTrue hpi =>
    subst hpi
    rw [hq, Vector.getElem?_eq_getElem hi, Option.getD_some]
  case isFalse => rfl

theorem butSluices_onPart {p : Nat} {f : Partition → Partition} (hf : ∀ q, { f q with sluices := [] } = { q with sluices := [] }) :
    butSluices (s.onPart p f) = butSluices s := by
  rw [butSluices, State.onPart, map_setPart _ _ _ _ (hf _)]
  rfl

theorem taskStore_onPart {p : Nat} {f : Partition → Partition} (hf : ∀ q, taskLists (f q) = taskLists q) : taskStore (s.onPart p f) = taskStore s :=
  congrArg (s.cancels, ·) (map_setPart taskLists s.parts p _ (hf _))

theorem raise_changes_sluices (q : Partition) (r : SReq) : ∃ l, q.raise r = { q with sluices := l } := by
  unfold Partition.raise
  extract_lets merged
  split
  · exact ⟨q.sluices, rfl⟩
  · exact ⟨_, rfl⟩

@[simp] theorem butSluices_raiseSluice (s : State) (p : Nat) (r : SReq) : butSluices (s.raiseSluice p r) = butSluices s :=
  butSluices_onPart fun q => by
    obtain ⟨l, hl⟩ := raise_changes_sluices q { r with raised := s.cycle / 2 }
    rw [hl]

@[simp] theorem butSluices_raiseDispatch (s : State) (p : Nat) : butSluices (s.raiseDispatch p) = butSluices s := by
  unfold State.raiseDispatch
  split
  · exact butSluices_raiseSluice _ _ _
  · rfl

@[simp] theorem butSluices_raiseSteals (s : State) (p : Nat) : butSluices (s.raiseSteals p) = butSluices s := by
  unfold State.raiseSteals
  dsimp only
  split
  · rfl
  · refine List.foldlRecOn (motive := fun t : State => butSluices t = butSluices s) _ _ rfl fun t ht c _ => ?_
    split
    · exact (butSluices_raiseSluice _ _ _).trans ht
    · exact ht

theorem taskStore_coreFreed (s : State) (c : Nat) : taskStore (s.coreFreed c) = taskStore s := by
  refine taskStore_of_butSluices (List.foldlRecOn (motive := fun t : State => butSluices t = butSluices s) _ _ rfl fun t ht p _ => ?_)
  split
  · rw [butSluices_raiseSteals, butSluices_raiseDispatch, ht]
  · exact ht

/-- A COMPLETE sluice is raised for a task, or one waits already (R339). -/
theorem raiseSluice_complete {p : Nat} (hp : p < 16) {r : SReq} (hr : r.sl = .complete) :
    ∃ z ∈ ((s.raiseSluice p r).part p).sluices, z.sl = .complete ∧ z.task = r.task := by
  rw [State.raiseSluice, State.part_onPart_same _ hp, Partition.raise]
  dsimp only
  rw [hr]
  dsimp only
  split
  case isTrue hany =>
    obtain ⟨z, hz, hzr⟩ := List.any_eq_true.mp hany
    obtain ⟨hsl, htask⟩ := Bool.and_eq_true_iff.mp hzr
    exact ⟨z, hz, of_decide_eq_true hsl, of_decide_eq_true htask⟩
  case isFalse => exact ⟨_, List.mem_append_right _ (List.mem_singleton.mpr rfl), rfl, rfl⟩

theorem takeFault_raises {x : Nat} (hx : x < 256) (r : FRec) (who : Agent) (kind prio tflags : Nat) :
    faultRaised (s.takeFault x r who kind prio tflags) x who r.kind := by
  rw [faultRaised, State.takeFault_eq, State.raiseSluice, State.part_onPart_same _ (by omega)]
  exact ⟨_, List.mem_append_right _ (List.mem_singleton.mpr rfl), rfl, rfl, rfl⟩

theorem takeFault_frecNext {x : Nat} (hx : x < 256) (r : FRec) (who : Agent) (kind prio tflags : Nat) :
    ((s.takeFault x r who kind prio tflags).ctx x).frecNext = ((s.ctx x).frecNext + 1) % 64 := by
  rw [State.takeFault_eq, State.raiseSluice, State.ctx_onPart, State.ctx_onCtx_same _ hx]
  dsimp only
  rw [State.homeWrite, State.ctx, State.setHome_ctxs, State.ctx]

theorem taskStore_homeWrite (s : State) (h a : Nat) (bs : List Byte) : taskStore (s.homeWrite h a bs) = taskStore s := by
  unfold State.homeWrite State.setHome
  split <;> rfl

theorem taskStore_takeFault (s : State) (x : Nat) (r : FRec) (who : Agent) (kind prio tflags : Nat) :
    taskStore (s.takeFault x r who kind prio tflags) = taskStore s := by
  rw [State.takeFault_eq, taskStore_of_butSluices (butSluices_raiseSluice _ _ _)]
  exact taskStore_homeWrite _ _ _ _

theorem taskStore_tell (s : State) (m : DevMsg) : taskStore (s.tell m) = taskStore s := rfl
theorem taskStore_onCtx (s : State) (x : Nat) (f : Context → Context) : taskStore (s.onCtx x f) = taskStore s := rfl

theorem taskStore_raiseVector (s : State) (p v : Nat) (x : Option (BitVec 4)) : taskStore (s.raiseVector p v x) = taskStore s := by
  unfold State.raiseVector
  split
  · rfl
  · exact (taskStore_tell _ _).trans (taskStore_onPart fun _ => rfl)

end

end Sys2Proof.Proofs
end

section
/-!
SUPPORT. Launches, the replay log and discarded units leave the tasks alone; a task leaves its slot, and cancels take out the tasks that they name
(R118, R119, R131, R328, R331).
-/

namespace Sys2Proof.Proofs

open Sys2Proof Sys2Proof.Machine Sys2Proof.Claims

/-! ### Launches and the replay log leave the tasks alone -/

section
variable {s : State}

theorem taskStore_ringWrite (h base cap : Nat) : ∀ (bs : List Byte) (s : State) (pos : Nat), taskStore (s.ringWrite h base cap pos bs) = taskStore s
  | [], _, _ => rfl
  | _ :: bs, _, _ => (taskStore_ringWrite h base cap bs _ _).trans (taskStore_homeWrite _ _ _ _)

theorem taskStore_log (s : State) (x kind : Nat) (payload : List Byte) (core : Nat) : taskStore (s.log x kind payload core) = taskStore s := by
  unfold State.log
  extract_lets k cap e used t
  split
  · rfl
  · split
    · exact (taskStore_raiseVector _ _ _ _).trans (taskStore_onCtx _ _ _)
    · exact (taskStore_onCtx _ _ _).trans (taskStore_ringWrite _ _ _ _ _ _)

theorem taskStore_boundary (s : State) (x : Nat) : taskStore (s.boundary x) = taskStore s := by
  unfold State.boundary
  extract_lets k t u
  split
  · rfl
  · exact (taskStore_onCtx _ _ _).trans ((taskStore_log _ _ _ _ _).trans (taskStore_onCtx _ _ _))

theorem taskStore_settleContext (s : State) (x : Nat) : taskStore (s.settleContext x) = taskStore s := by
  unfold State.settleContext
  extract_lets k
  split
  · exact (taskStore_boundary _ _).trans (taskStore_onCtx _ _ _)
  · rfl

theorem taskStore_setLaunch (s : State) (x id : Nat) (st : LState) : taskStore (s.setLaunch x id st) = taskStore s := by
  unfold State.setLaunch
  extract_lets code last t
  split <;> rfl

theorem taskStore_checkLaunch (s : State) (x id : Nat) : taskStore (s.checkLaunch x id) = taskStore s := by
  unfold State.checkLaunch
  split
  · rfl
  · extract_lets ends began t st open1
    have ht : taskStore t = taskStore s := by
      show taskStore (if _ then _ else _) = _
      split
      · exact taskStore_setLaunch _ _ _ _
      · rfl
    split
    · exact (taskStore_settleContext _ _).trans ((taskStore_setLaunch _ _ _ _).trans ht)
    · exact ht

theorem taskStore_markEnded (s : State) (x id : Nat) : taskStore (s.markEnded x id) = taskStore s := rfl

theorem taskStore_levelMessages (s : State) (p : Nat) (t : Task) : taskStore (s.levelMessages p t) = taskStore s :=
  List.foldlRecOn (motive := fun u : State => taskStore u = taskStore s) _ _ rfl fun u hu e _ => by
    split
    · exact hu
    · exact hu

/-! ### Discarding a task's units leaves the tasks alone -/

theorem taskStore_failArrivals (s : State) (c : Nat) (mine : CopyCmd → Bool) : taskStore (s.failArrivals c mine) = taskStore s :=
  List.foldlRecOn (motive := fun u : State => taskStore u = taskStore s) _ _ rfl fun _ hu _ _ => hu

theorem taskStore_discardUnits (s : State) (p slot : Nat) (keep : Nat → Bool) : taskStore (s.discardUnits p slot keep) = taskStore s := by
  unfold State.discardUnits
  extract_lets t
  refine List.foldlRecOn (motive := fun u : State => taskStore u = taskStore s) _ _ ?_ fun u hu c _ => ?_
  · dsimp only [t]
    split <;> rfl
  · extract_lets k mine bandMine listMine cmdMine v k1 k2
    split
    · exact (taskStore_coreFreed _ _).trans ((taskStore_failArrivals _ _ _).trans hu)
    · exact hu

/-! ### A task leaves its slot (R328) -/

/-- The device once a task has left its slot, its partition's lists, and the pending and running invocations that name it. -/
def taskRemoved (s : State) (p slot : Nat) (t : Task) : State :=
  { s.onPart p fun q => { q with
      tasks := adel q.tasks slot
      enqs := q.enqs.filter fun n => n ≠ slot
      queues := q.queues.map fun l => l.filter fun n => n ≠ slot
      sluices := q.sluices.map (SReq.taskGone slot t.flags)
      decided := q.decided.map fun d => { d with req := d.req.taskGone slot t.flags } } with
    engines := s.engines.map fun e => e.map fun g => g.taskGone p slot t.flags }

theorem cancels_taskRemoved (s : State) (p slot : Nat) (t : Task) : (taskRemoved s p slot t).cancels = s.cancels := rfl

theorem dropTask_eq {p slot : Nat} {t : Task} (ht : aget (s.part p).tasks slot = some t) :
    s.dropTask p slot =
      let u := taskRemoved s p slot t
      let u := if t.completed then u else u.levelMessages p t
      if t.st = .ready || t.st = .placed then u.raiseSteals p else u := by
  unfold State.dropTask
  rw [ht]
  rfl

theorem taskStore_dropTask {p slot : Nat} {t : Task} (ht : aget (s.part p).tasks slot = some t) :
    taskStore (s.dropTask p slot) = taskStore (taskRemoved s p slot t) := by
  rw [dropTask_eq ht]
  extract_lets u v
  have hv : taskStore v = taskStore u := by
    dsimp only [v]
    split
    · rfl
    · exact taskStore_levelMessages _ _ _
  split
  · exact (taskStore_of_butSluices (butSluices_raiseSteals _ _)).trans hv
  · exact hv

theorem outsideTasks_levelMessages (s : State) (p : Nat) (t : Task) : outsideTasks (s.levelMessages p t) = outsideTasks s :=
  List.foldlRecOn (motive := fun u : State => outsideTasks u = outsideTasks s) _ _ rfl fun u hu e _ => by
    split
    · exact hu
    · exact hu

theorem outsideTasks_dropTask (s : State) (p slot : Nat) : outsideTasks (s.dropTask p slot) = outsideTasks s := by
  cases ht : aget (s.part p).tasks slot with
  | none =>
    unfold State.dropTask
    rw [ht]
  | some t =>
    rw [dropTask_eq ht]
    extract_lets u v
    have hv : outsideTasks v = outsideTasks s := by
      dsimp only [v]
      split
      · rfl
      · exact outsideTasks_levelMessages _ _ _
    split
    · exact (outsideTasks_of_butSluices (butSluices_raiseSteals _ _)).trans hv
    · exact hv

theorem taskLists_taskRemoved {p : Nat} (hp : p < 16) (slot : Nat) (t : Task) : taskLists ((taskRemoved s p slot t).part p) =
    (adel (s.part p).tasks slot, (s.part p).enqs.filter (fun n => n ≠ slot), (s.part p).queues.map fun l => l.filter fun n => n ≠ slot) :=
  congrArg taskLists (State.part_onPart_same s hp fun q => { q with
    tasks := adel q.tasks slot
    enqs := q.enqs.filter fun n => n ≠ slot
    queues := q.queues.map fun l => l.filter fun n => n ≠ slot
    sluices := q.sluices.map (SReq.taskGone slot t.flags)
    decided := q.decided.map fun d => { d with req := d.req.taskGone slot t.flags } })

/-! ### Cancels of tasks (R331) -/

/-- A cancelled task's slot is free, and no other of its partition's store has changed. -/
theorem cancelTask_spec (s : State) {p : Nat} (hp : p < 16) (slot : Nat) :
    (s.cancelTask p slot).cancels = s.cancels ∧ ((s.cancelTask p slot).part p).tasks = adel (s.part p).tasks slot := by
  unfold State.cancelTask
  split
  case h_1 h => exact ⟨rfl, (adel_of_aget_none h).symm⟩
  case h_2 t ht =>
    have hunits := taskStore_discardUnits s p slot fun _ => false
    have hstore := tasks_of_taskStore hunits hp
    rw [← hstore] at ht ⊢
    have hdrop := (taskStore_markEnded _ (t.slotOf p) t.launch.toNat).trans (taskStore_dropTask ht)
    refine ⟨(cancels_of_taskStore hdrop).trans ((cancels_taskRemoved _ _ _ _).trans (cancels_of_taskStore hunits)), ?_⟩
    rw [tasks_of_taskStore hdrop hp]
    exact congrArg Prod.fst (taskLists_taskRemoved hp slot t)

/-- Cancelling the tasks of a list takes exactly their slots out of the store. -/
theorem foldl_cancelTask_spec {p : Nat} (hp : p < 16) (l : List (Nat × Task)) (s : State) (hkeys : ((s.part p).tasks.map fun e => e.1).Nodup) :
    let u := l.foldl (fun s t => s.cancelTask p t.1) s
    u.cancels = s.cancels ∧ (u.part p).tasks = (s.part p).tasks.filter fun e => !(l.map fun t => t.1).contains e.1 := by
  induction l generalizing s with
  | nil => exact ⟨rfl, (List.filter_eq_self.mpr fun _ _ => rfl).symm⟩
  | cons a l ih =>
    obtain ⟨hcancels, htasks⟩ := cancelTask_spec s hp a.1
    rw [adel_eq_filter hkeys] at htasks
    obtain ⟨hc, ht⟩ := ih (s.cancelTask p a.1) (htasks ▸ hkeys.sublist (List.filter_sublist.map _))
    refine ⟨hc.trans hcancels, ht.trans ?_⟩
    rw [htasks, List.filter_filter]
    congr 1
    funext e
    simp [Bool.and_comm, beq_eq_decide]

theorem taskStore_foldl_checkLaunch (x : Nat) (l : List (Nat × Task)) (s : State) :
    taskStore (l.foldl (fun s t => s.checkLaunch x t.2.launch.toNat) s) = taskStore s :=
  List.foldlRecOn (motive := fun u : State => taskStore u = taskStore s) _ _ rfl fun _ hu _ _ => (taskStore_checkLaunch _ _ _).trans hu

/-- R331: a cancel of a graph, a phase or a job takes out the tasks of its context that carry the id, and no others. -/
theorem cancel_spec {s : State} {m : CancelMsg} (hctx : m.ctx < 256) (hlo : 2 ≤ m.level) 
    (hkeys : ((s.part (m.ctx / 16)).tasks.map fun t => t.1).Nodup) :
    (s.cancel m).cancels = s.cancels
      ∧ ∀ n t, aget (s.part (m.ctx / 16)).tasks n = some t →
        aget ((s.cancel m).part (m.ctx / 16)).tasks n = if t.ctx.toNat = m.ctx % 16 ∧ t.carries m.level m.id = true then none else some t := by
  have hp : m.ctx / 16 < 16 := by omega
  let hit : Nat × Task → Bool := fun t => t.2.ctx.toNat = m.ctx % 16 && t.2.carries m.level m.id
  let ts := (s.part (m.ctx / 16)).tasks.filter hit
  have hcancel : s.cancel m =
      ts.foldl (fun s t => s.checkLaunch m.ctx t.2.launch.toNat) (ts.foldl (fun s t => s.cancelTask (m.ctx / 16) t.1) s) := by
    unfold State.cancel
    rw [if_neg (by omega)]
    dsimp only
    rw [if_neg (by omega)]
  obtain ⟨hcancels, htasks⟩ := foldl_cancelTask_spec hp ts s hkeys
  have hstore := taskStore_foldl_checkLaunch m.ctx ts (ts.foldl (fun s t => s.cancelTask (m.ctx / 16) t.1) s)
  rw [hcancel]
  refine ⟨(cancels_of_taskStore hstore).trans hcancels, fun n t ht => ?_⟩
  have hnamed : (ts.map fun t => t.1).contains n = hit (n, t) := by
    rw [Bool.eq_iff_iff, List.contains_iff_mem, List.mem_map]
    constructor
    · rintro ⟨⟨k, z⟩, hz, rfl⟩
      obtain ⟨hmem, hhit⟩ := List.mem_filter.mp hz
      have hzt : z = t := Option.some.inj (((aget_eq_some_iff hkeys).mpr hmem).symm.trans ht)
      exact hzt ▸ hhit
    · exact fun hhit => ⟨(n, t), List.mem_filter.mpr ⟨(aget_eq_some_iff hkeys).mp ht, hhit⟩, rfl⟩
  rw [tasks_of_taskStore hstore hp, htasks, aget_filter hkeys _ ht, hnamed]
  by_cases hhit : t.ctx.toNat = m.ctx % 16 ∧ t.carries m.level m.id = true
  · simp [hit, hhit]
  · rw [if_neg hhit, if_pos (by simpa [hit, -not_and, not_and_or] using hhit)]

end

end Sys2Proof.Proofs
end

section
/-!
SUPPORT. Tasks become READY, counters count, and the messages of cores reach the scheduler (R15, R326 to R328, R331).
-/

namespace Sys2Proof.Proofs

open Sys2Proof Sys2Proof.Machine Sys2Proof.Claims

/-! ### Tasks become READY (R327, R328) -/

section
variable {s : State} {p : Nat}

/-- The device once a task has gone READY, at the tail of its queue. -/
def readied (s : State) (p slot : Nat) (t : Task) : State :=
  s.onPart p fun q => { q with
    tasks := amod q.tasks slot fun t => { t with st := .ready, readyAt := s.cycle / 2 }
    queues := q.queues.setIfInBounds (recQueue t.record) ((q.queues[recQueue t.record]?).getD [] ++ [slot]) }

theorem butSluices_readyTask {slot : Nat} {t : Task} (ht : aget (s.part p).tasks slot = some t) :
    butSluices (s.readyTask p slot) = butSluices (readied s p slot t) := by
  unfold State.readyTask
  rw [ht]
  dsimp -zeta only
  extract_lets r n u v on
  have hv : butSluices v = butSluices u := butSluices_raiseDispatch u p
  split
  · exact (butSluices_raiseSluice _ _ _).trans hv
  · exact hv

theorem outsideTasks_readyTask (s : State) (p slot : Nat) : outsideTasks (s.readyTask p slot) = outsideTasks s := by
  cases ht : aget (s.part p).tasks slot with
  | none =>
    unfold State.readyTask
    rw [ht]
  | some t => exact (outsideTasks_of_butSluices (butSluices_readyTask ht) :)

/-! ### Dependency counters (R326) -/

/-- A counter that has been added to, with clamping. -/
def depAdd (o : Dep) (d : Int) : Dep :=
  let v := max (-2 ^ 31) (min (2 ^ 31 - 1) (o.count + d))
  ⟨v, o.ovf || v != o.count + d⟩

/-- The device once a counter has been added to. -/
def counted (s : State) (x n : Nat) (d : Int) : State := s.onCtx x fun k => { k with deps := aput k.deps n (depAdd (s.dep x n) d) }

theorem outsideTasks_addDep (s : State) (x n : Nat) (d : Int) : outsideTasks (s.addDep x n d) = outsideTasks (counted s x n d) := by
  unfold State.addDep
  extract_lets o v c u q ws
  have hu : u = counted s x n d := by
    simp only [u, counted, depAdd, bne, beq_eq_decide, decide_not]
    rfl
  rw [← hu]
  split
  · rfl
  · exact List.foldlRecOn (motive := fun z : State => outsideTasks z = outsideTasks u) _ _ rfl fun z hz t _ => (outsideTasks_readyTask _ _ _).trans hz

theorem addDep_parts (s : State) (x n : Nat) (d : Int) (h : 0 < (depAdd (s.dep x n) d).count) : (s.addDep x n d).parts = s.parts := by
  unfold State.addDep
  extract_lets o v c u q ws
  have hc : 0 < c := h
  rw [if_pos hc]
  rfl

theorem dep_counted_same {x : Nat} (hx : x < 256) (n : Nat) (d : Int) : (counted s x n d).dep x n = depAdd (s.dep x n) d := by
  rw [State.dep, counted, State.ctx_onCtx_same _ hx, aget_aput_same, Option.getD_some]

theorem dep_counted_ne {x : Nat} (hx : x < 256) {n m : Nat} (h : m ≠ n) (d : Int) : (counted s x n d).dep x m = s.dep x m := by
  rw [State.dep, counted, State.ctx_onCtx_same _ hx, aget_aput_ne _ _ h, State.dep]

theorem dep_of_outsideTasks {s t : State} (h : outsideTasks t = outsideTasks s) (x n : Nat) : t.dep x n = s.dep x n := by
  rw [State.dep, ctx_of_outsideTasks h, State.dep]

/-- R15, R326: a decrement waits for what its core sent before it, then reaches its counter. -/
theorem depCounterDecrement_spec {d : DecMsg} (hd : s.decs[s.req.n]? = some d) :
    (s.schedWaits d.core d.num = true → exec .depCounterDecrement s = .next s)
    ∧ (d.ctx < 256 → s.schedWaits d.core d.num = false →
        let o := s.dep d.ctx d.counter
        let v := max (-2 ^ 31) (min (2 ^ 31 - 1) (o.count - d.amount))
        ∃ u, exec .depCounterDecrement s = .next u ∧ u.decs = s.decs.eraseIdx s.req.n ∧ u.cores = s.cores
          ∧ u.dep d.ctx d.counter = ⟨v, o.ovf || v != o.count - d.amount⟩
          ∧ (∀ n, n ≠ d.counter → u.dep d.ctx n = s.dep d.ctx n) ∧ (0 < v → u.parts = s.parts)) := by
  have hrun : exec .depCounterDecrement s = .next (if s.schedWaits d.core d.num then s
      else { s with decs := s.decs.eraseIdx s.req.n }.addDep d.ctx d.counter (-d.amount)) := by
    show Host.Outcome.next (evDepCounterDecrement s) = _
    rw [evDepCounterDecrement, hd]
  refine ⟨fun hw => hrun.trans (congrArg _ (if_pos hw)), fun hx hw => ?_⟩
  rw [hw, if_neg Bool.false_ne_true] at hrun
  intro o v
  have hout := outsideTasks_addDep { s with decs := s.decs.eraseIdx s.req.n } d.ctx d.counter (-d.amount)
  refine ⟨_, hrun, (decs_of_outsideTasks hout :), (cores_of_outsideTasks hout :), ?_, fun n hn => ?_, fun hv => ?_⟩
  · exact (dep_of_outsideTasks hout _ _).trans (dep_counted_same hx _ _)
  · exact (dep_of_outsideTasks hout _ _).trans (dep_counted_ne hx hn _)
  · exact addDep_parts _ _ _ _ hv

/-- R15, R331: a cancel waits for what its core sent before it, then takes out the tasks that it names. -/
theorem cancelArrive_spec {m : CancelMsg} (hm : s.cancels[s.req.n]? = some m) :
    (s.schedWaits m.core m.num = true → exec .cancelArrive s = .next s)
    ∧ (m.ctx < 256 → 2 ≤ m.level → s.schedWaits m.core m.num = false → ((s.part (m.ctx / 16)).tasks.map fun t => t.1).Nodup →
        ∃ u, exec .cancelArrive s = .next u ∧ u.cancels = s.cancels.eraseIdx s.req.n
          ∧ (∀ n t, aget (s.part (m.ctx / 16)).tasks n = some t →
            aget (u.part (m.ctx / 16)).tasks n = if t.ctx.toNat = m.ctx % 16 ∧ t.carries m.level m.id = true then none else some t)) := by
  have hrun : exec .cancelArrive s = .next (if s.schedWaits m.core m.num then s else { s with cancels := s.cancels.eraseIdx s.req.n }.cancel m) := by
    show Host.Outcome.next (evCancelArrive s) = _
    rw [evCancelArrive, hm]
  refine ⟨fun hw => hrun.trans (congrArg _ (if_pos hw)), fun hx hlo hw hkeys => ?_⟩
  rw [hw, if_neg Bool.false_ne_true] at hrun
  exact ⟨_, hrun, cancel_spec (s := { s with cancels := s.cancels.eraseIdx s.req.n }) hx hlo hkeys⟩

end

end Sys2Proof.Proofs
end

section
/-!
SUPPORT. Tasks are processed and complete (R328 to R330); the scheduler's tasks as O37 says them.
-/

namespace Sys2Proof.Proofs

open Sys2Proof Sys2Proof.Machine Sys2Proof.Claims

section
variable {s : State} {p : Nat}

/-! ### Tasks are processed (R328, R330) -/

theorem slotOf_lt (hp : p < 16) (t : Task) : t.slotOf p < 256 := by
  have hctx := t.ctx.isLt
  rw [Task.slotOf]
  omega

theorem slotOf_div (p : Nat) (t : Task) : t.slotOf p / 16 = p := by
  have hctx := t.ctx.isLt
  rw [Task.slotOf]
  omega

/-- The partition once an enqueued task is being processed. -/
def dequeue (slot : Nat) (q : Partition) : Partition := { q with enqs := q.enqs.filter fun n => n ≠ slot }

/-- A launch of whose unit indices a task has taken its own. -/
def takeIndices (r : BitVec 512) (l : Launch) : Launch := { l with nextIndex := l.nextIndex + recUnits r }

/-- The device once a task of the launch `l` has its unit indices. -/
def indexed (s : State) (p slot : Nat) (t : Task) (l : Launch) : State :=
  ((s.onPart p (dequeue slot)).onCtx (t.slotOf p) fun k => { k with launches := amod k.launches t.launch.toNat (takeIndices t.record) }).onTask p slot
    fun k => { k with launch := BitVec.ofNat 32 t.launch.toNat, first := l.nextIndex }

/-- Whether a task waits for its WAIT counter (R326). -/
def waits (s : State) (p : Nat) (t : Task) : Bool := tf t.record 239 1 = 1 && 0 < (s.dep (t.slotOf p) (tf t.record 224 8)).count

section
variable {slot : Nat} {t : Task} {lc : Launch}

theorem processTask_refused (ht : aget (s.part p).tasks slot = some t) (hst : t.st = .pending) (hjoin : t.isLaunch = false)
    (hlc : aget (s.ctx (t.slotOf p)).launches t.launch.toNat = some lc) (hdead : lc.st.active = false) :
    s.processTask p slot = (s.onPart p (dequeue slot)).refuseTask p slot t := by
  simp only [State.processTask, ht, hst, ne_eq, not_true_eq_false, if_false, State.ctx_onPart, hlc, hjoin, hdead, Bool.not_false, Bool.and_self, if_true]
  rfl

theorem processTask_joined (ht : aget (s.part p).tasks slot = some t) (hst : t.st = .pending) (hjoin : t.isLaunch = false)
    (hlc : aget (s.ctx (t.slotOf p)).launches t.launch.toNat = some lc) (hlive : lc.st.active = true)
    (hdec0 : tf t.record 223 1 = 0) (hdec1 : tf t.record 207 1 = 0) :
    s.processTask p slot =
      let u := indexed s p slot t lc
      if waits u p t then (u.newId.2).onTask p slot fun t => { t with st := .blocked, order := u.nextId } else u.readyTask p slot := by
  simp only [State.processTask, ht, hst, ne_eq, not_true_eq_false, if_false, State.ctx_onPart, hlc, hjoin, hlive, hdec0, hdec1, Bool.not_true,
    Bool.and_false, Bool.false_eq_true, Option.map_some, Option.getD_some, zero_ne_one]
  rfl

theorem ctx_indexed (hp : p < 16) (slot : Nat) (t : Task) (lc : Launch) : (indexed s p slot t lc).ctx (t.slotOf p) =
    { s.ctx (t.slotOf p) with launches := amod (s.ctx (t.slotOf p)).launches t.launch.toNat (takeIndices t.record) } := by
  rw [indexed, State.onTask, State.ctx_onPart, State.ctx_onCtx_same _ (slotOf_lt hp t), State.ctx_onPart]

theorem waits_indexed (hp : p < 16) (slot : Nat) (t : Task) (lc : Launch) : waits (indexed s p slot t lc) p t = waits s p t := by
  rw [waits, State.dep, ctx_indexed hp]
  rfl

theorem taskLists_onTask (hp : p < 16) (slot : Nat) (f : Task → Task) : taskLists ((s.onTask p slot f).part p) =
    (amod (s.part p).tasks slot f, (s.part p).enqs, (s.part p).queues) :=
  congrArg taskLists (State.part_onPart_same s hp _)

theorem taskLists_indexed (hp : p < 16) (slot : Nat) (t : Task) (lc : Launch) : taskLists ((indexed s p slot t lc).part p) =
    (amod (s.part p).tasks slot (fun k => { k with launch := BitVec.ofNat 32 t.launch.toNat, first := lc.nextIndex }),
      (s.part p).enqs.filter (fun n => n ≠ slot), (s.part p).queues) := by
  rw [indexed, taskLists_onTask hp, State.part_onCtx, State.part_onPart_same s hp]
  rfl

/-- R328: a task that joins a launch that is not active is refused with a TASK_LAUNCH record. -/
theorem refuseTask_spec (hp : p < 16) (ht : aget (s.part p).tasks slot = some t) :
    let u := s.refuseTask p slot t
    u.cores = s.cores ∧ (u.ctx (t.slotOf p)).frecNext = ((s.ctx (t.slotOf p)).frecNext + 1) % 64
      ∧ (u.part p).enqs = (s.part p).enqs.filter (fun n => n ≠ slot) ∧ faultRaised u (t.slotOf p) .env .taskLaunch := by
  intro u
  have hout := outsideTasks_dropTask s p slot
  have hstore : taskStore u = taskStore (taskRemoved s p slot t) := (taskStore_takeFault _ _ _ _ _ _ _).trans (taskStore_dropTask ht)
  refine ⟨?_, ?_, ?_, takeFault_raises (slotOf_lt hp t) _ _ _ _ _⟩
  · exact (State.takeFault_cores _ _ _ _ _ _ _).trans (cores_of_outsideTasks hout)
  · exact (takeFault_frecNext (slotOf_lt hp t) _ _ _ _ _).trans (by rw [ctx_of_outsideTasks hout])
  · rw [enqs_of_taskStore hstore hp]
    exact congrArg (fun l => l.2.1) (taskLists_taskRemoved hp slot t)

theorem taskLists_readyTask (hp : p < 16) (ht : aget (s.part p).tasks slot = some t) : taskLists ((s.readyTask p slot).part p) =
    (amod (s.part p).tasks slot (fun t => { t with st := .ready, readyAt := s.cycle / 2 }), (s.part p).enqs,
      (s.part p).queues.setIfInBounds (recQueue t.record) (((s.part p).queues[recQueue t.record]?).getD [] ++ [slot])) := by
  rw [taskLists_part (taskStore_of_butSluices (butSluices_readyTask ht)) hp]
  exact congrArg taskLists (State.part_onPart_same s hp _)

/-- R328, R330: a task that joins an active launch takes its unit indices, and goes BLOCKED while its WAIT counter is above 0, else READY. -/
theorem processTask_spec (hp : p < 16) (ht : aget (s.part p).tasks slot = some t) (hst : t.st = .pending) (hjoin : t.isLaunch = false)
    (hlc : aget (s.ctx (t.slotOf p)).launches t.launch.toNat = some lc) (hlive : lc.st.active = true)
    (hdec0 : tf t.record 223 1 = 0) (hdec1 : tf t.record 207 1 = 0) :
    let u := s.processTask p slot
    ∃ k, aget (u.part p).tasks slot = some k ∧ k.first = lc.nextIndex ∧ k.record = t.record
      ∧ (aget (u.ctx (t.slotOf p)).launches t.launch.toNat).map (fun l => l.nextIndex) = some (lc.nextIndex + recUnits t.record)
      ∧ (u.part p).enqs = (s.part p).enqs.filter (fun n => n ≠ slot)
      ∧ (waits s p t = true → k.st = .blocked ∧ (u.part p).queues = (s.part p).queues)
      ∧ (waits s p t = false → k.st = .ready
        ∧ (u.part p).queues[recQueue t.record]? = some (((s.part p).queues[recQueue t.record]?).getD [] ++ [slot])) := by
  intro u
  let v := indexed s p slot t lc
  have hrun : u = if waits s p t then (v.newId.2).onTask p slot fun t => { t with st := .blocked, order := v.nextId } else v.readyTask p slot := by
    rw [← waits_indexed hp slot t lc]
    exact processTask_joined ht hst hjoin hlc hlive hdec0 hdec1
  obtain ⟨hvtasks, hvlists⟩ := Prod.mk.inj (taskLists_indexed (s := s) hp slot t lc)
  obtain ⟨hvenqs, hvqueues⟩ := Prod.mk.inj hvlists
  have hvtask : aget (v.part p).tasks slot = some { t with launch := BitVec.ofNat 32 t.launch.toNat, first := lc.nextIndex } := by
    rw [hvtasks, aget_amod, if_pos rfl, ht, Option.map_some]
  have hnext : (aget (v.ctx (t.slotOf p)).launches t.launch.toNat).map (fun l => l.nextIndex) = some (lc.nextIndex + recUnits t.record) := by
    rw [ctx_indexed hp, aget_amod, if_pos rfl, hlc]
    rfl
  by_cases hw : waits s p t = true
  case pos =>
    rw [if_pos hw] at hrun
    obtain ⟨htasks, hlists⟩ := Prod.mk.inj (hrun ▸ taskLists_onTask (s := v.newId.2) hp slot fun t => { t with st := .blocked, order := v.nextId })
    obtain ⟨henqs, hqueues⟩ := Prod.mk.inj hlists
    have hk : aget (u.part p).tasks slot =
        some { t with launch := BitVec.ofNat 32 t.launch.toNat, first := lc.nextIndex, st := .blocked, order := v.nextId } := by
      rw [htasks, aget_amod, if_pos rfl]
      exact congrArg (Option.map _) hvtask
    have hctx : u.ctx (t.slotOf p) = v.ctx (t.slotOf p) := by
      rw [hrun]
      rfl
    refine ⟨_, hk, rfl, rfl, hctx ▸ hnext, henqs.trans hvenqs, fun _ => ⟨rfl, hqueues.trans hvqueues⟩, fun hn => ?_⟩
    exact absurd (hw.symm.trans hn) (by decide)
  case neg =>
    rw [if_neg hw] at hrun
    obtain ⟨htasks, hlists⟩ := Prod.mk.inj (hrun ▸ taskLists_readyTask (s := v) hp hvtask)
    obtain ⟨henqs, hqueues⟩ := Prod.mk.inj hlists
    have hk : aget (u.part p).tasks slot =
        some { t with launch := BitVec.ofNat 32 t.launch.toNat, first := lc.nextIndex, st := .ready, readyAt := v.cycle / 2 } := by
      rw [htasks, aget_amod, if_pos rfl, hvtask, Option.map_some]
    have hctx : u.ctx (t.slotOf p) = v.ctx (t.slotOf p) := by
      rw [hrun, ctx_of_outsideTasks (outsideTasks_readyTask _ _ _)]
    have hqueue : recQueue t.record < 8 := Nat.mod_lt _ (by decide)
    refine ⟨_, hk, rfl, rfl, hctx ▸ hnext, henqs.trans hvenqs, fun hy => absurd hy hw, fun _ => ⟨rfl, ?_⟩⟩
    rw [hqueues, hvqueues, Vector.getElem?_setIfInBounds_self_of_lt hqueue]

/-- R15, R324, R328: the oldest enqueued task waits for what its core sent before it, then is processed. -/
theorem evTaskProcess_eq {n : Nat} {l : List Nat} (hrp : s.rp = p) (he : (s.part p).enqs = n :: l) (ht : aget (s.part p).tasks n = some t) :
    evTaskProcess s = if s.schedWaits t.lastCore t.order then s else s.processTask p n := by
  rw [evTaskProcess, hrp, he]
  dsimp only
  rw [ht, Option.map_some, Option.getD_some]

end

/-! ### A task completes (R329) -/

/-- What a completion sequence with no counter to lower does: the task is marked, its levels and its launch are looked at, COMPLETE is raised. -/
theorem evTaskCompletionSequence_eq {t : Task} (hrp : s.rp = p) (ht : aget (s.part p).tasks s.req.n = some t) (hfin : t.finished = true)
    (hcomp : t.completed = false) (hdrained : s.taskDrained p s.req.n (t.slotOf p) = true) (hdec0 : tf t.record 223 1 = 0)
    (hdec1 : tf t.record 207 1 = 0) :
    ∃ v r, evTaskCompletionSequence s = v.raiseSluice p r ∧ r.sl = .complete ∧ r.task = some s.req.n
      ∧ taskStore v = taskStore (s.onTask p s.req.n fun t => { t with completed := true }) := by
  simp only [evTaskCompletionSequence, hrp, ht, hfin, hcomp, hdrained, Bool.not_true, Bool.or_self, Bool.false_eq_true, if_false,
    State.lower, hdec0, hdec1, Nat.reduceAdd, zero_ne_one]
  refine ⟨_, _, rfl, rfl, rfl, ?_⟩
  exact (taskStore_checkLaunch _ _ _).trans ((taskStore_markEnded _ _ _).trans (taskStore_levelMessages _ _ _))

/-- R329: a task whose units have ended and drained lowers its counters once and raises COMPLETE. -/
theorem taskCompletionSequence_spec (hp : p < 16) (hrp : s.rp = p) {t : Task} (ht : aget (s.part p).tasks s.req.n = some t) :
    ((t.finished = false ∨ t.completed = true ∨ s.taskDrained p s.req.n (t.slotOf p) = false) → exec .taskCompletionSequence s = .next s)
    ∧ (t.finished = true → t.completed = false → s.taskDrained p s.req.n (t.slotOf p) = true → tf t.record 223 1 = 0 → tf t.record 207 1 = 0 →
      ∃ u, exec .taskCompletionSequence s = .next u ∧ aget (u.part p).tasks s.req.n = some { t with completed := true }
        ∧ (u.part p).queues = (s.part p).queues ∧ ∃ r ∈ (u.part p).sluices, r.sl = .complete ∧ r.task = some s.req.n) := by
  have hrun : exec .taskCompletionSequence s = .next (evTaskCompletionSequence s) := rfl
  rw [hrun]
  refine ⟨fun hnot => congrArg _ ?_, fun hfin hcomp hdrained hdec0 hdec1 => ?_⟩
  · simp only [evTaskCompletionSequence, hrp, ht]
    rw [if_pos]
    simpa [or_assoc] using hnot
  · obtain ⟨v, r, hv, hsl, htask, hstore⟩ := evTaskCompletionSequence_eq hrp ht hfin hcomp hdrained hdec0 hdec1
    have hlists := (taskLists_part ((taskStore_of_butSluices (butSluices_raiseSluice v p r)).trans hstore) hp).trans (taskLists_onTask hp _ _)
    obtain ⟨htasks, hrest⟩ := Prod.mk.inj hlists
    refine ⟨_, rfl, ?_, ?_, ?_⟩
    · rw [hv, htasks, aget_amod, if_pos rfl, ht, Option.map_some]
    · rw [hv]
      exact congrArg Prod.snd hrest
    · rw [hv, ← htask]
      exact raiseSluice_complete hp hsl

/-! ### What reaches the scheduler (R15, R324, R328) -/

/-- R15, R324, R328: the oldest enqueued task waits for what its core sent before it, then is processed. -/
theorem taskProcess_spec (hp : p < 16) (hrp : s.rp = p) {n : Nat} {l : List Nat} {t : Task} {lc : Launch} (he : (s.part p).enqs = n :: l)
    (ht : aget (s.part p).tasks n = some t) (hst : t.st = .pending) (hjoin : t.isLaunch = false) (hsched : s.schedWaits t.lastCore t.order = false)
    (hlc : aget (s.ctx (t.slotOf p)).launches t.launch.toNat = some lc) :
    let x := 16 * p + t.ctx.toNat
    (lc.st.active = false → ∃ u, exec .taskProcess s = .next u ∧ u.cores = s.cores
      ∧ (u.ctx x).frecNext = ((s.ctx x).frecNext + 1) % 64 ∧ (u.part p).enqs = (l.filter fun m => m ≠ n)
      ∧ ∃ r ∈ (u.part p).sluices, r.sl = .fault ∧ (r.record.map fun f => f.kind) = some .taskLaunch)
    ∧ (lc.st.active = true → tf t.record 223 1 = 0 → tf t.record 207 1 = 0 →
      ∃ u k, exec .taskProcess s = .next u ∧ aget (u.part p).tasks n = some k ∧ k.first = lc.nextIndex ∧ k.record = t.record
        ∧ (aget (u.ctx x).launches t.launch.toNat).map (fun l => l.nextIndex) = some (lc.nextIndex + tf t.record 360 24)
        ∧ (u.part p).enqs = (l.filter fun m => m ≠ n)
        ∧ (tf t.record 239 1 = 1 ∧ 0 < (s.dep x (tf t.record 224 8)).count → k.st = .blocked ∧ (u.part p).queues = (s.part p).queues)
        ∧ (tf t.record 239 1 = 0 ∨ (s.dep x (tf t.record 224 8)).count ≤ 0 → k.st = .ready
          ∧ (u.part p).queues[tf t.record 337 3]? = some (((s.part p).queues[tf t.record 337 3]?).getD [] ++ [n]))) := by
  intro x
  have hrun : exec .taskProcess s = .next (s.processTask p n) := by
    show Host.Outcome.next (evTaskProcess s) = _
    rw [evTaskProcess_eq hrp he ht, hsched, if_neg Bool.false_ne_true]
  have hgone : (s.part p).enqs.filter (fun m => m ≠ n) = l.filter fun m => m ≠ n := by
    rw [he, List.filter_cons_of_neg (by simp)]
  refine ⟨fun hdead => ⟨_, hrun, ?_⟩, fun hlive hdec0 hdec1 => ?_⟩
  · rw [processTask_refused ht hst hjoin hlc hdead]
    have hdeq : (s.onPart p (dequeue n)).part p = dequeue n (s.part p) := State.part_onPart_same s hp _
    obtain ⟨hcores, hfrec, henqs, r, hr, hsl, -, hkind⟩ := refuseTask_spec (s := s.onPart p (dequeue n)) hp (by rw [hdeq]; exact ht)
    rw [slotOf_div] at hr
    refine ⟨hcores, hfrec, ?_, r, hr, hsl, hkind⟩
    rw [henqs, hdeq, ← hgone, dequeue, List.filter_filter]
    simp
  · obtain ⟨k, hk, hfirst, hrec, hnext, henqs, hblocked, hready⟩ := processTask_spec hp ht hst hjoin hlc hlive hdec0 hdec1
    refine ⟨_, k, hrun, hk, hfirst, hrec, hnext, henqs.trans hgone, fun hw => hblocked ?_, fun hw => hready ?_⟩
    · rw [waits, Bool.and_eq_true, decide_eq_true_eq, decide_eq_true_eq]
      exact hw
    · rw [waits, Bool.and_eq_false_iff, decide_eq_false_iff_not, decide_eq_false_iff_not]
      exact hw.imp (fun h => by omega) not_lt.mpr

end

/-- Settles O37: one lemma for each of the five events of the scheduler. -/
theorem schedulerTasks : Obligations.SchedulerTasks := by
  unfold Obligations.SchedulerTasks
  intro s p hreq hp
  have hrp := rp_eq hreq hp
  refine ⟨creditGrant_spec hrp, fun he => ?_, fun n l t lc he ht hst hjoin hsched hlc => taskProcess_spec hp hrp he ht hst hjoin hsched hlc,
    fun n l t he ht hw => ?_, fun d hd => (depCounterDecrement_spec hd).1, fun d hd => (depCounterDecrement_spec hd).2, fun hd => ?_,
    fun m hm => (cancelArrive_spec hm).1, fun m hm hx hlo _ => (cancelArrive_spec hm).2 hx hlo, fun t ht => taskCompletionSequence_spec hp hrp ht⟩
  · show Host.Outcome.next (evTaskProcess s) = _
    rw [evTaskProcess, hrp, he]
  · show Host.Outcome.next (evTaskProcess s) = _
    rw [evTaskProcess_eq hrp he ht, hw, if_pos rfl]
  · show Host.Outcome.next (evDepCounterDecrement s) = _
    rw [evDepCounterDecrement, hd]

end Sys2Proof.Proofs
end

section
/-!
SUPPORT. A pennant operation that is withdrawn while a completed entry stands in a send queue of the link (R298, R391).
-/

namespace Sys2Proof.Proofs

open Sys2Proof Sys2Proof.Machine Sys2Proof.Claims

/-- An acquire of band 0 of core 0, which holds no such band. -/
def orphanAcquire : PenOp := ⟨0, .band 0 0, true, false, 0, 0, none, 0, 0, 0, 0, 0, [], [], false, none, none⟩

/-- A core whose send queue 0 holds one entry, which is complete. -/
def coreSent : Core := { Core.reset with lq := #v[[{ LqCmd.zero with done := true }], [], [], []] }

/-- The device with the orphan's operation, and on core 0 a completed entry that has not left its send queue yet. -/
def orphaned : State := { State.reset.setCore 0 coreSent with pens := [orphanAcquire] }

/-- PENNANT_OPERATION_PERFORM settles the link's queues as well (R391): the completed entry leaves. -/
theorem sendQ_orphaned_performed : ((linkPennantPerformed orphaned).core 0).sendQ 0 = [] := by decide +kernel

/-- Forgetting the operation alone leaves the entry where it is. -/
theorem sendQ_orphaned_dropPen : ((orphaned.dropPen orphanAcquire.id).core 0).sendQ 0 ≠ [] := by
  have hcore : (orphaned.dropPen orphanAcquire.id).core 0 = coreSent := State.core_setCore_same State.reset (by decide) _
  rw [hcore]
  exact List.cons_ne_nil _ _

/-- Refutes O45: the clause on withdrawn operations says that only the operation goes, in every state; but the same event lets completed entries of
the link's send queues leave (R391), so where one stands completed at the head of its queue more than the operation goes. -/
theorem not_synchronizationEvents : ¬ Obligations.SynchronizationEvents := by
  unfold Obligations.SynchronizationEvents
  rintro ⟨-, hwithdrawn, -, -⟩
  obtain ⟨-, honly, -⟩ := hwithdrawn orphaned orphanAcquire rfl
  have hstate : linkPennantPerformed orphaned = orphaned.dropPen orphanAcquire.id := Host.Outcome.next.inj (honly rfl)
  exact sendQ_orphaned_dropPen (hstate ▸ sendQ_orphaned_performed)

end Sys2Proof.Proofs
end

section
/-!
SUPPORT. The reset state (R411): what each part of it reads.
-/

namespace Sys2Proof.Proofs

open Sys2Proof Sys2Proof.Machine Sys2Proof.Claims

/-- Every partition slot is empty after reset. -/
theorem part_reset (p : Nat) : State.reset.part p = Partition.reset := by
  by_cases h : p < 16 <;> simp [State.part, State.reset, h]

/-- Every context slot is empty after reset. -/
theorem ctx_reset (x : Nat) : State.reset.ctx x = Context.reset := by
  by_cases h : x < 256 <;> simp [State.ctx, State.reset, h]

/-- Every port is down and disabled after reset. -/
theorem ports_reset {p : Nat} (h : p < 16) : State.reset.ports[p]? = some Port.reset := by
  simp [State.reset, h]

/-- A store of zeros reads 0 everywhere. -/
theorem read_zero (a : Nat) : Memory.zero.read a = some 0 := by
  simp [Memory.zero, Memory.read, Memory.base, inRanges]

/-- Settles O57, field by field: the tables of the reset state hold one value throughout. -/
theorem resetState : Obligations.ResetState := by
  unfold Obligations.ResetState
  refine ⟨rfl, rfl, rfl, rfl, rfl, rfl, rfl, ?ports, ?parts, ?ctxs, ?cores, ?pkg, ?peers⟩
  case ports => intro p hp; rw [ports_reset hp]; rfl
  case parts => intro p _; rw [part_reset]; exact ⟨rfl, rfl⟩
  case ctxs => intro x _; rw [ctx_reset]; exact ⟨rfl, rfl, rfl, rfl, rfl⟩
  case cores =>
    intro c _
    rw [core_reset]
    exact ⟨rfl, rfl, rfl, rfl, rfl, rfl, rfl, fun a => ⟨read_zero a, read_zero a⟩⟩
  case pkg => exact read_zero
  case peers => intro d; exact ⟨rfl, rfl⟩

end Sys2Proof.Proofs
end

section
/-!
SUPPORT. The sequencer's CSRs (R113): which number reads what, what a write of each does, and the four access instructions in terms of both.
-/

namespace Sys2Proof.Proofs

open Sys2Proof Sys2Proof.Machine Sys2Proof.Claims

section
variable {s : State} {c : Nat} {p : Pred}

/-- The device after `v` has been written to `s` register `d`: `s0` discards it (R58). -/
def afterRead (s : State) (c : Nat) (d : BitVec 6) (v : Word) : State := if d = 0 then s else landing s c 0 (physOf s d) 4 v

theorem afterRead_cur (s : State) (c : Nat) (d : BitVec 6) (v : Word) : (afterRead s c d v).cur = s.cur := by
  unfold afterRead
  split <;> rfl

theorem ws_eq_afterRead (hcur : s.cur = .seq c) {d : BitVec 6} (hd : d ≠ 0 → noFlight s c 0 (physOf s d)) (v : Word) :
    s.ws d 4 v = afterRead s c d v := by
  unfold afterRead
  split
  case isTrue h => rw [h, State.ws_zero]
  case isFalse h => exact State.ws_eq v hcur h (hd h)

theorem onSeq_eq_seqWith (hcur : s.cur = .seq c) (f : Seq → Seq) : s.onSeq f = seqWith s c f := onSeqCore_eq hcur _

theorem csrNum_eq (s : State) (a : BitVec 6) (n : BitVec 9) : s.csrNum a n = csrOf s a n := rfl

theorem csrr_reads (hs : slotOn s c p) {d a : BitVec 6} {n : BitVec 9} (hd : d ≠ 0 → noFlight s c 0 (physOf s d)) {v : Word}
    (hv : s.seqCsr (csrOf s a n) = some v) : exec (.seqSysCsrr p d a n) s = .next (afterRead s c d v) := by
  rw [show exec _ s = execSeqSysCsrr p d a n s from rfl, execSeqSysCsrr, State.slotRun_true hs.2.2, csrNum_eq, hv]
  exact congrArg _ (ws_eq_afterRead hs.1 hd v)

theorem csrr_illegal (hs : slotOn s c p) {d a : BitVec 6} {n : BitVec 9} (hv : s.seqCsr (csrOf s a n) = none) :
    exec (.seqSysCsrr p d a n) s = .next (s.trapOn .illegalOp) := by
  rw [show exec _ s = execSeqSysCsrr p d a n s from rfl, execSeqSysCsrr, State.slotRun_true hs.2.2, csrNum_eq, hv]

theorem csrw_eq (hs : slotOn s c p) {a b : BitVec 6} {n : BitVec 9} : exec (.seqSysCsrw p a b n) s =
    .next (if csrWritable (csrOf s a n) then s.setSeqCsr (csrOf s a n) (s.rs 1 b) else s.trapOn .illegalOp) :=
  State.slotRun_true hs.2.2 fun s => if csrWritable (csrOf s a n) then s.setSeqCsr (csrOf s a n) (s.rs 1 b) else s.trapOn .illegalOp

theorem csrRmw_eq (hcur : s.cur = .seq c) {d a b : BitVec 6} {n : BitVec 9} (hd : d ≠ 0 → noFlight s c 0 (physOf s d)) {v : Word}
    (hv : s.seqCsr (csrOf s a n) = some v) (hw : csrWritable (csrOf s a n) = true) (f : Word → Word → Word) (m : Word) :
    s.csrRmw d a b n f m = (afterRead s c d v).setSeqCsr (csrOf s a n) (if csrOf s a n = 0x001 then m else f v (s.rs 1 b)) := by
  simp only [State.csrRmw, csrNum_eq, hv, hw, ws_eq_afterRead hcur hd, Bool.not_true, Bool.false_eq_true, if_false]
  rfl

/-- What SYS.CSRS and SYS.CSRC do on a CSR that may be written. -/
theorem csrs_csrc_write (hs : slotOn s c p) {d a b : BitVec 6} {n : BitVec 9} (hd : d ≠ 0 → noFlight s c 0 (physOf s d)) {v : Word}
    (hv : s.seqCsr (csrOf s a n) = some v) (hw : csrWritable (csrOf s a n) = true) :
    exec (.seqSysCsrs p d a b n) s
        = .next ((afterRead s c d v).setSeqCsr (csrOf s a n) (if csrOf s a n = 0x001 then s.rs 1 b else v ||| s.rs 1 b))
    ∧ exec (.seqSysCsrc p d a b n) s
        = .next ((afterRead s c d v).setSeqCsr (csrOf s a n) (if csrOf s a n = 0x001 then 0 else v &&& ~~~s.rs 1 b)) := by
  rw [show exec _ s = execSeqSysCsrs p d a b n s from rfl, show exec _ s = execSeqSysCsrc p d a b n s from rfl, execSeqSysCsrs, execSeqSysCsrc,
    State.slotRun_true hs.2.2, State.slotRun_true hs.2.2, csrRmw_eq hs.1 hd hv hw, csrRmw_eq hs.1 hd hv hw]
  exact ⟨rfl, rfl⟩

/-- They trap on every other number. -/
theorem csrs_csrc_illegal (hs : slotOn s c p) {d a b : BitVec 6} {n : BitVec 9} (hw : csrWritable (csrOf s a n) = false) :
    exec (.seqSysCsrs p d a b n) s = .next (s.trapOn .illegalOp) ∧ exec (.seqSysCsrc p d a b n) s = .next (s.trapOn .illegalOp) := by
  have hrmw : ∀ f m, s.csrRmw d a b n f m = s.trapOn .illegalOp := fun f m => by
    simp only [State.csrRmw, csrNum_eq, hw]
    split <;> rfl
  rw [show exec _ s = execSeqSysCsrs p d a b n s from rfl, show exec _ s = execSeqSysCsrc p d a b n s from rfl, execSeqSysCsrs, execSeqSysCsrc,
    State.slotRun_true hs.2.2, State.slotRun_true hs.2.2, hrmw, hrmw]
  exact ⟨rfl, rfl⟩

theorem seqCsr_unassigned {n : Nat} (h : n ∉ [0x000, 0x001, 0x002, 0x003, 0x010, 0x011, 0x012, 0x013, 0x014]) : s.seqCsr n = none := by
  unfold State.seqCsr
  split <;> simp_all

theorem csrWritable_iff {n : Nat} : csrWritable n = true ↔ n ∈ [0x000, 0x001, 0x010, 0x013, 0x014] := by
  simp [csrWritable, or_assoc]

theorem trapOn_eq (h : s.frame.trap = none) (k : FKind) : s.trapOn k = inFrame s { s.frame with trap := some k } := by
  simp [State.trapOn, inFrame, h]

/-- Writing back what the flag word does not clear changes nothing. -/
theorem setSeqCsr_flag_zero (s : State) : s.setSeqCsr 0x001 0 = s := by
  have hflag : ∀ w : Word, clearFlags w 0 = w := fun w => BitVec.and_allOnes
  exact onCore_id (f := fun k => { k with seq := { k.seq with flag := clearFlags k.seq.flag 0 } }) (by rw [hflag])

/-- A vector that is pending is not raised again. -/
theorem raiseVector_again {q v : Nat} (h : (s.part q).vecs.toNat.testBit v = true) (z : Option (BitVec 4)) : s.raiseVector q v z = s := if_pos h

theorem getLsbD_or_bit {m : Word} {v j : Nat} (hj : j < 64) :
    (m ||| BitVec.ofNat 64 (1 <<< v)).getLsbD j = (m.getLsbD j || decide (j = v)) := by
  rw [BitVec.getLsbD_or, BitVec.getLsbD_ofNat, Nat.one_shiftLeft, Nat.testBit_two_pow]
  simp [hj, eq_comm]

/-- What raising a vector that is not pending does. -/
theorem raiseVector_first {q v : Nat} (hq : q < 16) (h : (s.part q).vecs.toNat.testBit v = false) (z : Option (BitVec 4)) :
    s.raiseVector q v z = { s with parts := (s.raiseVector q v z).parts, msgs := s.msgs ++ [.vector q v z] }
    ∧ (∀ r, r ≠ q → (s.raiseVector q v z).part r = s.part r)
    ∧ ∃ m, (s.raiseVector q v z).part q = { s.part q with vecs := m }
        ∧ ∀ j < 64, m.getLsbD j = ((s.part q).vecs.getLsbD j || decide (j = v)) := by
  have he : s.raiseVector q v z = (s.onPart q fun k => { k with vecs := k.vecs ||| BitVec.ofNat 64 (1 <<< v) }).tell (.vector q v z) :=
    if_neg (by simp [h])
  have hpart : ∀ r, (s.raiseVector q v z).part r = (s.onPart q fun k => { k with vecs := k.vecs ||| BitVec.ofNat 64 (1 <<< v) }).part r :=
    fun r => by rw [he]; rfl
  refine ⟨by rw [he]; rfl, fun r hr => ?_, (s.part q).vecs ||| BitVec.ofNat 64 (1 <<< v), ?_, fun j hj => getLsbD_or_bit hj⟩
  · rw [hpart, State.part_onPart_ne _ hr]
  · rw [hpart, State.part_onPart_same _ hq]

theorem sysInt_eq (hs : slotOn s c p) (a : BitVec 6) : exec (.seqSysInt p a) s =
    .next (if 63 < (s.rs 0 a).toNat || (s.rs 0 a).toNat < 16 then s.faultOn .sysArg
      else s.raiseVector (s.preCore.unitCtx / 16) (s.rs 0 a).toNat (some (BitVec.ofNat 4 s.preCore.unitCtx))) := by
  rw [show exec _ s = execSeqSysInt p a s from rfl, execSeqSysInt, State.slotRun_true hs.2.2]

end

/-- Settles O10: the read of each CSR is one landing, the write one change of the sequencer, and a number outside the two tables traps. -/
theorem seqSystemRegisters : Obligations.SeqSystemRegisters := by
  intro p d a b n s c hs
  refine ⟨?reads, ?coreId, ?_, ?_, ?_, ?_, ?_, ?both, ?illegal, ?int⟩
  case reads =>
    intro r hr hn
    have hv : s.seqCsr (csrOf s a n) = some r.2 := by
      rw [hn]
      simp only [List.mem_cons, List.not_mem_nil, or_false] at hr
      rcases hr with rfl | rfl | rfl | rfl | rfl | rfl | rfl | rfl <;> rfl
    refine ⟨fun h => ?_, fun h hd => ?_⟩
    · rw [csrr_reads hs (fun h' => absurd h h') hv, afterRead, if_pos h]
    · rw [csrr_reads hs (fun _ => hd) hv, afterRead, if_neg h]
  case coreId =>
    intro hn h hd u hu
    have hv : s.seqCsr (csrOf s a n) = some (BitVec.ofNat 64 (c ||| u.part.toNat <<< 16 ||| (u.ctx.toNat % 16) <<< 20)) := by
      rw [hn]
      simp only [State.seqCsr, hu, State.seqId_eq hs.1]
    rw [csrr_reads hs (fun _ => hd) hv, afterRead, if_neg h]
  case both =>
    intro hd got
    have hcur : ∀ w, (afterRead s c d w).cur = .seq c := fun w => (afterRead_cur s c d w).trans hs.1
    refine ⟨fun hn => ?_, fun hn => ?_, fun hn => ?_, fun hn => ?_, fun hn => ?_⟩
    all_goals
      obtain ⟨hset, hclear⟩ := csrs_csrc_write (b := b) hs hd (by rw [hn]; rfl) (by rw [hn]; rfl)
      rw [hset, hclear, hn]
      refine ⟨congrArg _ (onSeq_eq_seqWith (hcur _) _), congrArg _ ?_⟩
    case refine_2 => exact setSeqCsr_flag_zero _
    all_goals exact onSeq_eq_seqWith (hcur _) _
  case illegal =>
    intro hf illegal
    refine ⟨fun hn => ?_, fun hn => ?_⟩
    · rw [csrr_illegal hs (seqCsr_unassigned hn), trapOn_eq hf]
    · have hw : csrWritable (csrOf s a n) = false := Bool.eq_false_iff.mpr fun h => hn (csrWritable_iff.mp h)
      rw [csrw_eq hs, if_neg (by simp [hw]), show illegal = s.trapOn .illegalOp from (trapOn_eq hf _).symm]
      exact ⟨rfl, csrs_csrc_illegal hs hw⟩
  case int =>
    intro w x old
    refine ⟨fun hlo hhi hx => ?_, fun h hf => ?_⟩
    · rw [sysInt_eq hs, if_neg (by simp only [Bool.or_eq_true, decide_eq_true_eq]; omega)]
      refine ⟨fun h => by rw [raiseVector_again h], fun h => ⟨_, rfl, raiseVector_first (by omega) h _⟩⟩
    · rw [sysInt_eq hs, if_pos (by simp only [Bool.or_eq_true, decide_eq_true_eq]; omega), faultOn_eq hf]
      rfl
  all_goals
    intro hn
    rw [csrw_eq hs, if_pos (by rw [hn]; rfl), hn]
    exact congrArg _ (onSeq_eq_seqWith hs.1 _)

end Sys2Proof.Proofs
end

section
/-!
SUPPORT. Waits, checks, traps and marks of slots A, B and D (R115, R142, R143, R177).
-/

namespace Sys2Proof.Proofs

open Sys2Proof Sys2Proof.Machine Sys2Proof.Claims

section
variable {s : State} {c : Nat} {p : Pred}

theorem stallOn_eq (h : s.frame.stall = none) (w : Stall) : s.stallOn w = { s with frame := { s.frame with stall := some w } } := by
  simp [State.stallOn, h]

/-- A wait whose condition holds goes on, and stalls the bundle else (R177). -/
theorem wait_spec {q : Prop} [Decidable q] {i : Instr} (hi : exec i s = .next (if q then s else s.stallOn .twait)) :
    (q → exec i s = .next s)
    ∧ (¬ q → s.frame.stall = none → exec i s = .next { s with frame := { s.frame with stall := some .twait } }) :=
  ⟨fun h => by rw [hi, if_pos h], fun h hf => by rw [hi, if_neg h, stallOn_eq hf]⟩

theorem twaitState_eq (hs : slotOn s c p) (n : BitVec 6) (mask : BitVec 7) : exec (.seqTwaitState p n mask) s =
    .next (if mask.getLsbD (s.preCore.entry n.toNat).st.bit = true then s else s.stallOn .twait) :=
  State.slotRun_true hs.2.2 fun s => if mask.getLsbD (s.preCore.entry n.toNat).st.bit then s else s.stallOn .twait

theorem twaitAll_eq (hs : slotOn s c p) : exec (.seqTwaitAll p) s = .next (if s.preCore.invs = [] then s else s.stallOn .twait) := by
  rw [show exec _ s = execSeqTwaitAll p s from rfl, execSeqTwaitAll, State.slotRun_true hs.2.2]
  simp only [List.isEmpty_iff]

theorem twaitCh_eq (hs : slotOn s c p) (ch : BitVec 2) :
    exec (.seqTwaitCh p ch) s = .next (if s.preCore.chan ch.toNat = [] then s else s.stallOn .twait) := by
  rw [show exec _ s = execSeqTwaitCh p ch s from rfl, execSeqTwaitCh, State.slotRun_true hs.2.2]
  simp only [List.isEmpty_iff]

theorem chk_eq (hs : slotOn s c p) (a b : BitVec 6) :
    exec (.seqChk p a b) s = .next (if s.rs 0 a ≠ s.rs 1 b then s.trapOn .chkMismatch else s) :=
  State.slotRun_true hs.2.2 fun s => if s.rs 0 a ≠ s.rs 1 b then s.trapOn .chkMismatch else s

theorem trap_eq (hs : slotOn s c p) (imm : BitVec 32) : exec (.seqTrap p imm) s = .next (s.faultOn .trap (imm.setWidth 64)) :=
  State.slotRun_true hs.2.2 fun s => s.faultOn .trap (imm.setWidth 64)

/-! ### MARK -/

/-- The header of a drift record: its kind stands below everything else, in 64 bits (R394). -/
theorem driftHeader (s : State) (c : Nat) {x : Nat} (hx : x < 256) :
    s.traceHeader c x 0 0 2 false < 2 ^ 64 ∧ s.traceHeader c x 0 0 2 false % 2 ^ 10 = 2 := by
  have h : s.traceHeader c x 0 0 2 false
      = 2 + (c % 64) * 2 ^ 18 + (x / 16) * 2 ^ 24 + (x % 16) * 2 ^ 28 + (s.cycle % 2 ^ 32) * 2 ^ 32 := by
    rw [State.traceHeader, ← or_shiftLeft _ (by omega), ← or_shiftLeft _ (by omega), ← or_shiftLeft _ (by omega), ← or_shiftLeft _ (by omega)]
    rfl
  omega

/-- The fields of a record whose words are put beside each other. -/
theorem recordFields {w pc imm a d : Nat} (hw : w < 2 ^ 64) (hpc : pc < 2 ^ 64) (himm : imm < 2 ^ 32) (ha : a < 2 ^ 32) (hd : d < 2 ^ 32) :
    let r := BitVec.ofNat 512 (w ||| pc <<< 64 ||| imm <<< 128 ||| a <<< 160 ||| d <<< 192)
    bf r.toNat 128 32 = imm ∧ bf r.toNat 0 10 = w % 2 ^ 10 := by
  intro r
  have hr : r.toNat = w + pc * 2 ^ 64 + imm * 2 ^ 128 + a * 2 ^ 160 + d * 2 ^ 192 := by
    rw [BitVec.toNat_ofNat, or_shiftLeft pc hw, or_shiftLeft imm (by omega), or_shiftLeft a (by omega), or_shiftLeft d (by omega)]
    exact Nat.mod_eq_of_lt (by omega)
  rw [hr]
  simp only [bf, Nat.shiftRight_eq_div_pow]
  omega

theorem unitCtx_lt (k : Core) : k.unitCtx < 256 := by
  unfold Core.unitCtx
  split
  · simp only [ctxSlot]
    omega
  · decide

theorem int_emod_toNat_lt (z : Int) : (z % 2 ^ 32).toNat < 2 ^ 32 := by omega

/-- A record stands where the ring's index pointed, and the index goes on (R393). -/
theorem trace_spec (s : State) (hc : c < 64) (r : BitVec 512) :
    aget ((s.trace c r).core c).watch.recs (s.core c).watch.tidx = some r
    ∧ ((s.trace c r).core c).watch.tidx = ((s.core c).watch.tidx + 1) % 2048
    ∧ ((s.trace c r).core c).seq = (s.core c).seq := by
  rw [State.trace, State.onWatch, State.core_onCore_same _ hc]
  exact ⟨aget_aput_same _ _ _, rfl, rfl⟩

/-- A change of core `c` after another one leaves the rest of the device alone as well. -/
theorem outside_then_onCore {t : State} (h : outside s t c) (f : Core → Core) : outside s (t.onCore c f) c :=
  ⟨h.1, fun _ he => (State.core_onCore_ne _ he f).trans (h.2 _ he)⟩

/-- R143: a MARK while drift logging is on writes one record and changes nothing else but the interlock trigger. -/
theorem mark_records (hs : slotOn s c p) (imm : BitVec 32) (hdrift : s.preCore.watch.drift = true) :
    ∃ t r, exec (.seqMark p imm) s = .next t
        ∧ aget (t.core c).watch.recs (s.core c).watch.tidx = some r ∧ outside s t c
        ∧ (t.core c).watch.tidx = ((s.core c).watch.tidx + 1) % 2048 ∧ bf r.toNat 128 32 = imm.toNat ∧ bf r.toNat 0 10 = 2
        ∧ (t.core c).seq = (s.core c).seq := by
  obtain ⟨hcur, hc, hp⟩ := hs
  rw [show exec _ s = execSeqMark p imm s from rfl, execSeqMark, State.slotRun_true hp, State.mark, State.seqId_eq hcur]
  extract_lets actual d w t
  rw [if_neg (by simp [hdrift])]
  obtain ⟨hhead, hkind⟩ := driftHeader s c (unitCtx_lt s.preCore)
  obtain ⟨himm, hkind'⟩ := recordFields hhead s.preCore.seq.pc.isLt imm.isLt (int_emod_toNat_lt actual) (int_emod_toNat_lt d)
  obtain ⟨hrec, hidx, hseq⟩ := trace_spec s hc (BitVec.ofNat 512 (w ||| s.preCore.seq.pc.toNat <<< 64 ||| imm.toNat <<< 128
    ||| (actual % 2 ^ 32).toNat <<< 160 ||| (d % 2 ^ 32).toNat <<< 192))
  have hout : outside s t c := outside_onCore (s := s) _ _
  refine ⟨_, _, rfl, ?_, ?_, ?_, himm, hkind'.trans hkind, ?_⟩
  case refine_2 => split; exacts [outside_then_onCore hout _, hout]
  all_goals
    split
    case isTrue =>
      rw [State.onWatch, State.core_onCore_same _ hc]
      assumption
    case isFalse => assumption

/-- R142, R143, R115, R177. -/
theorem seqWaitsChecksTraps : SeqWaitsChecksTraps := by
  intro p n a b mask ch imm s c hs
  obtain ⟨hstate, hstate'⟩ := wait_spec (twaitState_eq hs n mask)
  obtain ⟨hall, hall'⟩ := wait_spec (twaitAll_eq hs)
  obtain ⟨hchan, hchan'⟩ := wait_spec (twaitCh_eq hs ch)
  refine ⟨fun h => ?_, fun h hf => ?_, hstate, hall, hchan, fun hf => ⟨fun h => hstate' (by simp [h]) hf, fun h => hall' h hf, fun h => hchan' h hf⟩,
    fun hf => ?_, fun h => ?_, mark_records hs imm⟩
  · rw [chk_eq hs, if_neg (by simp [h])]
  · rw [chk_eq hs, if_pos h, trapOn_eq hf]
    rfl
  · rw [trap_eq hs, faultOn_eq hf, BitVec.ofNat_toNat]
  · rw [show exec _ s = execSeqMark p imm s from rfl, execSeqMark, State.slotRun_true hs.2.2, State.mark]
    simp [h]

end

end Sys2Proof.Proofs
end

section
/-!
SUPPORT. LAUNCH, TENQ, DDEC and DDEC.CANCEL in slot D (R324 to R326, R333).
-/

namespace Sys2Proof.Proofs

open Sys2Proof Sys2Proof.Machine Sys2Proof.Claims

section
variable {s : State} {c : Nat} {p : Pred}

/-- The instruction that issues a task record. -/
def taskInstr (p : Pred) (a : BitVec 6) (n : BitVec 4) (launch : Bool) : Instr := if launch then .seqLaunch p a false n else .seqTenq p a false n

theorem taskInstr_eq (hs : slotOn s c p) (a : BitVec 6) (n : BitVec 4) (launch : Bool) :
    exec (taskInstr p a n launch) s = .next (s.issueTask a false n launch) := by
  cases launch
  · exact State.slotRun_true hs.2.2 fun s => s.issueTask a false n false
  · exact State.slotRun_true hs.2.2 fun s => s.issueTask a false n true

/-- R325: a record that may be enqueued waits for a credit. -/
theorem issueTask_valid {a : BitVec 6} {n : BitVec 4} {launch : Bool} (hal : (s.rs 0 a).toNat % 64 = 0) (hle : (s.rs 0 a).toNat + 64 ≤ 0x10000)
    (hr : recValid (BitVec.ofNat 512 (natOfBytes (s.scalarBytes s.preCore (s.rs 0 a).toNat 64))) launch (s.ctx s.preCore.unitCtx).cores = true) :
    s.issueTask a false n launch = if s.preCore.credits = 0 then s.stallOn .store
      else s.enqueue s.seqId s.preCore.unitCtx (BitVec.ofNat 512 (natOfBytes (s.scalarBytes s.preCore (s.rs 0 a).toNat 64))) launch
        ((s.preCore.unit.map fun u => u.launch).getD 0) := by
  rw [State.issueTask]
  dsimp only
  rw [if_neg (by simp only [Bool.or_eq_true, decide_eq_true_eq]; omega), if_neg (by simp [hr])]
  rfl

/-- The task that an enqueued record becomes. -/
def enqueuedTask (s : State) (c x : Nat) (r : BitVec 512) (launch : Bool) (lid : BitVec 32) : Task :=
  { slot := (s.part (x / 16)).freeTaskSlot, ctx := BitVec.ofNat 4 x, record := r, isLaunch := launch, st := .pending,
    launch := if launch then 0 else if tf r 288 32 = 0 then lid else BitVec.ofNat 32 (tf r 288 32), first := 0, placed := 0, ended := [],
    lastCore := c, readyAt := 0, order := s.nextId, deadUnits := [], degraded := false, completed := false }

theorem enqueue_eq (s : State) (c x : Nat) (r : BitVec 512) (launch : Bool) (lid : BitVec 32) : s.enqueue c x r launch lid =
    ((bumpId s).onCore c fun k => { k with credits := k.credits - 1 }).onPart (x / 16) fun q =>
      { q with tasks := aput q.tasks (enqueuedTask s c x r launch lid).slot (enqueuedTask s c x r launch lid),
               enqs := q.enqs ++ [(enqueuedTask s c x r launch lid).slot] } := rfl

/-- R324, R325: what the enqueue of a record leaves. -/
theorem enqueue_spec (hc : c < 64) {x : Nat} (hx : x < 256) (r : BitVec 512) (launch : Bool) (lid : BitVec 32) :
    ∃ k, ((s.enqueue c x r launch lid).core c).credits = (s.core c).credits - 1
      ∧ ((s.enqueue c x r launch lid).core c).seq = (s.core c).seq
      ∧ aget ((s.enqueue c x r launch lid).part (x / 16)).tasks k.slot = some k
      ∧ ((s.enqueue c x r launch lid).part (x / 16)).enqs = (s.part (x / 16)).enqs ++ [k.slot]
      ∧ k.record = r ∧ k.isLaunch = launch ∧ k.st = .pending ∧ k.ctx.toNat = x % 16 ∧ (s.enqueue c x r launch lid).ctxs = s.ctxs
      ∧ memSame s (s.enqueue c x r launch lid) := by
  have hcore : (s.enqueue c x r launch lid).core c = { s.core c with credits := (s.core c).credits - 1 } := by
    rw [enqueue_eq, State.core_onPart, State.core_onCore_same _ hc, bumpId_core]
  have hpart := State.part_onPart_same ((bumpId s).onCore c fun k => { k with credits := k.credits - 1 }) (show x / 16 < 16 by omega)
    fun q => { q with tasks := aput q.tasks (enqueuedTask s c x r launch lid).slot (enqueuedTask s c x r launch lid),
                      enqs := q.enqs ++ [(enqueuedTask s c x r launch lid).slot] }
  rw [← enqueue_eq] at hpart
  refine ⟨enqueuedTask s c x r launch lid, by rw [hcore], by rw [hcore], ?_, ?_, rfl, rfl, rfl, BitVec.toNat_ofNat x 4, rfl, fun _ => rfl⟩
  · rw [hpart]
    exact aget_aput_same _ _ _
  · rw [hpart]
    rfl

theorem ddec_eq (hs : slotOn s c p) (a b : BitVec 6) (scope : BitVec 3) : exec (.seqDdec p a b scope) s =
    .next (if scope.toNat < 2 || 4 < scope.toNat || !ddecOk (s.rs 0 a) (s.rs 1 b) then s.faultOn .depArg
      else s.sendDec c s.preCore.unitCtx (s.rs 0 a).toNat (s.rs 1 b).toInt) := by
  rw [show exec _ s = execSeqDdec p a b scope s from rfl, execSeqDdec, State.slotRun_true hs.2.2, State.seqId_eq hs.1]

theorem ddecOk_of {k n : Word} (hk : k.toNat < 256) (hlo : -2 ^ 31 ≤ n.toInt) (hhi : n.toInt < 2 ^ 31) : ddecOk k n = true := by
  simp only [ddecOk, decide_eq_true hk, decide_eq_true hlo, decide_eq_true hhi, Bool.and_self]

theorem cancel_eq (hs : slotOn s c p) (a : BitVec 6) (level : BitVec 3) {o : Option CancelMsg}
    (ho : cancelOf s.preCore.unitCtx level.toNat (s.rs 0 a) ((s.preCore.unit.map fun u => u.launch.toNat).getD 0) = o) :
    exec (.seqDdecCancel p a level) s = .next ((o.map (s.sendCancel c)).getD (s.faultOn .depArg)) := by
  rw [show exec _ s = execSeqDdecCancel p a level s from rfl, execSeqDdecCancel, State.slotRun_true hs.2.2, State.seqId_eq hs.1, ho]
  cases o <;> rfl

/-- The counters 1 to 63 are what level 4 names (R333). -/
theorem cancelOf_counter (x : Nat) (w : Word) (l : Nat) : cancelOf x 4 w l = if w ≠ 0 && w.toNat < 64 then some ⟨0, 0, x, 4, w.toNat, 0⟩ else none := rfl

/-- R324, R325, R326, R333. -/
theorem seqTaskInstructions : SeqTaskInstructions := by
  intro p a b n scope level launch s c hs
  refine ⟨?tasks, ?ddec, fun hl hne hlt => ?_, fun hl hz hf => ?_⟩
  case tasks =>
    intro hal hle r x i hr
    have hi : exec i s = .next (s.issueTask a false n launch) := taskInstr_eq hs a n launch
    rw [issueTask_valid hal hle hr] at hi
    refine ⟨fun hcr hx => ?_, fun hcr hf => ?_⟩
    · rw [if_neg hcr, State.seqId_eq hs.1] at hi
      obtain ⟨k, hk⟩ := enqueue_spec (s := s) hs.2.1 hx r launch ((s.preCore.unit.map fun u => u.launch).getD 0)
      exact ⟨_, k, hi, hk⟩
    · rw [hi, if_pos hcr, stallOn_eq hf]
  case ddec =>
    intro hlo hhi hk hn hn'
    have hok : (decide (scope.toNat < 2) || decide (4 < scope.toNat) || !ddecOk (s.rs 0 a) (s.rs 1 b)) = false := by
      rw [ddecOk_of hk hn hn', decide_eq_false (by omega), decide_eq_false (by omega)]
      rfl
    rw [ddec_eq hs, if_neg (by rw [hok]; decide)]
    rfl
  · subst hl
    rw [cancel_eq hs a 4 ((cancelOf_counter _ _ _).trans (if_pos (by simp [hlt]; exact hne)))]
    rfl
  · subst hl
    rw [cancel_eq hs a 4 ((cancelOf_counter _ _ _).trans (if_neg (by simp [hz]))), faultOn_eq hf]
    rfl

end

/-- Settles O13: slot by slot, what the instruction's condition decides between. -/
theorem seqWaitsAndTasks : Obligations.SeqWaitsAndTasks := ⟨seqWaitsChecksTraps, seqTaskInstructions⟩

end Sys2Proof.Proofs
end

section
/-!
SUPPORT. A band's instruction without `q` operands: what it acts on (R78, R80, R82), the updates of the acting band, and what leaves other
bands alone.
-/

namespace Sys2Proof.Proofs

open Sys2Proof Sys2Proof.Machine Sys2Proof.Claims

/-! ### Changes of one band -/

theorem amod_amod {α : Type} (l : List (Nat × α)) (n : Nat) (f g : α → α) : amod (amod l n f) n g = amod l n fun x => g (f x) := by
  induction l with
  | nil => rfl
  | cons e t ih =>
    by_cases h : n = e.1
    · simp [amod, h]
    · simpa [amod, h] using ih

theorem onBand_onBand (s : State) {c : Nat} (hc : c < 64) (n : Nat) (f g : Band → Band) :
    (s.onBand c n f).onBand c n g = s.onBand c n fun b => g (f b) := by
  simp only [State.onBand]
  rw [onCore_onCore hc]
  simp only [amod_amod]

/-- What a change does at a key depends on the entry that stands there. -/
theorem amod_congr {α : Type} {l : List (Nat × α)} {n : Nat} {x : α} (hx : aget l n = some x) {f g : α → α} (h : f x = g x) :
    amod l n f = amod l n g := by
  induction l with
  | nil => rfl
  | cons e t ih =>
    by_cases hn : n = e.1
    · have he : e.2 = x := by simpa [aget, hn] using hx
      simp [amod, hn, he, h]
    · have ht : aget t n = some x := by simpa [aget, hn] using hx
      simp [amod, hn, ih ht]

theorem onBand_congr {s : State} {c n : Nat} {b : Band} (hb : s.band c n = some b) {f g : Band → Band} (h : f b = g b) : 
    s.onBand c n f = s.onBand c n g := by
  simp only [State.onBand, State.onCore]
  rw [amod_congr (show aget (s.core c).bands n = some b from hb) h]

theorem onlyBand_onBand {s : State} {c n : Nat} {b : Band} (hc : c < 64) (hb : s.band c n = some b) (f : Band → Band) :
    onlyBand s (s.onBand c n f) c n (f b) := by
  refine ⟨rfl, fun e he => State.core_onCore_ne s he _, ?_, ?_, fun m hm => State.band_onBand_ne s hc hm f⟩
  · rw [State.onBand, State.core_onCore_same s hc]
  · rw [State.band_onBand_same s hc, hb]
    rfl

/-! ### Who takes part -/

section
variable {v : Band} {h : LHdr}

theorem getLsbD_allStrands {st : Nat} (hst : st < 64) : allStrands.getLsbD st = true := by
  rw [show allStrands = BitVec.allOnes 64 from rfl, BitVec.getLsbD_allOnes]
  exact decide_eq_true hst

theorem getLsbD_pmask {i st : Nat} (hst : st < 64) : (v.pmask i).getLsbD st = if i < 7 then ((v.p[i]?).getD 0).getLsbD st else true := by
  unfold Band.pmask
  split
  · rfl
  · exact getLsbD_allStrands hst

theorem bpbit_eq {i : Nat} (hi : i < 8) : v.bpbit i = if i = 7 then true else v.bp.getLsbD i := by
  unfold Band.bpbit
  rw [Nat.mod_eq_of_lt hi]
  by_cases h : i = 7 <;> simp [h]

theorem getLsbD_predMask {st : Nat} (hst : st < 64) : (v.predMask h).getLsbD st = predAt v h st := by
  have hn : h.pred.toNat < 16 := h.pred.isLt
  have hneg : ∀ w : Word, (if h.neg then ~~~w else w).getLsbD st = (w.getLsbD st != h.neg) := by
    intro w
    cases h.neg <;> simp [hst]
  simp only [Band.predMask, predAt, hneg]
  congr 1
  by_cases h8 : h.pred.toNat < 8
  · rw [if_pos h8, getLsbD_pmask hst]
    by_cases h7 : h.pred.toNat < 7
    · rw [if_pos h7, if_pos h7]
    · rw [if_neg h7, if_neg h7, if_pos (by omega)]
  · rw [if_neg h8, if_neg (show ¬ h.pred.toNat < 7 by omega), bpbit_eq (by omega)]
    by_cases h15 : h.pred.toNat = 15
    · rw [if_pos (show h.pred.toNat - 8 = 7 by omega), if_pos rfl, if_pos (.inr h15), getLsbD_allStrands hst]
    · rw [if_neg (show ¬ h.pred.toNat - 8 = 7 by omega), if_neg (show ¬ (h.pred.toNat = 7 ∨ h.pred.toNat = 15) by omega)]
      cases v.bp.getLsbD (h.pred.toNat - 8)
      · simp
      · rw [if_pos rfl, getLsbD_allStrands hst]

theorem getLsbD_part1 {st : Nat} (hst : st < 64) : (v.part1 h).getLsbD st = true ↔ takes v h st := by
  simp only [Band.part1, takes, hst, true_and]
  cases v.unfinished with
  | none => simp only [BitVec.getLsbD_and, Bool.and_eq_true, getLsbD_predMask hst]
  | some u => simp only [BitVec.getLsbD_and, Bool.and_eq_true]

theorem part1_eq {m : Word} (hm : taking v h m) : v.part1 h = m :=
  BitVec.eq_of_getLsbD_eq fun st hst => Bool.eq_iff_iff.mpr ((getLsbD_part1 hst).trans (hm st hst).symm)

theorem takes_iff_mem {m : Word} (hm : taking v h m) (st : Nat) : takes v h st ↔ st ∈ strands m := by
  rw [strands, mem_bitsOf]
  exact ⟨fun ht => ⟨ht.1, (hm st ht.1).mpr ht⟩, fun ⟨hlt, hb⟩ => (hm st hlt).mp hb⟩

theorem ne_zero_iff {m : Word} : m ≠ 0 ↔ ∃ st < 64, m.getLsbD st = true := by
  refine ⟨fun h => ?_, fun ⟨st, _, hb⟩ hz => by simp [hz] at hb⟩
  by_contra hno
  push Not at hno
  exact h (BitVec.eq_of_getLsbD_eq fun st hst => by simpa using hno st hst)

theorem ne_zero_iff_takes {m : Word} (hm : taking v h m) : m ≠ 0 ↔ ∃ st, takes v h st :=
  ne_zero_iff.trans ⟨fun ⟨st, hlt, hb⟩ => ⟨st, (hm st hlt).mp hb⟩, fun ⟨st, ht⟩ => ⟨st, ht.1, (hm st ht.1).mpr ht⟩⟩

/-- A band predicate, or `p7`, is the same in every strand. -/
theorem predAt_uniform (hp : 7 ≤ h.pred.toNat) (st : Nat) : predAt v h st = predAt v h 0 := by
  simp only [predAt, if_neg (not_lt.mpr hp)]

theorem actsOnce_iff : v.actsOnce h = true ↔ once v h := by
  have hpart : v.part1 h ≠ 0 ↔ ∃ st, takes v h st := ne_zero_iff_takes fun st hst => getLsbD_part1 hst
  have hpred (hp : 7 ≤ h.pred.toNat) : v.predMask h ≠ 0 ↔ predAt v h 0 = true := by
    refine ne_zero_iff.trans ⟨fun ⟨st, hlt, hb⟩ => ?_, fun hb => ⟨0, by decide, (getLsbD_predMask (by decide)).trans hb⟩⟩
    rwa [getLsbD_predMask hlt, predAt_uniform hp] at hb
  simp only [Band.actsOnce, bandPred, once, Bool.or_eq_true, Bool.and_eq_true, decide_eq_true_eq, hpart]
  exact or_congr_right (and_congr_right hpred)

end

/-! ### The acting band -/

section
variable {s : State} {c n : Nat} {b v : Band} {h : LHdr} {m : Word}

theorem laneId_eq (hl : laneOn s c n b v) : s.laneId = (c, n) := by rw [State.laneId, hl.1]

theorem laneBand_eq (hl : laneOn s c n b v) : s.laneBand = some b := by rw [State.laneBand, laneId_eq hl, hl.2.2.1]

theorem laneView_eq (hl : laneOn s c n b v) : s.laneView b = v := hl.2.2.2.1.symm

theorem onLane_eq (hl : laneOn s c n b v) (f : Band → Band) : s.onLane f = s.onBand c n f := by rw [State.onLane, laneId_eq hl]

theorem laneNext_eq (hcur : s.cur = .band c n) : s.laneNext = s.onBand c n goes := by
  simp only [State.laneNext, State.onLane, State.laneId, hcur, Bool.or_eq_true, decide_eq_true_eq]
  rfl

theorem onLane_laneNext (hl : laneOn s c n b v) (f : Band → Band) : (s.onLane f).laneNext = s.onBand c n fun b => goes (f b) := by
  rw [onLane_eq hl, laneNext_eq (s := s.onBand c n f) hl.1, onBand_onBand s hl.2.1]

theorem laneFault_eq (hl : laneOn s c n b v) (k : FKind) (m va pte : Word) : s.laneFault k m va pte = s.bandFault c n k m va pte := by
  rw [State.laneFault, laneId_eq hl]

theorem onLane_id {f : Band → Band} (hf : ∀ b, f b = b) : s.onLane f = s := by
  have hmod : ∀ (l : List (Nat × Band)) n, amod l n f = l := by
    intro l n
    induction l with
    | nil => rfl
    | cons e t ih => by_cases h : n = e.1 <;> simp [amod, hf, ih]
  exact onCore_id (f := fun k => { k with bands := amod k.bands s.laneId.2 f }) (by rw [hmod])

/-- An instruction whose registers are in range and await nothing has its effect at once. -/
theorem laneGo_ready {regs : List (BitVec 8 × Nat)} (hl : laneOn s c n b v) (hm : taking v h m)
    (hregs : ∀ r ∈ regs, byteV r.1 = true → r.1.toNat + r.2 ≤ v.vregs ∧ ∀ k < r.2, b.pending (r.1.toNat + k) = false)
    (f : State → Band → Word → List (Nat × List Word) → State) : s.laneGo h regs [] none f = f s v m [] := by
  have hrange : (regs.any fun r => byteV r.1 && decide (v.vregs < r.1.toNat + r.2)) = false := by
    rw [List.any_eq_false]
    intro r hr hbad
    rw [Bool.and_eq_true, decide_eq_true_eq] at hbad
    exact absurd (hregs r hr hbad.1).1 (by omega)
  have hpend : (regs.any fun r => byteV r.1 && (List.range r.2).any fun k => b.pending (r.1.toNat + k)) = false := by
    rw [List.any_eq_false]
    intro r hr hbad
    rw [Bool.and_eq_true, List.any_eq_true] at hbad
    obtain ⟨hv, k, hk, hpk⟩ := hbad
    exact absurd hpk (by simp [(hregs r hr hv).2 k (List.mem_range.mp hk)])
  have hpop : s.popAll [] = s := by rw [State.popAll]
  simp only [State.laneGo, laneBand_eq hl, laneView_eq hl, hrange, Bool.false_eq_true, ↓reduceIte,
    List.filter_nil, List.map_nil, List.any_nil, Option.toList_none, Bool.or_self, hpend, hl.2.2.2.2, List.isEmpty_nil,
    Bool.and_true, part1_eq hm, BitVec.ofNat_eq_ofNat, List.length_nil, List.range_zero, List.zip_nil_right, hpop,
    Option.getD_some, List.filter_false, lt_self_iff_false, Bool.not_true, Bool.false_and, Bool.not_false,
    List.filter_true, ite_eq_left_iff]
  exact fun _ => congrArg (f · v m []) (onLane_id fun _ => rfl)

/-- An instruction without operands has its effect at once. -/
theorem laneGo_bare (hl : laneOn s c n b v) (hm : taking v h m) (f : State → Band → Word → List (Nat × List Word) → State) :
    s.laneGo h [] [] none f = f s v m [] := laneGo_ready hl hm (by simp) f

/-- One `v` or `b` operand that is ready. -/
theorem laneGo_one {x : BitVec 8} (hl : laneOn s c n b v) (hm : taking v h m) (hx : ready1 b v x)
    (f : State → Band → Word → List (Nat × List Word) → State) : s.laneGo h [(x, 1)] [] none f = f s v m [] := by
  refine laneGo_ready hl hm (fun r hr hv => ?_) f
  rw [List.mem_singleton.mp hr] at hv ⊢
  obtain ⟨hlt, hpend⟩ := hx.2 hv
  exact ⟨hlt, fun k hk => by rw [Nat.lt_one_iff.mp hk]; exact hpend⟩

end

/-! ### The states of waiting bands (R318) -/

/-- A band after its waiting at a barrier has been looked at again: nothing but WAITING and HELD have changed places. -/
def heldAnew (b b' : Band) : Prop :=
  b' = b ∨ (b.st = .waiting ∧ b' = { b with st := .held }) ∨ (b.st = .held ∧ b' = { b with st := .waiting })

/-- A core after the same: its bands change each for itself, under their numbers. -/
def coreHeldAnew (k j : Core) : Prop :=
  ∃ g : Nat × Band → Nat × Band, j = { k with bands := k.bands.map g } ∧ ∀ e, (g e).1 = e.1 ∧ heldAnew e.2 (g e).2

theorem coreHeldAnew_refl (k : Core) : coreHeldAnew k k := ⟨id, by simp, fun _ => ⟨rfl, .inl rfl⟩⟩

theorem heldAnew_trans {b b' b'' : Band} (h : heldAnew b b') (h' : heldAnew b' b'') : heldAnew b b'' := by
  rcases h with rfl | ⟨hst, rfl⟩ | ⟨hst, rfl⟩
  · exact h'
  · rcases h' with rfl | ⟨hst', -⟩ | ⟨-, rfl⟩
    · exact .inr (.inl ⟨hst, rfl⟩)
    · exact BState.noConfusion hst'
    · exact .inl (by rw [← hst])
  · rcases h' with rfl | ⟨-, rfl⟩ | ⟨hst', -⟩
    · exact .inr (.inr ⟨hst, rfl⟩)
    · exact .inl (by rw [← hst])
    · exact BState.noConfusion hst'

theorem coreHeldAnew_trans {k j i : Core} (h : coreHeldAnew k j) (h' : coreHeldAnew j i) : coreHeldAnew k i := by
  obtain ⟨g, rfl, hg⟩ := h
  obtain ⟨g', rfl, hg'⟩ := h'
  refine ⟨g' ∘ g, by simp, fun e => ?_⟩
  exact ⟨(hg' (g e)).1.trans (hg e).1, heldAnew_trans (hg e).2 (hg' (g e)).2⟩

/-- What R318's look at a context's waiting bands can do, said once. -/
theorem updateHeld_spec (s : State) (x : Nat) :
    { s.updateHeld x with cores := s.cores } = s ∧ ∀ c, coreHeldAnew (s.core c) ((s.updateHeld x).core c) := by
  unfold State.updateHeld
  refine List.foldlRecOn (motive := fun t : State => { t with cores := s.cores } = s ∧ ∀ c, coreHeldAnew (s.core c) (t.core c)) _ _
    ⟨rfl, fun c => coreHeldAnew_refl _⟩ fun t ⟨hrest, hcores⟩ c hc => ?_
  dsimp only
  split
  case isFalse => exact ⟨hrest, hcores⟩
  case isTrue =>
    refine ⟨hrest, fun d => ?_⟩
    by_cases hd : d = c
    · subst hd
      refine coreHeldAnew_trans (hcores d) ?_
      rw [State.core_setCore_same t (List.mem_range.mp hc)]
      refine ⟨_, rfl, fun e => ?_⟩
      split
      · split
        · exact ⟨rfl, .inl rfl⟩
        · split
          · next h => exact ⟨rfl, .inr (.inl ⟨by simpa using (Bool.and_eq_true_iff.mp h).2, rfl⟩)⟩
          · split
            · next h => exact ⟨rfl, .inr (.inr ⟨by simpa using (Bool.and_eq_true_iff.mp h).2, rfl⟩)⟩
            · exact ⟨rfl, .inl rfl⟩
      · exact ⟨rfl, .inl rfl⟩
    · rw [State.core_setCore_ne t hd]
      exact hcores d

theorem aget_map_keys {α : Type} (g : Nat × α → Nat × α) (hg : ∀ e, (g e).1 = e.1) (l : List (Nat × α)) (n : Nat) :
    aget (l.map g) n = (aget l n).map fun x => (g (n, x)).2 := by
  induction l with
  | nil => rfl
  | cons e t ih =>
    obtain ⟨k, x⟩ := e
    by_cases h : n = k
    · subst h
      simp [aget, hg]
    · simp [aget, hg, h, ih]

/-- A band that is neither waiting nor held stays as it is. -/
theorem updateHeld_band {s : State} {c n : Nat} {b : Band} (x : Nat) (hb : s.band c n = some b) (hw : b.st ≠ .waiting) (hh : b.st ≠ .held) :
    (s.updateHeld x).band c n = some b := by
  obtain ⟨g, hcore, hg⟩ := (updateHeld_spec s x).2 c
  have hkeep : (g (n, b)).2 = b := by
    rcases (hg (n, b)).2 with h | ⟨h, -⟩ | ⟨h, -⟩
    · exact h
    · exact absurd h hw
    · exact absurd h hh
  rw [State.band, hcore, aget_map_keys g (fun e => (hg e).1), show aget (s.core c).bands n = some b from hb, Option.map_some, hkeep]

/-- Nothing of a core but its bands changes. -/
theorem updateHeld_core_proj {α : Type} (g : Core → α) (hg : ∀ (k : Core) l, g { k with bands := l } = g k) (s : State) (x c : Nat) :
    g ((s.updateHeld x).core c) = g (s.core c) := by
  obtain ⟨f, hcore, -⟩ := (updateHeld_spec s x).2 c
  rw [hcore, hg]

end Sys2Proof.Proofs
end

section
/-!
SUPPORT. TRAP, BKPT, CSRR and CSRW of a band (R116, R117, R401).
-/

namespace Sys2Proof.Proofs

open Sys2Proof Sys2Proof.Machine Sys2Proof.Claims

section
variable {s : State} {c n : Nat} {b v : Band} {h : LHdr} {f : IForm} {m : Word}

theorem laneTrap_eq (hl : laneOn s c n b v) (hm : taking v h m) :
    exec (.laneTrap h f) s = .next (if m = 0 then s.onBand c n goes else s.bandFault c n .trap m (BitVec.ofNat 64 f.imm.toNat) 0) := by
  rw [show exec _ s = execLaneTrap h f s from rfl, execLaneTrap, laneGo_bare hl hm, laneNext_eq hl.1, laneFault_eq hl, BitVec.ofNat_toNat]

/-- The stop that a BKPT asks for (R401). -/
def bkptStop (c n : Nat) (v : Band) (f : IForm) (m : Word) : StopReq := ⟨.band c n, .bkptHit, BitVec.ofNat 64 (f.imm.toNat % 65536), m, none, some v.pc⟩

theorem bkptWord (imm : BitVec 28) : imm.setWidth 64 &&& 0xFFFF#64 = BitVec.ofNat 64 (imm.toNat % 65536) := by
  apply BitVec.eq_of_toNat_eq
  have hlow : ∀ w, w &&& 0xFFFF = w % 65536 := fun w => Nat.and_two_pow_sub_one_eq_mod w 16
  rw [BitVec.toNat_and, BitVec.toNat_setWidth, BitVec.toNat_ofNat, BitVec.toNat_ofNat]
  simp only [hlow]
  omega

theorem laneBkpt_eq (hl : laneOn s c n b v) (hm : taking v h m) :
    exec (.laneBkpt h f) s = .next (if m = 0 ∨ (s.part v.part.toNat).debug = 0 then s.onBand c n goes
      else (((s.onBand c n goes).stopReq c (bkptStop c n v f m)).onBand c n fun b => b.stop .debug).updateHeld v.slot) := by
  rw [show exec _ s = execLaneBkpt h f s from rfl, execLaneBkpt, laneGo_bare hl hm, laneNext_eq hl.1, laneId_eq hl, bkptWord]
  simp only [Bool.or_eq_true, decide_eq_true_eq]
  rfl

theorem stopReq_band (s : State) {c : Nat} (hc : c < 64) (r : StopReq) (d n : Nat) : (s.stopReq c r).band d n = s.band d n := by
  by_cases hd : d = c
  · rw [hd, State.band, State.stopReq, State.onWatch, State.core_onCore_same _ hc]
    rfl
  · rw [State.band, State.stopReq, State.onWatch, State.core_onCore_ne _ hd]
    rfl

theorem stopReq_stops (s : State) {c : Nat} (hc : c < 64) (r : StopReq) : ((s.stopReq c r).core c).watch.stops = (s.core c).watch.stops ++ [r] := by
  rw [State.stopReq, State.onWatch, State.core_onCore_same _ hc]

/-- R401: the band that meets a BKPT stops behind it and asks for a stop. -/
theorem laneBkpt_stops (hl : laneOn s c n b v) (hm : taking v h m) (h0 : m ≠ 0) (hdebug : (s.part v.part.toNat).debug ≠ 0)
    (hst : b.st = .issuing ∨ b.st = .waiting ∨ b.st = .ready) :
    ∃ t b', exec (.laneBkpt h f) s = .next t ∧ t.band c n = some b' ∧ b'.st = .halted ∧ b'.halt = .debug ∧ b'.pc = b.pc + 8
      ∧ (t.core c).watch.stops = (s.core c).watch.stops ++ [bkptStop c n v f m] := by
  have hready : (goes b).st = .ready := by rcases hst with h | h | h <;> simp [goes, h]
  have hstop : (goes b).stop .debug = { goes b with st := .halted, halt := .debug, heldDecision := (goes b).unfinished.isSome } := by
    rw [Band.stop, hready]
    rfl
  have hhalted : ((goes b).stop .debug).st = .halted := by rw [hstop]
  have hband : (((s.onBand c n goes).stopReq c (bkptStop c n v f m)).onBand c n fun b => b.stop .debug).band c n = some ((goes b).stop .debug) := by
    rw [State.band_onBand_same _ hl.2.1, stopReq_band _ hl.2.1, State.band_onBand_same _ hl.2.1, hl.2.2.1]
    rfl
  refine ⟨_, (goes b).stop .debug, ?_, updateHeld_band v.slot hband ?_ ?_, hhalted, ?_, ?_, ?_⟩
  · rw [laneBkpt_eq hl hm, if_neg (not_or.mpr ⟨h0, hdebug⟩)]
  · rw [hhalted]
    decide
  · rw [hhalted]
    decide
  · rw [hstop]
  · rw [hstop]
    rfl
  · rw [updateHeld_core_proj (fun k => k.watch.stops) (fun _ _ => rfl), State.onBand, State.core_onCore_same _ hl.2.1]
    dsimp only
    rw [stopReq_stops _ hl.2.1, State.onBand, State.core_onCore_same _ hl.2.1]

/-- The lane CSRs (R117). -/
def laneCsrAt (s : State) (c n : Nat) (v : Band) (num : Nat) : Option Word :=
  if num = 0 then some v.mode else if num = 1 then some v.flag
  else if num = 2 then some (BitVec.ofNat 64 (c % 64 + n / 16 % 8 * 2 ^ 8 + n % 16 * 2 ^ 12 + v.part.toNat * 2 ^ 16 + v.ctx.toNat % 16 * 2 ^ 20))
  else if num = 3 then some (BitVec.ofNat 64 s.cycle) else none

/-- LANE_ID packs the band's place beside its context (R117). -/
theorem laneIdWord (v : Band) (hc : c < 64) (hn : n < 128) :
    c ||| (n / 16) <<< 8 ||| (n % 16) <<< 12 ||| v.part.toNat <<< 16 ||| (v.ctx.toNat % 16) <<< 20
      = c % 64 + n / 16 % 8 * 2 ^ 8 + n % 16 * 2 ^ 12 + v.part.toNat * 2 ^ 16 + v.ctx.toNat % 16 * 2 ^ 20 := by
  have hp : v.part.toNat < 16 := v.part.isLt
  rw [or_shiftLeft (n / 16) (by omega), or_shiftLeft (n % 16) (by omega), or_shiftLeft v.part.toNat (by omega),
    or_shiftLeft (v.ctx.toNat % 16) (by omega)]
  omega

theorem laneCsr_eq (hl : laneOn s c n b v) (hn : n < 128) {num : Nat} {x : Word} (hx : laneCsrAt s c n v num = some x) :
    s.laneCsr v num = some x := by
  unfold laneCsrAt at hx
  split at hx
  · next h => subst h; exact hx
  · split at hx
    · next h => subst h; exact hx
    · split at hx
      · next h =>
        subst h
        simpa only [State.laneCsr, laneId_eq hl, laneIdWord v hl.2.1 hn] using hx
      · split at hx
        · next h => subst h; exact hx
        · exact absurd hx (by simp)

theorem laneCsrAt_none {num : Nat} (hx : laneCsrAt s c n v num = none) : 3 < num := by
  by_contra hle
  have : num = 0 ∨ num = 1 ∨ num = 2 ∨ num = 3 := by omega
  rcases this with rfl | rfl | rfl | rfl <;> simp [laneCsrAt] at hx

theorem laneCsrAt_some {num : Nat} {x : Word} (hx : laneCsrAt s c n v num = some x) : ¬ 3 < num := by
  intro hlt
  simp [laneCsrAt, show num ≠ 0 by omega, show num ≠ 1 by omega, show num ≠ 2 by omega, show num ≠ 3 by omega] at hx

theorem laneIllegal_eq (hl : laneOn s c n b v) (hm : taking v h m) : s.laneIllegal h = s.bandFault c n .illegalOp m 0 0 := by
  rw [State.laneIllegal, laneBand_eq hl]
  dsimp only
  rw [laneView_eq hl, part1_eq hm, laneFault_eq hl]

theorem laneCsrr_eq (hl : laneOn s c n b v) (hm : taking v h m) (hn : n < 128) (hd : ready1 b v f.dst) {x : Word}
    (hx : laneCsrAt s c n v (f.imm.toNat % 4096) = some x) : exec (.laneCsrr h f) s =
      .next (if byteV f.dst then (s.laneWrite f.dst m fun _ => [x]).laneNext
        else (if v.actsOnce h then s.onLane fun y => y.setB (f.dst.toNat - 128) x else s).laneNext) := by
  rw [show exec _ s = execLaneCsrr h f s from rfl, execLaneCsrr]
  dsimp only
  rw [if_neg (laneCsrAt_some hx), laneGo_one hl hm hd, laneCsr_eq hl hn hx]
  rfl

/-- A band with one value put in the participating strands' shares of a register. -/
def setShares (d : Nat) (m x : Word) (b : Band) : Band := (strands m).foldl (fun b st => b.setV d st x) b

theorem setShares_eq (d : Nat) (m x : Word) (b : Band) :
    setShares d m x b = { b with v := (strands m).foldl (fun l st => aput l (64 * d + st) x) b.v } := by
  unfold setShares
  induction strands m generalizing b with
  | nil => rfl
  | cons st l ih => rw [List.foldl_cons, ih, List.foldl_cons, Band.setV]

theorem aget_foldl_aput (g : Nat → Nat) (x : Word) (k : Nat) : ∀ (l : List Nat) (v : List (Nat × Word)),
    aget (l.foldl (fun v st => aput v (g st) x) v) k = if ∃ st ∈ l, k = g st then some x else aget v k
  | [], v => by simp
  | st :: l, v => by
    rw [List.foldl_cons, aget_foldl_aput g x k l]
    by_cases hk : k = g st
    · subst hk
      simp [aget_aput_same]
    · simp [aget_aput_ne v x hk, hk]

theorem laneWrite_eq (s : State) {d : BitVec 8} (hd : byteQ d = false) (x : Word) :
    s.laneWrite d m (fun _ => [x]) = s.onLane (setShares d.toNat m x) := by
  rw [State.laneWrite, hd]
  rfl

/-- R117: a CSRR into a `v` register gives the value to the participating strands. -/
theorem laneCsrr_shares (hl : laneOn s c n b v) (hm : taking v h m) (hn : n < 128) (hd : ready1 b v f.dst) {x : Word}
    (hx : laneCsrAt s c n v (f.imm.toNat % 4096) = some x) (hv : byteV f.dst = true) :
    ∃ t b', exec (.laneCsrr h f) s = .next t ∧ onlyBand s t c n b' ∧ movedOn b b' ∧ regsOnly b b'
      ∧ b'.b = b.b ∧ b'.p = b.p ∧ b'.bp = b.bp ∧ b'.flag = b.flag ∧ (∀ st, takes v h st → b'.vreg f.dst.toNat st = some x)
      ∧ ∀ k, (∀ st, takes v h st → k ≠ 64 * f.dst.toNat + st) → aget b'.v k = aget b.v k := by
  have hrun : exec (.laneCsrr h f) s = .next (s.onBand c n fun b => goes (setShares f.dst.toNat m x b)) := by
    rw [laneCsrr_eq hl hm hn hd hx, if_pos hv, laneWrite_eq s hd.1, onLane_laneNext hl]
  have hget : ∀ k, aget (goes (setShares f.dst.toNat m x b)).v k
      = if ∃ st ∈ strands m, k = 64 * f.dst.toNat + st then some x else aget b.v k := by
    intro k
    rw [setShares_eq]
    exact aget_foldl_aput (fun st => 64 * f.dst.toNat + st) x k _ _
  refine ⟨_, goes (setShares f.dst.toNat m x b), hrun, onlyBand_onBand hl.2.1 hl.2.2.1 _, ?_, ?_, ?_, ?_, ?_, ?_, fun st ht => ?_, fun k hk => ?_⟩
  case refine_7 => exact (hget _).trans (if_pos ⟨st, (takes_iff_mem hm st).mp ht, rfl⟩)
  case refine_8 => exact (hget k).trans (if_neg fun ⟨st, hmem, he⟩ => hk st ((takes_iff_mem hm st).mpr hmem) he)
  all_goals rw [setShares_eq]
  · exact ⟨rfl, rfl, rfl⟩
  all_goals rfl

/-- A band after a CSRW: MODE keeps its four low bits, FLAG loses the ones. -/
def csrWritten (num : Nat) (x : Word) (b : Band) : Band :=
  if num = 0 then { b with mode := x &&& 0xF#64 } else { b with flag := clearFlags b.flag x }

theorem laneCsrw_eq (hl : laneOn s c n b v) (hm : taking v h m) (ha : ready1 b v f.a) (hnum : f.imm.toNat % 4096 ≤ 1) {x : Word}
    (hx : (byteV f.a = false ∧ once v h ∧ x = v.breg (f.a.toNat - 128))
      ∨ (byteV f.a = true ∧ ∃ st, takes v h st ∧ (∀ k, takes v h k → st ≤ k) ∧ x = s.vval v 0 f.a.toNat st)) :
    exec (.laneCsrw h f) s = .next (s.onBand c n fun b => goes (csrWritten (f.imm.toNat % 4096) x b)) := by
  have hval : (if byteV f.a then (strands m).head?.map fun st => s.vval v 0 f.a.toNat st
      else if v.actsOnce h then some (v.breg (bNum f.a)) else none) = some x := by
    rcases hx with ⟨hb, honce, hxb⟩ | ⟨hv, st, ht, hleast, hxv⟩
    · rw [hb, actsOnce_iff.mpr honce, hxb]
      rfl
    · have hhead : (strands m).head? = some st := by
        rw [strands, bitsOf, List.head?_filter, List.find?_range_eq_some]
        refine ⟨(hm st ht.1).mpr ht, List.mem_range.mpr ht.1, fun k hk => ?_⟩
        have hno : ¬ takes v h k := fun htk => absurd (hleast k htk) (by omega)
        simpa [BitVec.getLsbD] using mt (hm k (by have := ht.1; omega)).mp hno
      rw [if_pos hv, hhead, hxv]
      rfl
  rw [show exec _ s = execLaneCsrw h f s from rfl, execLaneCsrw]
  dsimp only
  rw [if_neg (not_lt.mpr hnum), laneGo_one hl hm ha, hval]
  exact congrArg _ (onLane_laneNext hl _)

/-- Settles O31: whether strands participate decides what TRAP and BKPT do, and the CSR's number what CSRR and CSRW do. -/
theorem laneTrapsAndRegisters : Obligations.LaneTrapsAndRegisters := by
  intro h f s c n b v m hl hm num csr
  refine ⟨fun h0 => ?_, fun h0 => ?_, fun h0 => ?_, laneBkpt_stops hl hm, fun hx => ?_, fun hx => ?_,
    fun _ hd _ hn x hx => ⟨fun hv honce => ?_, fun hv honce => ?_, laneCsrr_shares hl hm hn hd hx⟩, fun _ ha x hx => ⟨fun h0 => ?_, fun h1 => ?_⟩⟩
  · rw [laneTrap_eq hl hm, if_neg h0]
  · rw [laneTrap_eq hl hm, if_pos h0]
  · rw [laneBkpt_eq hl hm, if_pos h0]
  · rw [show exec _ s = execLaneCsrr h f s from rfl, execLaneCsrr]
    exact congrArg _ ((if_pos (laneCsrAt_none hx)).trans (laneIllegal_eq hl hm))
  · rw [show exec _ s = execLaneCsrw h f s from rfl, execLaneCsrw]
    exact congrArg _ ((if_pos hx).trans (laneIllegal_eq hl hm))
  · rw [laneCsrr_eq hl hm hn hd hx, if_neg (by simp [hv]), if_pos (actsOnce_iff.mpr honce), onLane_laneNext hl]
  · rw [laneCsrr_eq hl hm hn hd hx, if_neg (by simp [hv]), if_neg (mt actsOnce_iff.mp honce), laneNext_eq hl.1]
  · rw [laneCsrw_eq hl hm ha (by omega) hx, show f.imm.toNat % 4096 = 0 from h0]
    rfl
  · rw [laneCsrw_eq hl hm ha (by omega) hx, show f.imm.toNat % 4096 = 1 from h1]
    rfl

end

end Sys2Proof.Proofs
end

section
/-!
SUPPORT. Bytes of the local homes, raised vectors and HEALTH, recorded faults and invalidated translations: what each of them can change.
-/

namespace Sys2Proof.Proofs

open Sys2Proof Sys2Proof.Machine Sys2Proof.Claims

section
variable {s t u : State}

/-! ### Homes -/

/-- A local home after one of them has been replaced. -/
theorem home_setHome (s : State) {h e : Nat} (hh : h ≤ 1) (he : e ≤ 1) (m : Memory) : (s.setHome e m).home h = if h = e then m else s.home h := by
  unfold State.setHome State.home
  have hcases : (h = 0 ∨ h = 1) ∧ (e = 0 ∨ e = 1) := by omega
  rcases hcases with ⟨rfl | rfl, rfl | rfl⟩ <;> rfl

theorem home_homeWrite (s : State) {h e : Nat} (hh : h ≤ 1) (he : e ≤ 1) (a : Nat) (bs : List Byte) :
    (s.homeWrite e a bs).home h = if h = e then (s.home h).writeBytes a bs else s.home h := by
  rw [State.homeWrite, home_setHome s hh he]
  split
  case isTrue heq => rw [heq]
  case isFalse => rfl

/-- Replacing a home changes nothing but the two stores. -/
theorem setHome_rest (s : State) (h : Nat) (m : Memory) : { s.setHome h m with hbm := s.hbm, pkg := s.pkg } = s := by
  unfold State.setHome
  split <;> rfl

/-! ### Vectors and HEALTH (R102, R417) -/

/-- Nothing but raised vectors and their messages has changed. -/
def onlyVectors (s t : State) : Prop :=
  { t with parts := s.parts, msgs := s.msgs } = s ∧ ∀ q, { t.part q with vecs := 0 } = { s.part q with vecs := 0 }

theorem onlyVectors_refl (s : State) : onlyVectors s s := ⟨rfl, fun _ => rfl⟩

theorem onlyVectors_trans (h : onlyVectors s t) (h' : onlyVectors t u) : onlyVectors s u := by
  refine ⟨?_, fun q => (h'.2 q).trans (h.2 q)⟩
  have := congrArg (fun v : State => ({ v with parts := s.parts, msgs := s.msgs } : State)) h'.1
  exact this.trans h.1

theorem onlyVectors.cores (h : onlyVectors s t) : t.cores = s.cores := (congrArg State.cores h.1 :)
theorem onlyVectors.core (h : onlyVectors s t) (c : Nat) : t.core c = s.core c := core_of_cores h.cores c
theorem onlyVectors.health (h : onlyVectors s t) : t.health = s.health := (congrArg State.health h.1 :)
theorem onlyVectors.ctx (h : onlyVectors s t) (x : Nat) : t.ctx x = s.ctx x := (congrArg (fun v : State => v.ctx x) h.1 :)
theorem onlyVectors.memSame (h : onlyVectors s t) : memSame s t := fun n => (congrArg (fun v : State => v.home n) h.1 :)
theorem onlyVectors.peers (h : onlyVectors s t) : t.peers = s.peers := (congrArg State.peers h.1 :)
theorem onlyVectors.migs (h : onlyVectors s t) : t.migs = s.migs := (congrArg State.migs h.1 :)
theorem onlyVectors.sluices (h : onlyVectors s t) (q : Nat) : (t.part q).sluices = (s.part q).sluices :=
  (congrArg Partition.sluices (h.2 q) :)

theorem raiseVector_onlyVectors (s : State) (p v : Nat) (z : Option (BitVec 4)) : onlyVectors s (s.raiseVector p v z) := by
  unfold State.raiseVector
  split
  · exact onlyVectors_refl s
  · refine ⟨rfl, fun q => ?_⟩
    show { (s.onPart p fun k => { k with vecs := k.vecs ||| BitVec.ofNat 64 (1 <<< v) }).part q with vecs := 0 } = { s.part q with vecs := 0 }
    by_cases hq : q = p
    · subst hq
      by_cases h16 : q < 16
      · rw [State.part_onPart_same s h16]
      · simp [State.part, State.onPart, h16]
    · rw [State.part_onPart_ne s hq]

/-- The device with another HEALTH. -/
def withHealth (s : State) (h : BitVec 128) : State := { s with health := h }

/-- Setting HEALTH changes it and raises vectors (R417). -/
theorem setHealth_onlyVectors (s : State) (h : BitVec 128) : onlyVectors (withHealth s h) (s.setHealth h) := by
  unfold State.setHealth
  split
  case isTrue heq => rw [heq]; exact onlyVectors_refl s
  case isFalse =>
    refine List.foldlRecOn (motive := fun t => onlyVectors (withHealth s h) t) _ _ ⟨rfl, fun _ => rfl⟩ fun t ht p _ => ?_
    exact onlyVectors_trans ht (raiseVector_onlyVectors t p 6 none)

theorem testBit_maskOf (l : List Nat) (i : Nat) : (maskOf l).testBit i = decide (i ∈ l) := by
  have hfold : ∀ (l : List Nat) (m : Nat), (l.foldl (fun m i => m ||| 1 <<< i) m).testBit i = (m.testBit i || decide (i ∈ l)) := by
    intro l
    induction l with
    | nil => simp
    | cons j l ih =>
      intro m
      rw [List.foldl_cons, ih, Nat.testBit_or, Nat.one_shiftLeft, Nat.testBit_two_pow, Bool.or_assoc]
      simp [eq_comm]
  rw [maskOf, hfold, Nat.zero_testBit, Bool.false_or]

theorem health1_onlyVectors (s : State) (bits : List Nat) :
    onlyVectors (withHealth s (s.health ||| BitVec.ofNat 128 (maskOf bits))) (s.health1 bits) := setHealth_onlyVectors s _

theorem health1_core (s : State) (bits : List Nat) (c : Nat) : (s.health1 bits).core c = s.core c := (health1_onlyVectors s bits).core c
theorem health1_memSame (s : State) (bits : List Nat) : memSame s (s.health1 bits) := (health1_onlyVectors s bits).memSame
theorem health1_ctx (s : State) (bits : List Nat) (x : Nat) : (s.health1 bits).ctx x = s.ctx x := (health1_onlyVectors s bits).ctx x

/-- The bits that are set stand in HEALTH. -/
theorem health1_bit (s : State) {bits : List Nat} {i : Nat} (hi : i ∈ bits) (hlt : i < 128) : (s.health1 bits).health.getLsbD i = true := by
  rw [(health1_onlyVectors s bits).health]
  show (s.health ||| BitVec.ofNat 128 (maskOf bits)).getLsbD i = true
  rw [BitVec.getLsbD_or, BitVec.getLsbD_ofNat, testBit_maskOf, decide_eq_true hi, decide_eq_true hlt]
  exact Bool.or_true _

/-! ### Recorded faults (R346) -/

/-- A recorded fault changes a home, the context's FREC index and the partition's sluices. -/
theorem takeFault_rest (s : State) (x : Nat) (r : FRec) (who : Agent) (kind prio tflags : Nat) :
    { s.takeFault x r who kind prio tflags with hbm := s.hbm, pkg := s.pkg, ctxs := s.ctxs, parts := s.parts } = s := by
  rw [State.takeFault_eq]
  exact congrArg (fun v : State => ({ v with ctxs := s.ctxs, parts := s.parts } : State)) (setHome_rest s _ _)

theorem takeFault_health (s : State) (x : Nat) (r : FRec) (who : Agent) (kind prio tflags : Nat) :
    (s.takeFault x r who kind prio tflags).health = s.health := (congrArg State.health (takeFault_rest s x r who kind prio tflags) :)
theorem takeFault_core (s : State) (x : Nat) (r : FRec) (who : Agent) (kind prio tflags c : Nat) :
    (s.takeFault x r who kind prio tflags).core c = s.core c := core_of_cores (State.takeFault_cores s x r who kind prio tflags) c

/-! ### Invalidated translations (R280) -/

/-- The device without the homes' bytes, the layout units' entries and the invalidates that go on. -/
def butCopies (s : State) : State :=
  { s with hbm := Memory.zero, pkg := Memory.zero, invals := [], cores := s.cores.map fun k => { k with tlb := [], tlrs := [] } }

theorem butCopies_setHome (s : State) (h : Nat) (m : Memory) : butCopies (s.setHome h m) = butCopies s := by
  unfold State.setHome
  split <;> rfl

theorem map_setCore {α : Type} (f : Core → α) {s : State} {c : Nat} {k : Core} (hk : f k = f (s.core c)) :
    (s.setCore c k).cores.map f = s.cores.map f := by
  ext i hi
  simp only [State.setCore, Vector.getElem_map, Vector.getElem_setIfInBounds]
  split
  case isTrue hc =>
    subst hc
    rw [hk, State.core, Vector.getElem?_eq_getElem hi, Option.getD_some]
  case isFalse => rfl

theorem butCopies_setCore (s : State) (c : Nat) (tlb : List TlbEntry) (tlrs : List TlrCopy) :
    butCopies (s.setCore c { s.core c with tlb := tlb, tlrs := tlrs }) = butCopies s :=
  congrArg (fun v => ({ s with hbm := Memory.zero, pkg := Memory.zero, invals := [], cores := v } : State))
    (map_setCore (fun k : Core => ({ k with tlb := [], tlrs := [] } : Core)) rfl)

theorem butCopies_invals (s : State) (v : List Inval) : butCopies { s with invals := v } = butCopies s := rfl

theorem butCopies_foldHot (s : State) (t : TlbEntry) : butCopies (s.foldHot t) = butCopies s := by
  unfold State.foldHot
  split
  · rfl
  · dsimp only
    split
    · exact butCopies_setHome _ _ _
    · rfl

theorem butCopies_foldl {α : Type} {f : State → α → State} (hf : ∀ s a, butCopies (f s a) = butCopies s) (l : List α) (s : State) :
    butCopies (l.foldl f s) = butCopies s :=
  List.foldlRecOn (motive := fun t : State => butCopies t = butCopies s) l f rfl fun t ht a _ => (hf t a).trans ht

theorem butCopies_invalidateAt (x : Nat) (tensor : Option Nat) (hit : TlbEntry → Bool) (s : State) (c : Nat) :
    butCopies (invalidateAt x tensor hit s c) = butCopies s := by
  unfold invalidateAt
  split
  · exact (butCopies_foldl butCopies_foldHot _ _).trans (butCopies_setCore s c _ _)
  · rfl

/-- An invalidate changes the layout units' entries and, as their hotness is written back, the homes (R274, R280). -/
theorem butCopies_invalidate (s : State) (x : Nat) (tensor : Option Nat) (lo hi : Nat) (mig : Option Nat) :
    butCopies (s.invalidate x tensor lo hi mig) = butCopies s := by
  obtain ⟨v, hv⟩ := invalidate_eq s x tensor lo hi mig
  rw [hv]
  exact (butCopies_invals _ _).trans (butCopies_foldl (butCopies_invalidateAt x tensor (invalidates x tensor lo hi)) (List.range 64) s)

/-- What the layout unit's entries are no part of stays in every core. -/
theorem core_of_butCopies {α : Type} (h : butCopies t = butCopies s) (g : Core → α)
    (hg : ∀ k : Core, g { k with tlb := [], tlrs := [] } = g k) (c : Nat) : g (t.core c) = g (s.core c) := by
  have hcores : (t.cores.map fun k => ({ k with tlb := [], tlrs := [] } : Core)) = s.cores.map fun k => { k with tlb := [], tlrs := [] } :=
    (congrArg State.cores h :)
  have hget : ∀ u : State, ((u.cores.map fun k => ({ k with tlb := [], tlrs := [] } : Core))[c]?).map g = (u.cores[c]?).map g := by
    intro u
    rw [Vector.getElem?_map, Option.map_map]
    exact congrArg (fun f => Option.map f u.cores[c]?) (funext hg)
  have heq := (hget t).symm.trans ((congrArg (fun v : Vector Core 64 => (v[c]?).map g) hcores).trans (hget s))
  rw [State.core, State.core]
  cases ht : t.cores[c]? <;> cases hs : s.cores[c]? <;> simp_all

/-! ### Calm devices -/

/-- The link's queues and the peers being as they were, a calm device is calm. -/
theorem calm_congr (hp : t.peers = s.peers) (hc : ∀ c, (t.core c).rq = (s.core c).rq ∧ (t.core c).lq = (s.core c).lq) (h : calm s) : calm t := by
  refine ⟨hp.trans h.1, fun c hlt => ?_⟩
  rw [(hc c).1, (hc c).2]
  exact h.2 c hlt

end

end Sys2Proof.Proofs
end

section
/-!
SUPPORT. Page copies that end (R273), and what a context in RECOVERING takes from its log (R105, R121, R362).
-/

namespace Sys2Proof.Proofs

open Sys2Proof Sys2Proof.Machine Sys2Proof.Claims

section
variable {s : State} {g : Migration}

/-- Without a migration its copy is over. -/
theorem endMigration_migs (s : State) (id : Nat) : ∀ m ∈ (s.endMigration id).migs, m.id ≠ id := by
  intro m hm
  simpa using (List.mem_filter.mp hm).2

/-- What an uncorrectable error of a page changes (R273, R417). -/
theorem poisonPage_spec (s : State) (x tensor page h ea : Nat) (e : Word) : ∃ t : State,
    t = (s.homeWrite h ea (bytesOfNat 8 ((e.toNat &&& (2 ^ 63 - 1 - 7 <<< 40)) ||| 2 <<< 40))).invalidate x (some tensor) page page none
    ∧ butCopies t = butCopies s ∧ onlyVectors (withHealth t (t.health ||| BitVec.ofNat 128 (maskOf [70]))) (s.poisonPage x tensor page h ea e) :=
  ⟨_, rfl, (butCopies_invalidate _ _ _ _ _ _).trans (butCopies_setHome _ _ _), health1_onlyVectors _ _⟩

/-- R273: a copy that fails leaves the page POISONED, with a record. -/
theorem migrateCopyFail_acked (hg : (s.migs.find? fun m => m.id = s.req.n) = some g) (hx : g.ctx < 256) (hack : g.acked = true) (hcalm : calm s) :
    ∃ u, exec .migrateCopyFail s = .next u ∧ (∀ m ∈ u.migs, m.id ≠ g.id) ∧ u.health.getLsbD 70 = true
      ∧ ∃ r ∈ (u.part (g.ctx / 16)).sluices, (r.record.map fun f => f.kind) = some .uePage := by
  let e := BitVec.ofNat 64 (s.homeNat g.ehome g.eaddr 8)
  let page := match s.tlr none g.ctx g.tensor with | .ok r => tlrPage r | .error _ => 4096
  let r : FRec := { FRec.zero with kind := .uePage, vaddr := tensorAddr g.tensor (g.page * page), pte := e }
  let t := (s.endMigration g.id).poisonPage g.ctx g.tensor g.page g.ehome g.eaddr e
  obtain ⟨t₀, ht₀, hrest, hvec⟩ := poisonPage_spec (s.endMigration g.id) g.ctx g.tensor g.page g.ehome g.eaddr e
  have hfault := takeFault_rest t g.ctx r .env 0 0 0
  have hmigs : (t.takeFault g.ctx r .env 0 0).migs = (s.endMigration g.id).migs :=
    (congrArg State.migs hfault :).trans (hvec.migs.trans (congrArg State.migs hrest :))
  have hcalm' : calm (t.takeFault g.ctx r .env 0 0) := by
    refine calm_congr (s := s) ((congrArg State.peers hfault :).trans (hvec.peers.trans (congrArg State.peers hrest :))) (fun c => ?_) hcalm
    rw [takeFault_core, hvec.core]
    exact ⟨core_of_butCopies hrest Core.rq (fun _ => rfl) c, core_of_butCopies hrest Core.lq (fun _ => rfl) c⟩
  have hrun : exec .migrateCopyFail s = .next (t.takeFault g.ctx r .env 0 0).served := by
    rw [show exec _ s = execMigrateCopyFail s from rfl, execMigrateCopyFail, evMigrateCopyFail, hg]
    exact congrArg _ (if_neg (by simp [hack]))
  rw [served_calm hcalm'] at hrun
  refine ⟨_, hrun, hmigs ▸ endMigration_migs s g.id, ?_, ?_⟩
  · rw [takeFault_health]
    exact health1_bit _ (by simp) (by decide)
  · obtain ⟨q, hq, -, -, hkind⟩ := takeFault_raises (s := t) hx r .env 0 0 0
    exact ⟨q, hq, hkind⟩

/-- The bytes after the copy of a page within the device, before its leaf entry is written. -/
def pageCopied (s : State) (g : Migration) (t : BitVec 512) : State :=
  s.setHome g.home ((s.home (baseHome g.old)).blit (baseFrame g.old * 4096) (tlrPage t) (s.home g.home) (g.frame * 4096))

theorem movedEntry_eq (s : State) (g : Migration) : s.movedEntry g =
    2 ^ 63 ||| g.home * 2 ^ 61 ||| (s.homeNat g.ehome g.eaddr 8 &&& 31 * 2 ^ 43) ||| g.frame := by
  simp only [State.movedEntry, Nat.shiftLeft_eq, Nat.one_mul]

theorem migrateCopyComplete_eq {t : BitVec 512} (hg : (s.migs.find? fun m => m.id = s.req.n) = some g) (ht : s.tlr none g.ctx g.tensor = .ok t) :
    (g.acked = false → exec .migrateCopyComplete s = .next s)
    ∧ (g.acked = true → baseHome g.old ≤ 1 → exec .migrateCopyComplete s = .next
        ((((pageCopied s g t).homeWrite g.ehome g.eaddr (bytesOfNat 8 ((pageCopied s g t).movedEntry g))).endMigration g.id).served)) := by
  have hrun : exec .migrateCopyComplete s = .next (evMigrateCopyComplete s) := rfl
  rw [hrun, evMigrateCopyComplete, hg]
  simp only [ht]
  refine ⟨fun hack => ?_, fun hack hold => ?_⟩
  · exact congrArg _ (if_pos (by simp [hack]))
  · exact congrArg _ ((if_neg (by simp [hack])).trans (if_pos hold))

/-- R273: the copy ends with the leaf entry at the page's new frame. -/
theorem migrateCopyComplete_acked {t : BitVec 512} (hg : (s.migs.find? fun m => m.id = s.req.n) = some g) (heh : g.ehome ≤ 1)
    (ht : s.tlr none g.ctx g.tensor = .ok t) (hack : g.acked = true) (hold : baseHome g.old ≤ 1) (hcalm : calm s) :
    ∃ u, exec .migrateCopyComplete s = .next u ∧ (∀ m ∈ u.migs, m.id ≠ g.id)
      ∧ (∀ h, h ≤ 1 → u.home h = (if h = g.ehome then ((pageCopied s g t).home h).writeBytes g.eaddr
          (bytesOfNat 8 (2 ^ 63 ||| g.home * 2 ^ 61 ||| ((pageCopied s g t).homeNat g.ehome g.eaddr 8 &&& 31 * 2 ^ 43) ||| g.frame))
          else (pageCopied s g t).home h))
      ∧ u.cores = s.cores := by
  let u := ((pageCopied s g t).homeWrite g.ehome g.eaddr (bytesOfNat 8 ((pageCopied s g t).movedEntry g))).endMigration g.id
  have hcores : u.cores = s.cores := (State.setHome_cores _ _ _).trans (State.setHome_cores _ _ _)
  have hpeers : u.peers = s.peers :=
    (congrArg State.peers (setHome_rest (pageCopied s g t) _ _) :).trans (congrArg State.peers (setHome_rest s g.home _) :)
  have hcalm' : calm u := calm_congr hpeers (fun c => by rw [core_of_cores hcores]; exact ⟨rfl, rfl⟩) hcalm
  have hrun := (migrateCopyComplete_eq hg ht).2 hack hold
  rw [served_calm hcalm'] at hrun
  refine ⟨u, hrun, endMigration_migs _ g.id, fun h hh => ?_, hcores⟩
  rw [← movedEntry_eq]
  exact home_homeWrite _ hh heh _ _

/-- R273. -/
theorem pagesMove : PagesMove := by
  intro s g hg hx heh hh
  refine ⟨fun hack => ?_, fun hack => migrateCopyFail_acked hg hx hack, fun t ht => ?_⟩
  · rw [show exec _ s = execMigrateCopyFail s from rfl, execMigrateCopyFail, evMigrateCopyFail, hg]
    exact congrArg _ (if_pos (by simp [hack]))
  · exact ⟨(migrateCopyComplete_eq hg ht).1, fun hack hold hcalm => migrateCopyComplete_acked hg heh ht hack hold hcalm⟩

end

/-! ### Recovery -/

section
variable {s : State} {x : Nat}

theorem rx_eq (hp : s.req.part % 16 = x / 16) (hx : s.req.ctx % 16 = x % 16) : s.rx = x := by
  rw [State.rx, State.rp, hp, hx]
  omega

/-- The rest of the log waits: taking an entry takes the entry alone. -/
theorem dropReplay_more {e f : LogEntry} {rest : List LogEntry} (hx : x < 256) (hr : (s.ctx x).replay = e :: f :: rest) :
    s.dropReplay x = s.onCtx x fun k => { k with replay := f :: rest } := by
  have htail : (s.onCtx x fun k => { k with replay := k.replay.tail }) = s.onCtx x fun k => { k with replay := f :: rest } := by
    simp only [State.onCtx, hr, List.tail_cons]
  rw [State.dropReplay, htail, State.endReplay, State.ctx_onCtx_same _ hx]
  exact if_pos (by simp)

theorem bf_eq_div (w lo n : Nat) : bf w lo n = w / 2 ^ lo % 2 ^ n := by rw [bf, Nat.shiftRight_eq_div_pow]

theorem aget_mem {α : Type} {l : List (Nat × α)} {n : Nat} {a : α} (h : aget l n = some a) : (n, a) ∈ l := by
  induction l with
  | nil => exact absurd h (by simp)
  | cons e t ih =>
    by_cases hn : n = e.1
    · rw [aget, if_pos hn, Option.some.injEq] at h
      exact List.mem_cons.mpr (.inl (by rw [hn, ← h]))
    · rw [aget, if_neg hn] at h
      exact List.mem_cons_of_mem _ (ih h)

/-- A launch that is PENDING, or RUNNING for a task that has not ended, stays as it is (R132). -/
theorem checkLaunch_stays (hl : ∀ l ∈ (s.ctx x).launches, l.2.st = .pending ∨ (l.2.st = .running ∧ l.2.vector = none ∧ l.2.taskEnded = false))
    (id : Nat) : s.checkLaunch x id = s := by
  unfold State.checkLaunch
  cases hget : aget (s.ctx x).launches id with
  | none => rfl
  | some l =>
    have hst : l.st = .pending ∨ (l.st = .running ∧ l.vector = none ∧ l.taskEnded = false) := hl _ (aget_mem hget)
    rcases hst with h | ⟨h, hv, ht⟩
    · simp [h, hget]
    · simp [h, hv, ht, hget]

/-- R121, R362: with nothing left to replay the context RUNS. -/
theorem endReplay_runs (hx : x < 256) (hst : (s.ctx x).st = .recovering) (hr : (s.ctx x).replay = []) (hact : (s.ctx x).active = true)
    (hcalm : calm s) (hlive : (s.ctx x).liveResps = [])
    (hl : ∀ l ∈ (s.ctx x).launches, l.2.st = .pending ∨ (l.2.st = .running ∧ l.2.vector = none ∧ l.2.taskEnded = false)) :
    s.endReplay x = (s.onCtx x fun k => { k with st := .running, replayLive := false, outPos := k.outs.length }).raiseVector (x / 16) 3
      (some (BitVec.ofNat 4 x)) := by
  let t := (s.onCtx x fun k => { k with st := .running, replayLive := false, outPos := k.outs.length }).raiseVector (x / 16) 3
    (some (BitVec.ofNat 4 x))
  have hvec : onlyVectors (s.onCtx x fun k => { k with st := .running, replayLive := false, outPos := k.outs.length }) t :=
    raiseVector_onlyVectors _ _ _ _
  have hctx : t.ctx x = { s.ctx x with st := .running, replayLive := false, outPos := (s.ctx x).outs.length } :=
    (hvec.ctx x).trans (State.ctx_onCtx_same s hx _)
  have hlaunches : (t.ctx x).launches = (s.ctx x).launches := by rw [hctx]
  have hcheck : (t.ctx x).launches.foldl (fun (s : State) l => s.checkLaunch x l.1) t = t :=
    foldl_id fun l _ => checkLaunch_stays (fun l hmem => hl l (hlaunches ▸ hmem)) l.1
  have hagain : (t.ctx x).launches.foldl (fun (s : State) l => if l.2.st = .replaying then s.setLaunch x l.1 .running else s) t = t := by
    refine foldl_id fun l hmem => if_neg ?_
    rcases hl l (hlaunches ▸ hmem) with h | ⟨h, -⟩ <;> simp [h]
  have hresps : (t.ctx x).liveResps = [] := by rw [hctx]; exact hlive
  have hclear : (t.onCtx x fun k => { k with liveResps := [] }) = t := onCtx_id (by rw [← hresps])
  have hsettle : t.settleContext x = t := by
    have hact' : (t.ctx x).active = true := by rw [Context.active, hlaunches]; exact hact
    rw [State.settleContext, hact']
    exact if_neg (by simp)
  have hcalm' : calm t := calm_congr hvec.peers (fun c => by rw [hvec.core]; exact ⟨rfl, rfl⟩) hcalm
  have hrun : s.endReplay x = (let u := (t.ctx x).launches.foldl (fun (s : State) l => s.checkLaunch x l.1) t
      let u := (u.ctx x).launches.foldl (fun (s : State) l => if l.2.st = .replaying then s.setLaunch x l.1 .running else s) u
      ((((u.ctx x).liveResps.foldl State.takeResp (u.onCtx x fun k => { k with liveResps := [] })).settleContext x).served)) :=
    if_neg (by simp [hst, hr])
  dsimp only at hrun
  rw [hcheck, hagain, hresps, List.foldl_nil, hclear, hsettle, served_calm hcalm'] at hrun
  exact hrun

/-- A decision or a kernel boundary at the head of the log passes once decisions are no longer taken from it. -/
theorem replay_passes {e : LogEntry} {rest : List LogEntry} (hrx : s.rx = x) (hst : (s.ctx x).st = .recovering) (hr : (s.ctx x).replay = e :: rest)
    (hk : e.kind = 1 ∨ e.kind = 6 ∨ (e.kind = 5 ∧ (s.ctx x).replayLive = true)) : evReplayInputDeliver s = s.dropReplay x := by
  rcases hk with hk | hk | ⟨hk, hlive⟩
  · simp [evReplayInputDeliver, hrx, hst, hr, hk]
  · simp [evReplayInputDeliver, hrx, hst, hr, hk]
  · simp [evReplayInputDeliver, hrx, hst, hr, hk, hlive]

end

/-- R105, R121, R362. -/
theorem inputsReplay : InputsReplay := by
  intro s x hx hp hc
  have hrx := rx_eq hp hc
  refine ⟨fun hst => ?_, fun hst hr hact hcalm hlive hl => ?_, fun e f rest hst hr => ?_⟩
  · rw [show exec _ s = execReplayInputDeliver s from rfl, execReplayInputDeliver, evReplayInputDeliver, hrx]
    exact congrArg _ (if_pos hst)
  · have hrun : exec .replayInputDeliver s = .next (s.endReplay x) := by
      rw [show exec _ s = execReplayInputDeliver s from rfl, execReplayInputDeliver, evReplayInputDeliver, hrx]
      simp only [hst, hr]
      rfl
    rw [endReplay_runs hx hst hr hact hcalm hlive hl] at hrun
    refine ⟨_, hrun, ?_, raiseVector_pending _ (by omega) (by decide) _, (raiseVector_onlyVectors _ _ _ _).cores⟩
    rw [raiseVector_ctx, State.ctx_onCtx_same _ hx]
  · have hev : exec .replayInputDeliver s = .next (evReplayInputDeliver s) := rfl
    have hdrop := dropReplay_more hx hr
    rw [hev]
    refine ⟨fun hk hlive => ?_, fun hk => ?_, fun hk => ⟨fun hno => ?_, fun ⟨p, hp, hm⟩ => ?_⟩, fun hk hop hno => ?_,
      fun hk hop hcalm r hr' hwho hget => ?_, fun hk t ht hctx => ?_⟩
    · simp [evReplayInputDeliver, hrx, hst, hr, hk, hlive]
    · rw [replay_passes hrx hst hr hk, hdrop]
    · have hnone : (((s.core e.core).recvQ (bf (natOfBytes (e.payload.take 8)) 0 4)).pulls.any fun p =>
          decide (p.msg = bf (natOfBytes (e.payload.take 8)) 8 24)) = false := by
        rw [List.any_eq_false]
        exact fun p hp => by simpa [bf_eq_div] using hno p (by simpa [bf_eq_div] using hp)
      simp [evReplayInputDeliver, hrx, hst, hr, hk, hnone]
    · have hsome : (((s.core e.core).recvQ (bf (natOfBytes (e.payload.take 8)) 0 4)).pulls.any fun p =>
          decide (p.msg = bf (natOfBytes (e.payload.take 8)) 8 24)) = true :=
        List.any_eq_true.mpr ⟨p, by simpa [bf_eq_div] using hp, by simpa [bf_eq_div] using hm⟩
      have htakes : evReplayInputDeliver s = (s.takeFragment e.core (bf (natOfBytes (e.payload.take 8)) 0 4)
          (bf (natOfBytes (e.payload.take 8)) 8 24) (bf (natOfBytes (e.payload.take 8)) 32 32) (e.payload.drop 8)).dropReplay x := by
        simp [evReplayInputDeliver, hrx, hst, hr, hk, hsome]
      rw [htakes]
      simp [bf_eq_div]
    · simp [evReplayInputDeliver, hrx, hst, hr, hk, hop, hno]
    · obtain ⟨id, q⟩ := r
      have hanswer : s.answerReq id (.answered (Packet.ofBytes e.payload).payload)
          = { s with remote := aput s.remote id { q with stat := .answered (Packet.ofBytes e.payload).payload } } := by
        rw [State.answerReq, hget]
        exact if_neg hwho
      have hmore := dropReplay_more (s := { s with remote := aput s.remote id { q with stat := .answered (Packet.ofBytes e.payload).payload } }) hx hr
      have hserves : evReplayInputDeliver s = (({ s with remote := aput s.remote id { q with
          stat := .answered (Packet.ofBytes e.payload).payload } } : State).onCtx x fun k => { k with replay := f :: rest }).served := by
        simp [evReplayInputDeliver, hrx, hst, hr, hk, hop, hr', hanswer, hmore]
      rw [hserves]
      exact congrArg _ (served_calm hcalm)
    · have ht' : t.dropReplay x = t.onCtx x fun k => { k with replay := f :: rest } := dropReplay_more hx (hctx ▸ hr)
      simp [evReplayInputDeliver, hrx, hst, hr, hk, ht, ht']

/-- Settles O46: what a page's copy leaves, and entry by entry what replay does. -/
theorem pagesAndReplay : Obligations.PagesAndReplay := ⟨pagesMove, inputsReplay⟩

end Sys2Proof.Proofs
end

section
/-!
SUPPORT. Module reset, the clock controller, failures and uncorrectable errors (R122, R214, R273, R411, R414, R415, R417).
-/

namespace Sys2Proof.Proofs

open Sys2Proof Sys2Proof.Machine Sys2Proof.Claims

section
variable {s : State}

/-! ### Module reset (R411) -/

/-- The firmware that the flash copies of a reset amount to. -/
def bootFirmware (s : State) : Status × Nat := firmware s.minVersion [(bitN s.req.value 0, s.req.n), (bitN s.req.value 1, s.req.m)]

theorem bootFirmware_first (h0 : s.req.value.testBit 0 = true) (hv : s.minVersion ≤ s.req.n) : bootFirmware s = (.ok, s.req.n) := by
  simp [bootFirmware, firmware, bitN, h0, hv]

theorem bootFirmware_second (h0 : s.req.value.testBit 0 = false) (h1 : s.req.value.testBit 1 = true) (hv : s.minVersion ≤ s.req.m) :
    bootFirmware s = (.ok, s.req.m) := by
  simp [bootFirmware, firmware, bitN, h0, h1, hv]

theorem bootFirmware_none (h0 : s.req.value.testBit 0 = false) (h1 : s.req.value.testBit 1 = false) : bootFirmware s = (.fwSignature, 0) := by
  simp [bootFirmware, firmware, bitN, h0, h1]

/-- The device as reset leaves it, before the self-test's rows and channels are entered. -/
def freshBoot (s : State) : State :=
  { State.reset with
    fresh := s.fresh, nextId := s.nextId, agenda := s.agenda, req := s.req, temp := s.temp, fuses := s.fuses, counter := s.counter
    minVersion := s.minVersion, fwStatus := (bootFirmware s).1, fwVersion := (bootFirmware s).2 }

/-- A core with a row of its array disabled. -/
def disabledIn (row : Nat) (k : Core) : Core :=
  { k with arr := { k.arr with disabled := if k.arr.disabled.contains row then k.arr.disabled else k.arr.disabled ++ [row] } }

/-- A row that the self-test names is disabled: `r` is the core and the row. -/
def disableRow (t : State) (r : Nat × Nat) : State := if 264 ≤ r.2 then t else t.onCore r.1 (disabledIn r.2)

/-- What reset gives a core beside its array. -/
def bootCore (k : Core) : Memory × Memory × Option SeqUnit × List (Nat × Band) := (k.tile, k.scalar, k.unit, k.bands)

/-- Disabled rows change arrays and nothing else. -/
theorem disableRows_spec (l : List (Nat × Nat)) (t : State) :
    { l.foldl disableRow t with cores := t.cores } = t ∧ ∀ c, bootCore ((l.foldl disableRow t).core c) = bootCore (t.core c) := by
  refine List.foldlRecOn (motive := fun u : State => { u with cores := t.cores } = t ∧ ∀ c, bootCore (u.core c) = bootCore (t.core c))
    l disableRow ⟨rfl, fun _ => rfl⟩ fun u hu r _ => ?_
  unfold disableRow
  split
  · exact hu
  · exact ⟨hu.1, fun c => (core_onCore_proj bootCore (f := disabledIn r.2) (fun _ => rfl) c).trans (hu.2 c)⟩

/-- What HEALTH holds after reset: the failed channels, and whether a row or a channel is to be replaced. -/
def bootHealth (hch : Nat) (degraded : Bool) : BitVec 128 :=
  BitVec.ofNat 128 (hch <<< 96 ||| (if degraded then 3 <<< 64 else 0) ||| (if hch ≠ 0 then 1 <<< 64 else 0))

theorem bootHealth_channel (a : Nat) (degraded : Bool) {n : Nat} (hn : n < 16) :
    (bootHealth (a % 2 ^ 16) degraded).getLsbD (96 + n) = a.testBit n := by
  have h3 : (3 <<< 64).testBit (96 + n) = false := by
    rw [Nat.testBit_shiftLeft, Nat.testBit_lt_two_pow (show 3 < 2 ^ (96 + n - 64) from lt_of_lt_of_le (by decide) (Nat.pow_le_pow_right (by decide) (show 2 ≤ 96 + n - 64 by omega)))]
    exact Bool.and_false _
  have h1 : (1 <<< 64).testBit (96 + n) = false := by
    rw [Nat.one_shiftLeft, Nat.testBit_two_pow]
    exact decide_eq_false (by omega)
  rw [bootHealth, BitVec.getLsbD_ofNat, Nat.testBit_or, Nat.testBit_or, apply_ite (fun w => Nat.testBit w (96 + n)),
    apply_ite (fun w => Nat.testBit w (96 + n)), h3, h1, Nat.zero_testBit, Nat.testBit_shiftLeft, Nat.testBit_mod_two_pow]
  simp [hn]
  omega

/-- The rows that the self-test names. -/
def bootRows (s : State) : List (Nat × Nat) :=
  (List.range (s.req.bytes.length / 2)).map fun i =>
    ((s.req.bytes.getD (2 * i) 0).toNat % 64, (s.req.bytes.getD (2 * i + 1) 0).toNat + 256 * ((s.req.bytes.getD (2 * i) 0).toNat / 128))

theorem moduleReset_eq (s : State) : ∃ degraded, exec .moduleReset s =
    .next (((bootRows s).foldl disableRow (freshBoot s)).setHealth (bootHealth (s.req.addr % 2 ^ 16) degraded)) := ⟨_, rfl⟩

theorem core_freshBoot (s : State) (c : Nat) : (freshBoot s).core c = Core.reset := core_reset c
theorem part_freshBoot (s : State) (p : Nat) : (freshBoot s).part p = Partition.reset := part_reset p

/-- What module reset leaves (R411). -/
theorem moduleReset_spec (s : State) : ∃ t, exec .moduleReset s = .next t
    ∧ { t with cores := (freshBoot s).cores, parts := (freshBoot s).parts, msgs := (freshBoot s).msgs, health := (freshBoot s).health } = freshBoot s
    ∧ (∀ p, { t.part p with vecs := 0 } = Partition.reset)
    ∧ (∀ c, bootCore (t.core c) = (Memory.zero, Memory.zero, none, []))
    ∧ ∀ n < 16, t.health.getLsbD (96 + n) = s.req.addr.testBit n := by
  obtain ⟨degraded, hrun⟩ := moduleReset_eq s
  obtain ⟨hrest, hcores⟩ := disableRows_spec (bootRows s) (freshBoot s)
  have hvec := setHealth_onlyVectors ((bootRows s).foldl disableRow (freshBoot s)) (bootHealth (s.req.addr % 2 ^ 16) degraded)
  refine ⟨_, hrun, ?_, fun p => ?_, fun c => ?_, fun n hn => ?_⟩
  · have h := congrArg (fun v : State => ({ v with cores := (freshBoot s).cores, parts := (freshBoot s).parts, msgs := (freshBoot s).msgs, health := (freshBoot s).health } : State)) hvec.1
    exact h.trans (congrArg (fun v : State => ({ v with parts := (freshBoot s).parts, msgs := (freshBoot s).msgs, health := (freshBoot s).health } : State)) hrest)
  · have hpart : ((bootRows s).foldl disableRow (freshBoot s)).part p = (freshBoot s).part p := (congrArg (fun v : State => v.part p) hrest :)
    refine (hvec.2 p).trans ?_
    show { ((bootRows s).foldl disableRow (freshBoot s)).part p with vecs := 0 } = _
    rw [hpart, part_freshBoot]
    rfl
  · rw [hvec.core]
    exact (hcores c).trans (by rw [core_freshBoot]; rfl)
  · rw [hvec.health]
    exact bootHealth_channel _ _ hn

/-! ### The clock controller and P4 (R124, R415) -/

theorem core_enterP4 (s : State) {c : Nat} (hc : c < 64) : s.enterP4.core c = Core.enterP4 (s.core c) := by
  simp [State.core, State.enterP4, hc]

theorem clockTick_eq (s : State) : exec .clockControllerTick s = .next
    (if 45 ≤ s.req.value ∧ s.pst ≠ 4 then
      ({ s with temp := s.req.value, fcur := if 3 ≤ s.pst then s.fcur else nextClock s.pst s.fmax s.req.value s.fcur } : State).enterP4.health1 [71, 64]
    else { s with temp := s.req.value, fcur := if 3 ≤ s.pst then s.fcur else nextClock s.pst s.fmax s.req.value s.fcur }) := by
  rw [show exec _ s = execClockControllerTick s from rfl, execClockControllerTick, evClockControllerTick]
  simp only [Bool.and_eq_true, decide_eq_true_eq]

theorem clockTick_trips (ht : 45 ≤ s.req.value) (hp : s.pst ≠ 4) :
    ∃ u, exec .clockControllerTick s = .next u ∧ u.pst = 4 ∧ u.temp = s.req.value ∧ u.hbm = Memory.zero
      ∧ u.pkg = Memory.zero ∧ u.health.getLsbD 71 = true ∧ u.health.getLsbD 64 = true ∧ ∀ c < 64, (u.core c).tile = Memory.zero := by
  let t : State := { s with temp := s.req.value, fcur := if 3 ≤ s.pst then s.fcur else nextClock s.pst s.fmax s.req.value s.fcur }
  have hvec := health1_onlyVectors t.enterP4 [71, 64]
  refine ⟨t.enterP4.health1 [71, 64], (clockTick_eq s).trans (congrArg _ (if_pos ⟨ht, hp⟩)), (congrArg State.pst hvec.1 :), (congrArg State.temp hvec.1 :),
    (congrArg State.hbm hvec.1 :), (congrArg State.pkg hvec.1 :), health1_bit _ (by simp) (by decide), health1_bit _ (by simp) (by decide), fun c hc => ?_⟩
  have hcore : (t.enterP4.health1 [71, 64]).core c = Core.enterP4 (t.core c) := (hvec.core c).trans (core_enterP4 t hc)
  rw [hcore]
  rfl

/-- The clock moves by at most one step and stays within its limits (R415). -/
theorem nextClock_spec {pst fmax temp f : Nat} (hlo : 24 ≤ fmax) (hhi : fmax ≤ 36) (hf : 24 ≤ f) (hf' : f ≤ 36) :
    24 ≤ nextClock pst fmax temp f ∧ nextClock pst fmax temp f ≤ 36 ∧ nextClock pst fmax temp f ≤ f + 1 ∧ f ≤ nextClock pst fmax temp f + 1
    ∧ (pst = 1 → fmax < f → nextClock pst fmax temp f = f - 1) := by
  have hmoves : ∀ {tgt : Nat} {cool : Bool}, 24 ≤ tgt → tgt ≤ 36 →
      let g := if tgt < f then f - 1 else if (decide (f < tgt) && cool) = true then f + 1 else f
      24 ≤ g ∧ g ≤ 36 ∧ g ≤ f + 1 ∧ f ≤ g + 1 ∧ (tgt < f → g = f - 1) := by
    intro tgt cool hl hh
    dsimp only
    split
    · omega
    · split
      · next h =>
        have := of_decide_eq_true (Bool.and_eq_true_iff.mp h).1
        omega
      · omega
  have htgt : 24 ≤ min (if pst = 1 then fmax else 36) (if temp ≤ 30 then 36 else max 24 (36 - (temp - 30)))
      ∧ min (if pst = 1 then fmax else 36) (if temp ≤ 30 then 36 else max 24 (36 - (temp - 30))) ≤ 36 := by
    split <;> split <;> omega
  obtain ⟨h1, h2, h3, h4, h5⟩ := hmoves (cool := temp ≤ 29 || f < 36 - (temp - 29)) htgt.1 htgt.2
  refine ⟨h1, h2, h3, h4, fun hp hlt => h5 ?_⟩
  rw [if_pos hp]
  exact lt_of_le_of_lt (min_le_left _ _) hlt

/-! ### Failures (R417) -/

theorem coreFailure_spec (s : State) : ∃ u, exec .coreFailure s = .next u ∧ (u.core (s.req.core % 64)).failed = true
    ∧ u.health.getLsbD (s.req.core % 64) = true ∧ u.health.getLsbD 64 = true
    ∧ (∀ d, d ≠ s.req.core % 64 → u.core d = s.core d) ∧ memSame s u := by
  have hc : s.req.core % 64 < 64 := Nat.mod_lt _ (by decide)
  refine ⟨_, rfl, ?_, health1_bit _ (List.mem_cons_self ..) (by omega), health1_bit _ (by simp) (by decide), fun d hd => ?_, health1_memSame _ _⟩
  · rw [evCoreFailure, health1_core, show s.rcore = s.req.core % 64 from rfl, State.core_onCore_same s hc]
  · rw [evCoreFailure, health1_core, show s.rcore = s.req.core % 64 from rfl, State.core_onCore_ne s hd]

/-! ### Uncorrectable errors (R122, R214, R273) -/

theorem onBand_id {c n : Nat} {b : Band} (hb : s.band c n = some b) {f : Band → Band} (hf : f b = b) : s.onBand c n f = s := by
  rw [onBand_congr hb (g := id) hf]
  have hmod : ∀ l : List (Nat × Band), amod l n id = l := by
    intro l
    induction l with
    | nil => rfl
    | cons e t ih => by_cases h : n = e.1 <;> simp [amod, ih]
  exact onCore_id (f := fun k => { k with bands := amod k.bands n id }) (by rw [hmod])

theorem and_not_and (a m : Word) : a &&& ~~~m &&& m = 0 := by
  apply BitVec.eq_of_getLsbD_eq
  intro i hi
  simp [hi]

theorem evUeStrand_band {c n : Nat} {b : Band} (hc : s.rcore = c) (hn : s.req.n = n) (hb : s.band c n = some b) : evUeStrand s =
    (s.strandsDie c n (s.rv &&& ~~~b.dead) 0 0).onBand c n fun b =>
      if b.unfinished = some 0 && b.st == .parked then { b with unfinished := none, pc := b.pc + 8, st := .ready, readySince := s.cycle } else b := by
  rw [evUeStrand, hc, hn]
  simp only [hb]

/-- Strands of a band that die leave its masks; the band goes on and a record is written. -/
theorem strandsDie_spec {c n : Nat} {b : Band} {m : Word} (hc : c < 64) (hb : s.band c n = some b) (hm : m ≠ 0) (hx : b.slot < 256) (va pte : Word) :
    (s.strandsDie c n m va pte).band c n = some (b.kill m) ∧ (s.strandsDie c n m va pte).health.getLsbD 70 = true
    ∧ faultRaised (s.strandsDie c n m va pte) b.slot (.band c n) .ueStrand := by
  have hvec := health1_onlyVectors s [70]
  have hb' : (s.health1 [70]).band c n = some b := by
    rw [State.band, hvec.core]
    exact hb
  have hkill : ((s.health1 [70]).killStrands c n m).band c n = some (b.kill m) ∧ ((s.health1 [70]).killStrands c n m).health = (s.health1 [70]).health := by
    have hfirst : ((s.health1 [70]).onBand c n fun b => b.kill m).band c n = some (b.kill m) := by
      rw [State.band_onBand_same _ hc, hb']
      rfl
    unfold State.killStrands
    rw [hb']
    dsimp only
    split
    · refine ⟨?_, rfl⟩
      rw [State.band, State.core_onCore_same _ hc]
      exact hfirst
    · exact ⟨hfirst, rfl⟩
  rw [State.strandsDie, hb]
  dsimp only
  rw [if_neg hm]
  refine ⟨?_, ?_, takeFault_raises hx _ _ _ _ _⟩
  · rw [State.band, takeFault_core]
    exact hkill.1
  · rw [takeFault_health, hkill.2]
    exact health1_bit _ (by simp) (by decide)

theorem ueStrand_spec {n : Nat} {b : Band} (hn : s.req.n = n) (hb : s.band (s.req.core % 64) n = some b) (hu : b.unfinished = none) (hx : b.slot < 256) :
    let c := s.req.core % 64
    let m := BitVec.ofNat 64 s.req.value &&& ~~~b.dead
    (m = 0 → exec .ueStrand s = .next s)
    ∧ (m ≠ 0 → ∃ u b', exec .ueStrand s = .next u ∧ u.band c n = some b' ∧ b'.live = b.live &&& ~~~m ∧ b'.dead = b.dead ||| m ∧ b'.pc = b.pc
        ∧ (∀ e ∈ b'.stack, e.mask &&& m = 0) ∧ u.health.getLsbD 70 = true ∧ faultRaised u b.slot (.band c n) .ueStrand) := by
  intro c m
  have hc : c < 64 := Nat.mod_lt _ (by decide)
  have hrun : exec .ueStrand s = .next (evUeStrand s) := rfl
  rw [hrun, evUeStrand_band (c := c) rfl hn hb]
  have hrv : s.rv &&& ~~~b.dead = m := rfl
  rw [hrv]
  refine ⟨fun h0 => ?_, fun h0 => ?_⟩
  · have hdie : s.strandsDie c n m 0 0 = s := by
      rw [State.strandsDie, show s.band c n = some b from hb]
      exact if_pos h0
    rw [hdie, onBand_id (s := s) hb (by simp [hu])]
  · obtain ⟨hband, hhealth, hraised⟩ := strandsDie_spec (va := 0) (pte := 0) hc hb h0 hx
    rw [onBand_id hband (by simp [Band.kill, hu])]
    refine ⟨_, _, rfl, hband, rfl, rfl, rfl, fun e he => ?_, hhealth, hraised⟩
    obtain ⟨e', -, rfl⟩ := List.mem_map.mp he
    exact and_not_and _ _

/-- A core whose sequencer has stopped at a bundle. -/
def stoppedAt (epc : Word) (k : Core) : Core := { k with seq := { k.seq with phase := .faulted, pc := epc } }

/-- A core whose sequencer keeps what a decision on its fault needs. -/
def keepingFault (f : SeqFault) (k : Core) : Core := { k with seq := { k.seq with fault := some f } }

theorem seqFault_eq {c : Nat} {w : SeqUnit} (hw : (s.core c).unit = some w) (k : FKind) (pc epc va pte : Word) :
    ∃ f, s.seqFault c k pc epc va pte = ((s.onCore c (stoppedAt epc)).takeFault (s.core c).unitCtx (s.seqRecord c k pc va pte) (.seq c) 1 w.cls).onCore c
      (keepingFault f) := by
  rw [State.seqFault, hw]
  exact ⟨_, rfl⟩

/-- A sequencer's fault stops it at its bundle; the record waits in a FAULT sluice (R76, R138). -/
theorem seqFault_spec {c : Nat} {w : SeqUnit} (hc : c < 64) (hw : (s.core c).unit = some w) (hx : (s.core c).unitCtx < 256) (k : FKind) (pc epc va pte : Word) :
    ((s.seqFault c k pc epc va pte).core c).seq.phase = .faulted ∧ ((s.seqFault c k pc epc va pte).core c).seq.s = (s.core c).seq.s
    ∧ (s.seqFault c k pc epc va pte).health = s.health ∧ faultRaised (s.seqFault c k pc epc va pte) (s.core c).unitCtx (.seq c) k := by
  obtain ⟨f, hf⟩ := seqFault_eq hw k pc epc va pte
  have hcore : (s.seqFault c k pc epc va pte).core c = keepingFault f (stoppedAt epc (s.core c)) := by
    rw [hf, State.core_onCore_same _ hc, takeFault_core, State.core_onCore_same _ hc]
  refine ⟨by rw [hcore]; rfl, by rw [hcore]; rfl, ?_, ?_⟩
  · rw [hf, State.onCore_health, takeFault_health, State.onCore_health]
  · have hraised := takeFault_raises (s := s.onCore c (stoppedAt epc)) hx (s.seqRecord c k pc va pte) (.seq c) 1 w.cls 0
    rw [hf]
    exact hraised

theorem ueSeq_spec {w : SeqUnit} (hw : (s.core (s.req.core % 64)).unit = some w) (hx : ctxSlot w.part w.ctx.toNat < 256)
    (hrun : (s.core (s.req.core % 64)).seq.phase = .run) :
    ∃ u, exec .ueSeq s = .next u ∧ u.health.getLsbD 70 = true ∧ (u.core (s.req.core % 64)).seq.phase = .faulted
      ∧ faultRaised u (s.core (s.req.core % 64)).unitCtx (.seq (s.req.core % 64)) .ueSeq
      ∧ (u.core (s.req.core % 64)).seq.s = (s.core (s.req.core % 64)).seq.s := by
  have hc : s.req.core % 64 < 64 := Nat.mod_lt _ (by decide)
  have hslot : ((s.health1 [70]).core (s.req.core % 64)).unitCtx < 256 := by
    rw [health1_core, Core.unitCtx, hw]
    exact hx
  obtain ⟨hphase, hregs, hhealth, hraised⟩ := seqFault_spec hc (by rw [health1_core]; exact hw) hslot .ueSeq (s.core (s.req.core % 64)).seq.pc
    (s.core (s.req.core % 64)).seq.pc 0 0
  have hev : exec .ueSeq s = .next (evUeSeq s) := rfl
  rw [hev, evUeSeq, show s.rcore = s.req.core % 64 from rfl]
  simp only [hw, hrun, Option.isNone_some, Bool.false_eq_true, if_false, if_true]
  refine ⟨_, rfl, ?_, hphase, ?_, ?_⟩
  · rw [hhealth]
    exact health1_bit _ (by simp) (by decide)
  · rwa [health1_core] at hraised
  · rw [hregs, health1_core]

theorem uePageFrame_spec {x tensor page h ea : Nat} {t : BitVec 512} {e : Word} (hx : x = 16 * (s.req.part % 16) + s.req.ctx % 16)
    (hpage : s.pageAt x (BitVec.ofNat 64 s.req.addr) = .ok (t, tensor, page, h, ea, e)) (hv : leafV e = true) (hl : baseHome e ≤ 1) (hh : h ≤ 1)
    (htlb : ∀ c < 64, (s.core c).tlb = []) :
    ∃ u, exec .uePageFrame s = .next u ∧ u.health.getLsbD 70 = true
      ∧ u.home h = (s.home h).writeBytes ea (bytesOfNat 8 ((e.toNat &&& (2 ^ 63 - 1 - 7 * 2 ^ 40)) ||| 2 * 2 ^ 40)) ∧ u.home (1 - h) = s.home (1 - h) := by
  let t₁ := s.homeWrite h ea (bytesOfNat 8 ((e.toNat &&& (2 ^ 63 - 1 - 7 <<< 40)) ||| 2 <<< 40))
  have htlb' : ∀ c < 64, (t₁.core c).tlb = [] := fun c hc => by
    rw [show t₁.core c = s.core c from homeWrite_core _ _ _ _]
    exact htlb c hc
  have hsame : memSame t₁ (s.poisonPage x tensor page h ea e) := memSame_trans (invalidate_empty x (some tensor) page page none htlb') (health1_memSame _ _)
  have hrun : exec .uePageFrame s = .next (s.poisonPage x tensor page h ea e) := by
    have hpage' : s.pageAt s.rx (BitVec.ofNat 64 s.req.addr) = .ok (t, tensor, page, h, ea, e) := by rw [← hpage, hx]; rfl
    rw [show exec _ s = execUePageFrame s from rfl, execUePageFrame, evUePageFrame, hpage']
    simp only [hv, decide_eq_true hl, Bool.and_self, if_true]
    rw [hx]
    rfl
  refine ⟨_, hrun, health1_bit _ (by simp) (by decide), ?_, ?_⟩
  · rw [hsame h, home_homeWrite s hh hh, if_pos rfl]
    simp only [Nat.shiftLeft_eq]
  · rw [hsame (1 - h), home_homeWrite s (by omega) hh, if_neg (by omega)]

end

/-- Settles O47: module reset field by field, then the events that fail parts of the device. -/
theorem moduleEvents : Obligations.ModuleEvents := by
  refine ⟨fun s => ?reset, fun s h => ?_, fun s ht hp => clockTick_trips ht hp, fun pst fmax temp f => nextClock_spec, coreFailure_spec, fun s => ?hbm,
    fun s n b => fun hn hb _ hu hx => ueStrand_spec hn hb hu hx, fun s w => fun hw hx hrun => ueSeq_spec hw hx hrun, fun s h => ?_,
    fun s x t tensor page h ea e hx hpage hv hl hh htlb => uePageFrame_spec hx hpage hv hl hh htlb⟩
  case reset =>
    obtain ⟨t, hrun, hrest, hparts, hcores, hhealth⟩ := moduleReset_spec s
    have hfw : (t.fwStatus, t.fwVersion) = bootFirmware s := (congrArg (fun v : State => (v.fwStatus, v.fwVersion)) hrest :)
    refine ⟨t, hrun, (congrArg State.hbm hrest :), (congrArg State.pkg hrest :), (congrArg State.pst hrest :), fun p _ => hparts p,
      (congrArg State.ctxs hrest :), (congrArg State.ports hrest :), (congrArg State.e2et hrest :), (congrArg State.fuses hrest :),
      (congrArg State.counter hrest :), fun c _ => ?_, fun h0 hv => ?_, fun h0 h1 hv => ?_, fun h0 h1 => ?_, hhealth⟩
    · simpa [bootCore] using hcores c
    · rw [bootFirmware_first h0 hv] at hfw
      exact Prod.mk.inj hfw
    · rw [bootFirmware_second h0 h1 hv] at hfw
      exact Prod.mk.inj hfw
    · rw [bootFirmware_none h0 h1] at hfw
      exact (Prod.mk.inj hfw).1
  case hbm =>
    exact ⟨_, rfl, health1_bit _ (List.mem_cons_self ..) (by omega), health1_bit _ (by simp) (by decide), (health1_onlyVectors s _).cores⟩
  · rw [clockTick_eq, if_neg (by omega)]
  · have hev : exec .ueSeq s = .next (evUeSeq s) := rfl
    rw [hev, evUeSeq, show s.rcore = s.req.core % 64 from rfl, h]
    rfl

end Sys2Proof.Proofs
end

section
/-!
SUPPORT. The log, the launches, the local homes and the sluices leave the cores as they are; sequencer units start, end and are saved
(R106 to R108, R118, R132 to R134).
-/

namespace Sys2Proof.Proofs

open Sys2Proof Sys2Proof.Machine Sys2Proof.Claims

section
variable {s t u : State}

/-! ### Only the bytes of the local homes -/

/-- Nothing but the bytes of the local homes has changed. -/
def onlyHomes (s t : State) : Prop := { t with hbm := s.hbm, pkg := s.pkg } = s

theorem onlyHomes_refl (s : State) : onlyHomes s s := rfl

theorem onlyHomes_trans (h : onlyHomes s t) (h' : onlyHomes t u) : onlyHomes s u :=
  (congrArg (fun v : State => ({ v with hbm := s.hbm, pkg := s.pkg } : State)) h').trans h

theorem onlyHomes.cores (h : onlyHomes s t) : t.cores = s.cores := (congrArg State.cores h :)
theorem onlyHomes.core (h : onlyHomes s t) (c : Nat) : t.core c = s.core c := core_of_cores h.cores c
theorem onlyHomes.ctx (h : onlyHomes s t) (x : Nat) : t.ctx x = s.ctx x := (congrArg (fun v : State => v.ctx x) h :)
theorem onlyHomes.part (h : onlyHomes s t) (p : Nat) : t.part p = s.part p := (congrArg (fun v : State => v.part p) h :)

theorem setHome_onlyHomes (s : State) (h : Nat) (m : Memory) : onlyHomes s (s.setHome h m) := setHome_rest s h m
theorem homeWrite_onlyHomes (s : State) (h a : Nat) (bs : List Byte) : onlyHomes s (s.homeWrite h a bs) := setHome_rest s h _

theorem onlyHomes.setHome (h : onlyHomes s t) (e : Nat) (m : Memory) : onlyHomes s (t.setHome e m) :=
  onlyHomes_trans h (setHome_onlyHomes t e m)
theorem onlyHomes.homeWrite (h : onlyHomes s t) (e a : Nat) (bs : List Byte) : onlyHomes s (t.homeWrite e a bs) :=
  onlyHomes_trans h (homeWrite_onlyHomes t e a bs)

theorem onlyHomes.foldl {α : Type} (h : onlyHomes s t) (l : List α) (f : State → α → State) (hf : ∀ u a, onlyHomes s u → onlyHomes s (f u a)) :
    onlyHomes s (l.foldl f t) :=
  List.foldlRecOn (motive := fun u : State => onlyHomes s u) l f h fun u hu a _ => hf u a hu

theorem onlyHomes.ite {c : Prop} [Decidable c] {v : State} (ha : onlyHomes s t) (hb : onlyHomes s v) :
    onlyHomes s (if c then t else v) := by
  split <;> assumption

theorem onlyHomes.ringWrite {e base cap : Nat} : ∀ {bs : List Byte} {t : State} {pos : Nat}, onlyHomes s t → onlyHomes s (t.ringWrite e base cap pos bs)
  | [], _, _, h => h
  | _ :: _, _, _, h => (h.homeWrite _ _ _).ringWrite

theorem onlyHomes.putRecord (h : onlyHomes s t) (e base : Nat) (b : Nat × Band) : onlyHomes s (t.putRecord e base b) := by
  unfold State.putRecord
  exact .ite h (((h.foldl _ _ fun _ _ hu => hu.homeWrite _ _ _).homeWrite _ _ _).homeWrite _ _ _)

theorem onlyHomes.putVectors (h : onlyHomes s t) (e base v : Nat) (b : Nat × Band) : onlyHomes s (t.putVectors e base v b) := by
  unfold State.putVectors
  exact .ite h ((h.setHome _ _).foldl _ _ fun _ _ hu => hu.homeWrite _ _ _)

/-- The components of an image are bytes of the save area's home (R108). -/
theorem saveBytes_onlyHomes (s : State) (c x : Nat) (im : SaveImage) (withSeq : Bool) (new : List Nat) :
    onlyHomes s (s.saveBytes c x im withSeq new) := by
  unfold State.saveBytes
  obtain ⟨h, base⟩ := (s.ctx x).imageBase c
  dsimp -zeta only
  extract_lets k copy blur s1 s2 s3 s4 s5 s6 s7 s8
  have h2 : onlyHomes s s2 := ((onlyHomes_refl s).foldl _ _ fun _ _ hu => hu.homeWrite _ _ _).setHome _ _
  have h3 : onlyHomes s s3 := h2.homeWrite _ _ _
  have h4 : onlyHomes s s4 := .ite (h3.setHome _ _) h3
  have h5 : onlyHomes s s5 := .ite (h4.setHome _ _) h4
  have h6 : onlyHomes s s6 := .ite (h5.setHome _ _) h5
  have h7 : onlyHomes s s7 := .ite ((h6.setHome _ _).setHome _ _) h6
  have h8 : onlyHomes s s8 := .ite (.ite (h7.setHome _ _) h7) h2
  exact h8.foldl _ _ fun _ e hu => (hu.putRecord _ _ e).putVectors _ _ _ e

/-! ### The cores while logs, launches and contexts change -/

theorem raiseVector_cores (s : State) (p v : Nat) (z : Option (BitVec 4)) : (s.raiseVector p v z).cores = s.cores :=
  (raiseVector_onlyVectors s p v z).cores

theorem log_cores (s : State) (x kind : Nat) (payload : List Byte) (core : Nat) : (s.log x kind payload core).cores = s.cores := by
  unfold State.log
  extract_lets k cap e used t
  split
  · rfl
  · split
    · exact raiseVector_cores _ _ _ _
    · exact (onlyHomes_refl s).ringWrite.cores

theorem boundary_cores (s : State) (x : Nat) : (s.boundary x).cores = s.cores := by
  unfold State.boundary
  extract_lets k t u
  split
  · rfl
  · exact log_cores t _ _ _ _

theorem settleContext_cores (s : State) (x : Nat) : (s.settleContext x).cores = s.cores := by
  unfold State.settleContext
  extract_lets k
  split
  · exact boundary_cores _ _
  · rfl

theorem setLaunch_cores (s : State) (x id : Nat) (st : LState) : (s.setLaunch x id st).cores = s.cores := by
  unfold State.setLaunch
  extract_lets code last t
  split <;> rfl

theorem checkLaunch_cores (s : State) (x id : Nat) : (s.checkLaunch x id).cores = s.cores := by
  unfold State.checkLaunch
  split
  · rfl
  · extract_lets ends began t st open1
    have ht : t.cores = s.cores := by
      show (if _ then _ else _ : State).cores = _
      split
      · exact setLaunch_cores _ _ _ _
      · rfl
    split
    · exact (settleContext_cores _ _).trans ((setLaunch_cores _ _ _ _).trans ht)
    · exact ht

theorem settlePreempt_cores (s : State) (x : Nat) : (s.settlePreempt x).cores = s.cores := by
  unfold State.settlePreempt
  dsimp only
  split <;> rfl

/-- What the settling of a pre-emption changes of a context is its state (R106). -/
theorem settlePreempt_images {x : Nat} (hx : x < 256) : ((s.settlePreempt x).ctx x).images = (s.ctx x).images := by
  unfold State.settlePreempt
  dsimp only
  split
  · rw [State.ctx_onCtx_same s hx]
  · rfl

theorem coreFreed_ctx (s : State) (c x : Nat) : (s.coreFreed c).ctx x = s.ctx x := by
  refine List.foldlRecOn (motive := fun t : State => t.ctx x = s.ctx x) _ _ rfl fun t ht p _ => ?_
  split
  · refine Eq.trans ?_ ht
    exact (congrArg (fun v : State => v.ctx x) ((butSluices_raiseSteals _ p).trans (butSluices_raiseDispatch t p)) :)
  · exact ht

theorem ctx_onCore (s : State) (c x : Nat) (f : Core → Core) : (s.onCore c f).ctx x = s.ctx x := rfl

/-- What a change of one context keeps in all contexts it could be, it keeps in each. -/
theorem ctx_onCtx_proj {α : Type} (g : Context → α) {f : Context → Context} (hf : ∀ k, g (f k) = g k) (s : State) (x y : Nat) :
    g ((s.onCtx x f).ctx y) = g (s.ctx y) := by
  by_cases hy : y = x
  · subst hy
    by_cases hx : y < 256
    · rw [State.ctx_onCtx_same s hx, hf]
    · simp only [State.ctx, State.onCtx, Vector.getElem?_eq_none (Nat.le_of_not_lt hx)]
  · rw [State.ctx_onCtx_ne s hy]

/-! ### Sequencer units start (R129, R133) -/

section
variable {c x index cls : Nat} {task : Option Nat} {launch : BitVec 32} {entry arg mode : Word}

/-- The core once the unit stands on it. -/
theorem startSeq_spec (s : State) (hc : c < 64) : ∃ k, (s.startSeq c x task launch index cls entry arg mode).core c = k
    ∧ k.unit = some ⟨BitVec.ofNat 4 (x / 16), BitVec.ofNat 8 (x % 16), launch, task, index, cls, false⟩
    ∧ (k.seq.phase = .run ∧ k.seq.pc = entry ∧ k.seq.s[0]? = some (some 0) ∧ k.seq.s[3]? = some (some (BitVec.ofNat 64 c))
      ∧ k.seq.c[0]? = some (some true))
    ∧ k.list = (s.core c).list ∧ k.bands = (s.core c).bands ∧ k.lq = Vector.replicate 4 []
    ∧ k.rq = (s.core c).rq.filter fun e => (s.core c).laneQueue e.2 := by
  unfold State.startSeq
  obtain ⟨h, base⟩ := (s.ctx x).imageBase c
  dsimp only
  rw [State.core_onCore_same _ hc, State.core_onCtx]
  exact ⟨_, rfl, rfl, ⟨rfl, rfl, rfl, by simp, rfl⟩, rfl, rfl, rfl, rfl⟩

theorem startSeq_core_ne (s : State) {d : Nat} (hd : d ≠ c) : (s.startSeq c x task launch index cls entry arg mode).core d = s.core d := by
  unfold State.startSeq
  obtain ⟨h, base⟩ := (s.ctx x).imageBase c
  dsimp only
  rw [State.core_onCore_ne _ hd, State.core_onCtx]

/-- Of the contexts only the receive-queue words change. -/
theorem startSeq_ctx {α : Type} (g : Context → α) (hg : ∀ k l, g { k with rqs := l } = g k) (s : State) (y : Nat) :
    g ((s.startSeq c x task launch index cls entry arg mode).ctx y) = g (s.ctx y) := by
  unfold State.startSeq
  obtain ⟨h, base⟩ := (s.ctx x).imageBase c
  dsimp only
  refine Eq.trans (congrArg g (ctx_onCore _ _ _ _)) ?_
  exact ctx_onCtx_proj g (fun k => hg k _) s x y

end

/-- The units of a start vector start. -/
def startVector (s : State) (x : Nat) (lid : BitVec 32) (v : List (Nat × Word)) : State :=
  v.foldl (fun (s : State) e => s.startSeq e.1 x none lid e.1 0 e.2 0 0) s

theorem startVector_core_ne {x d : Nat} {lid : BitVec 32} {v : List (Nat × Word)} (s : State) (hd : ∀ e ∈ v, e.1 ≠ d) :
    (startVector s x lid v).core d = s.core d :=
  List.foldlRecOn (motive := fun t : State => t.core d = s.core d) v _ rfl fun t ht e he => (startSeq_core_ne t (hd e he).symm).trans ht

theorem startVector_launches {x : Nat} (lid : BitVec 32) (v : List (Nat × Word)) (s : State) :
    ((startVector s x lid v).ctx x).launches = (s.ctx x).launches :=
  List.foldlRecOn (motive := fun t : State => (t.ctx x).launches = (s.ctx x).launches) v _ rfl fun t ht _ _ => 
    (startSeq_ctx Context.launches (fun _ _ => rfl) t x).trans ht

/-- Each core of a start vector that names no core twice is as its own start leaves it. -/
theorem startVector_core {x : Nat} {lid : BitVec 32} {v : List (Nat × Word)} (hv : (v.map fun e => e.1).Nodup) (s : State) :
    ∀ e ∈ v, ∃ t : State, (startVector s x lid v).core e.1 = (t.startSeq e.1 x none lid e.1 0 e.2 0 0).core e.1 := by
  induction v generalizing s with
  | nil => simp
  | cons a v ih =>
    obtain ⟨ha, hv⟩ := List.nodup_cons.mp hv
    intro e he
    rcases List.mem_cons.mp he with rfl | he
    · exact ⟨s, startVector_core_ne _ fun b hb heq => ha (List.mem_map.mpr ⟨b, hb, heq⟩)⟩
    · exact ih hv _ e he

theorem launchPlace_eq {x : Nat} {l : Launch} {v : List (Nat × Word)} (hx : s.rx = x) (hl : aget (s.ctx x).launches s.req.n = some l)
    (hv : l.vector = some v) (hst : l.st = .pending) : exec .launchPlaceStartVector s = .next
      (if v.all fun e => (s.core e.1).unit.isNone && !(s.core e.1).failed && (s.core e.1).bands.all fun b => b.2.slot = x
       then startVector (s.setLaunch x s.req.n .running) x l.id v else s) := by
  rw [show exec _ s = execLaunchPlaceStartVector s from rfl, execLaunchPlaceStartVector, evLaunchPlaceStartVector, hx]
  simp only [hl, hv, hst, ne_eq, not_true_eq_false, decide_false, Bool.false_or, Bool.not_eq_true']
  cases v.all fun e => (s.core e.1).unit.isNone && !(s.core e.1).failed && (s.core e.1).bands.all fun b => b.2.slot = x <;> rfl

theorem setLaunch_launches (s : State) {x id : Nat} (hx : x < 256) (st : LState) :
    ((s.setLaunch x id st).ctx x).launches = amod (s.ctx x).launches id fun l => { l with st := st } := by
  unfold State.setLaunch
  extract_lets code last t
  have ht : (t.ctx x).launches = amod (s.ctx x).launches id fun l => { l with st := st } := by rw [State.ctx_onCtx_same s hx]
  split
  · exact ht
  · exact ht

/-- A start-vector launch whose cores are free begins on all of them (R132). -/
theorem launchPlace_free {p x : Nat} {l : Launch} {v : List (Nat × Word)} (hp : p < 16) (hx : x < 16) (hrx : s.rx = 16 * p + x)
    (hl : aget (s.ctx (16 * p + x)).launches s.req.n = some l) (hv : l.vector = some v) (hst : l.st = .pending)
    (hfree : ∀ e ∈ v, ((s.core e.1).unit = none ∧ (s.core e.1).failed = false ∧ ∀ b ∈ (s.core e.1).bands, b.2.slot = 16 * p + x) ∧ e.1 < 64)
    (hnd : (v.map fun e => e.1).Nodup) : ∃ u, exec .launchPlaceStartVector s = .next u
      ∧ (aget (u.ctx (16 * p + x)).launches s.req.n).map (fun l => l.st) = some .running
      ∧ (∀ e ∈ v, ((u.core e.1).unit.map fun w => (w.part.toNat, w.ctx.toNat, w.launch, w.task, w.index)) = some (p, x, l.id, none, e.1)
          ∧ (u.core e.1).seq.phase = .run ∧ (u.core e.1).seq.pc = e.2 ∧ (u.core e.1).seq.s[0]? = some (some 0)
          ∧ (u.core e.1).seq.s[3]? = some (some (BitVec.ofNat 64 e.1)) ∧ (u.core e.1).seq.c[0]? = some (some true))
      ∧ (∀ d, (∀ e ∈ v, e.1 ≠ d) → u.core d = s.core d) := by
  have hall : (v.all fun e => (s.core e.1).unit.isNone && !(s.core e.1).failed && (s.core e.1).bands.all fun b => b.2.slot = 16 * p + x) = true := by
    refine List.all_eq_true.mpr fun e he => ?_
    obtain ⟨⟨hunit, hfailed, hbands⟩, -⟩ := hfree e he
    simpa [hunit, hfailed] using hbands
  have hcores := setLaunch_cores s (16 * p + x) s.req.n .running
  refine ⟨_, (launchPlace_eq hrx hl hv hst).trans (by rw [if_pos hall]), ?_, fun e he => ?_, fun d hd => ?_⟩
  · rw [startVector_launches, setLaunch_launches s (by omega), aget_amod, if_pos rfl, hl]
    rfl
  · obtain ⟨t, ht⟩ := startVector_core hnd (s.setLaunch (16 * p + x) s.req.n .running) e he
    obtain ⟨k, hk, hunit, hseq, -⟩ := startSeq_spec (x := 16 * p + x) (index := e.1) (cls := 0) (task := none) (launch := l.id) (entry := e.2) (arg := 0) (mode := 0) t (hfree e he).2
    rw [ht, hk, hunit]
    refine ⟨?_, hseq⟩
    simp only [Option.map_some, BitVec.toNat_ofNat, Option.some.injEq, Prod.mk.injEq, and_true]
    omega
  · rw [startVector_core_ne _ hd, core_of_cores hcores]

/-! ### Units retire (R134) -/

/-- A core whose sequencer unit has gone holds nothing of it; the bands stay. -/
theorem clearUnit_spec (k : Core) : k.clearUnit.tidyLeaves.unit = none ∧ k.clearUnit.tidyLeaves.seq.phase = .idle ∧ k.clearUnit.tidyLeaves.tiles = []
    ∧ k.clearUnit.tidyLeaves.bands = k.bands := ⟨rfl, rfl, rfl, rfl⟩

/-- The core once its unit has retired. -/
def retiredCore (s : State) (c : Nat) : Core :=
  ({ s.core c with seq := (s.core c).seq.settle s.cycle } : Core).clearUnit.tidyLeaves

theorem unitRetire_cores {c : Nat} {w : SeqUnit} (hc : s.rcore = c) (hw : (s.core c).unit = some w) (hph : (s.core c).seq.phase = .ended)
    (hm : s.unitMarked c w = true) (hd : (s.core c).drained = true) :
    ∃ t, exec .unitRetire s = .next t ∧ t.cores = (s.setCore c (retiredCore s c)).cores := by
  rw [show exec _ s = execUnitRetire s from rfl, execUnitRetire, evUnitRetire, hc]
  dsimp only
  rw [hw]
  dsimp only
  rw [hph, hm, hd, if_neg (by decide)]
  refine ⟨_, rfl, ?_⟩
  have hfreed : ((s.setCore c (retiredCore s c)).coreFreed c).cores = (s.setCore c (retiredCore s c)).cores := coreFreed_cores _ _
  cases w.task with
  | some slot =>
    dsimp only
    split
    · exact (raiseVector_cores _ _ _ _).trans hfreed
    · exact hfreed
  | none =>
    refine (checkLaunch_cores _ _ _).trans ?_
    rw [State.onCtx_cores]
    split
    · exact (raiseVector_cores _ _ _ _).trans hfreed
    · exact hfreed

theorem unitRetire_spec {c : Nat} {w : SeqUnit} (hc : s.rcore = c) (hlt : c < 64) (hw : (s.core c).unit = some w) (hph : (s.core c).seq.phase = .ended)
    (hm : s.unitMarked c w = true) (hd : (s.core c).drained = true) :
    ∃ t, exec .unitRetire s = .next t ∧ (t.core c).unit = none ∧ (t.core c).seq.phase = .idle ∧ (t.core c).tiles = []
      ∧ (t.core c).bands = (s.core c).bands ∧ ∀ d, d ≠ c → t.core d = s.core d := by
  obtain ⟨t, hrun, hcores⟩ := unitRetire_cores hc hw hph hm hd
  obtain ⟨hunit, hphase, htiles, hbands⟩ := clearUnit_spec ({ s.core c with seq := (s.core c).seq.settle s.cycle } : Core)
  have hcore : t.core c = retiredCore s c := (core_of_cores hcores c).trans (State.core_setCore_same s hlt _)
  refine ⟨t, hrun, ?_⟩
  rw [hcore]
  exact ⟨hunit, hphase, htiles, hbands, fun d hd => (core_of_cores hcores d).trans (State.core_setCore_ne s hd _)⟩

theorem unitRetire_stays {c : Nat} {w : SeqUnit} (hc : s.rcore = c) (hw : (s.core c).unit = some w)
    (h : (s.core c).seq.phase ≠ .ended ∨ s.unitMarked c w = false ∨ (s.core c).drained = false) : exec .unitRetire s = .next s := by
  rw [show exec _ s = execUnitRetire s from rfl, execUnitRetire, evUnitRetire, hc]
  dsimp only
  rw [hw]
  dsimp only
  rw [if_pos]
  rcases h with h | h | h <;> simp [h]

/-! ### Saves end (R107) -/

/-- The save of a core on which a sequencer unit stands alone (R107, R108, R340). -/
theorem saveCore_spec {c x t : Nat} {w : SeqUnit} (hc : c < 64) (hx : x < 256) (hw : (s.core c).unit = some w)
    (hleaves : (s.core c).seqLeaves x t = true) (hbands : (s.core c).bands = []) : ∃ k, (s.saveCore c x t).core c = k
      ∧ k.unit = none ∧ k.seq.phase = .idle ∧ k.list = (s.core c).list
      ∧ k.returning = (s.core c).returning ++ [⟨.seqUnit, w.task, w.index, [c], BitVec.ofNat 8 (x % 16), true⟩]
      ∧ ((aget ((s.saveCore c x t).ctx x).images (logical (s.ctx x).cores c)).bind fun im => im.unit) = some w := by
  have hout : (s.core c).leaving x t = [] := by rw [Core.leaving, hbands]; rfl
  unfold State.saveCore
  extract_lets k withSeq out units j old oldBands blank slots place rename mine ownerTo at1 goes issuerTo laneIds saved bands vbase rest stays leaves im s1
    gone ctx back s2 s3 s4
  have hseq : withSeq = true := hleaves
  have hunits : units = [] := congrArg laneUnitsOf hout
  have hs1 : onlyHomes s s1 := saveBytes_onlyHomes _ _ _ _ _ _
  have hunit : im.unit = some w := (if_pos hseq).trans hw
  have hback : back = [⟨.seqUnit, w.task, w.index, [c], BitVec.ofNat 8 (x % 16), true⟩] := by
    simp only [back, k, hw, hseq, hunits, if_pos, List.map_nil, List.append_nil, ctx]
  clear_value withSeq im s1 back rest stays leaves goes gone mine
  have hcore : ((s4.settlePreempt x).coreFreed c).core c = s3.core c := core_of_cores ((coreFreed_cores _ _).trans (settlePreempt_cores _ _)) c
  have hbefore : s2.core c = s.core c := hs1.core c
  have himages : (s4.ctx x).images = aput (s1.ctx x).images j im := by
    show (s2.ctx x).images = _
    rw [State.ctx_onCtx_same _ hx, hunit]
    rfl
  refine ⟨_, rfl, ?_⟩
  rw [coreFreed_ctx, settlePreempt_images hx, himages, show logical (s.ctx x).cores c = j from rfl, aget_aput_same, hcore, State.core_onCore_same _ hc, hbefore, hseq, hback]
  exact ⟨rfl, rfl, rfl, rfl, hunit⟩

theorem holdFlips_keeps (s : State) (c x : Nat) (l : List BarFlip) : (s.holdFlips c x l).cores = s.cores ∧ (s.holdFlips c x l).ctxs = s.ctxs := ⟨rfl, rfl⟩

/-- CORE_SAVE_COMPLETE of a core on which a sequencer unit stands alone. -/
theorem coreSaveComplete_eq {c x : Nat} {f : Nat × Nat × Nat} (hc : s.rcore = c) (hx : s.rx = x)
    (hf : ((s.ctx x).freezing.find? fun f => f.1 = c) = some f) (hbands : (s.core c).bands = []) (hleaves : (s.core c).seqLeaves x f.2.1 = true) :
    ((s.core c).atRest = false → exec .coreSaveComplete s = .next s)
    ∧ ((s.core c).atRest = true → s.pens = [] → ∃ t, exec .coreSaveComplete s = .next t ∧ t.cores = (s.saveCore c x f.2.1).cores
      ∧ t.ctxs = (s.saveCore c x f.2.1).ctxs) := by
  have hout : (s.core c).leaving x f.2.1 = [] := by rw [Core.leaving, hbands]; rfl
  have hlanes : (s.core c).lanesAtRest (laneUnitsOf []) = true := by
    simp [Core.lanesAtRest, CopyCmd.ofUnits, laneUnitsOf]
  rw [show exec _ s = execCoreSaveComplete s from rfl, execCoreSaveComplete, evCoreSaveComplete, hc, hx]
  dsimp only
  rw [hf]
  dsimp only
  rw [hout, hleaves]
  refine ⟨fun hrest => ?_, fun hrest hpens => ?_⟩
  · rw [hrest]
    rfl
  · rw [hrest, hlanes, hpens]
    simp only [List.any_nil, Bool.not_true, Bool.and_false, Bool.or_false, Bool.false_eq_true, if_false]
    refine ⟨_, rfl, ?_⟩
    split
    · exact ⟨rfl, rfl⟩
    · exact holdFlips_keeps _ _ _ _

theorem coreSaveComplete_spec {c x : Nat} {f : Nat × Nat × Nat} {w : SeqUnit} (hc : s.rcore = c) (hlt : c < 64) (hx : s.rx = x) (hx256 : x < 256)
    (hf : ((s.ctx x).freezing.find? fun f => f.1 = c) = some f) (hbands : (s.core c).bands = []) (hleaves : (s.core c).seqLeaves x f.2.1 = true)
    (hw : (s.core c).unit = some w) (hrest : (s.core c).atRest = true) (hpens : s.pens = []) :
    ∃ t, exec .coreSaveComplete s = .next t ∧ (t.core c).unit = none ∧ (t.core c).seq.phase = .idle ∧ (t.core c).list = (s.core c).list
      ∧ (t.core c).returning = (s.core c).returning ++ [⟨.seqUnit, w.task, w.index, [c], BitVec.ofNat 8 (x % 16), true⟩]
      ∧ ((aget (t.ctx x).images (logical (s.ctx x).cores c)).bind fun im => im.unit) = some w := by
  obtain ⟨t, hrun, hcores, hctxs⟩ := (coreSaveComplete_eq hc hx hf hbands hleaves).2 hrest hpens
  obtain ⟨k, hk, hunit, hphase, hlist, hreturning, himage⟩ := saveCore_spec (t := f.2.1) hlt hx256 hw hleaves hbands
  have hctx : t.ctx x = (s.saveCore c x f.2.1).ctx x := congrArg (fun v : Vector Context 256 => (v[x]?).getD Context.reset) hctxs
  refine ⟨t, hrun, ?_⟩
  rw [core_of_cores hcores, hk, hctx]
  exact ⟨hunit, hphase, hlist, hreturning, himage⟩

/-! ### Local lists (R340) -/

/-- What a core's list does while nothing starts: the last unit that was pre-empted re-enters its head. -/
def reenter (k : Core) : Core :=
  match k.returning.reverse with
  | e :: rest => if k.list.length < 8 then { k with list := e :: k.list, returning := rest.reverse } else k
  | [] => k

theorem localListStart_eq {c p : Nat} (hc : s.rcore = c) (hp : s.corePart c = some p) (hf : (s.core c).failed = false) (hz : s.freezes c = [])
    (hv : s.vectorAhead p c = false) : exec .localListStart s = .next ((s.startHead c p).getD (s.onCore c reenter)) := by
  rw [show exec _ s = execLocalListStart s from rfl, execLocalListStart, evLocalListStart, hc]
  rw [hp]
  simp only [hf, hz, hv]
  cases s.startHead c p <;> rfl

theorem startHead_none {c p : Nat} (hl : (s.core c).list = []) : s.startHead c p = none := by
  rw [State.startHead, hl]
  rfl

/-- With nothing listed and nothing to return nothing happens. -/
theorem localListStart_idle {c : Nat} (hc : s.rcore = c) (hl : (s.core c).list = []) (hr : (s.core c).returning = []) :
    exec .localListStart s = .next s := by
  rw [show exec _ s = execLocalListStart s from rfl, execLocalListStart, evLocalListStart, hc]
  split
  · rfl
  · split
    · rfl
    · rw [startHead_none hl]
      exact congrArg _ (onCore_id (f := reenter) (by rw [reenter, hr]; rfl))

theorem localListStart_returns {c p : Nat} {l : List LEntry} {e : LEntry} (hc : s.rcore = c) (hlt : c < 64) (hl : (s.core c).list = [])
    (hr : (s.core c).returning = l ++ [e]) (hp : s.corePart c = some p) (hf : (s.core c).failed = false) (hz : s.freezes c = [])
    (hv : s.vectorAhead p c = false) : ∃ u, exec .localListStart s = .next u ∧ (u.core c).list = [e] ∧ (u.core c).returning = l
      ∧ (u.core c).unit = (s.core c).unit ∧ (u.core c).bands = (s.core c).bands ∧ ∀ d, d ≠ c → u.core d = s.core d := by
  have hafter : reenter (s.core c) = { s.core c with list := [e], returning := l } := by
    rw [reenter, hr, List.reverse_append, List.reverse_singleton, List.singleton_append]
    dsimp only
    rw [hl, if_pos (by decide), List.reverse_reverse]
  refine ⟨s.onCore c reenter, (localListStart_eq hc hp hf hz hv).trans (by rw [startHead_none hl, Option.getD_none]), ?_⟩
  rw [State.core_onCore_same s hlt, hafter]
  exact ⟨rfl, rfl, rfl, rfl, fun d hd => State.core_onCore_ne s hd _⟩

/-! ### A core without link queues stays while the link settles (R381, R384) -/

section
variable {c d : Nat}

theorem bandFault_core_ne (s : State) (hd : c ≠ d) (n : Nat) (k : FKind) (mask va pte : Word) : (s.bandFault d n k mask va pte).core c = s.core c := by
  unfold State.bandFault State.bandFaultAt
  split
  · rfl
  · rw [takeFault_core]
    split
    · exact (State.core_onCore_ne _ hd _).trans (State.core_onCore_ne _ hd _)
    · exact State.core_onCore_ne _ hd _

theorem failLq_core_ne (s : State) (hd : c ≠ d) (q : Nat) (m : LqCmd) (k : FKind) (va pte : Word) : (s.failLq d q m k va pte).core c = s.core c :=
  (State.core_onCore_ne _ hd _).trans (takeFault_core _ _ _ _ _ _ _ _)

theorem failPull_core_ne (s : State) (hd : c ≠ d) (q id : Nat) (k : FKind) : (s.failPull d q id k).core c = s.core c := by
  unfold State.failPull
  dsimp only
  split
  · rfl
  · split
    · exact (bandFault_core_ne _ hd _ _ _ _ _).trans (State.core_onCore_ne _ hd _)
    · exact (State.core_onCore_ne _ hd _).trans ((takeFault_core _ _ _ _ _ _ _ _).trans (State.core_onCore_ne _ hd _))

theorem losePulled_core (s : State) (hq : (s.core c).rq = []) (e : Nat) (m : LqCmd) : (s.losePulled e m).core c = s.core c := by
  unfold State.losePulled
  extract_lets w d q r
  split
  case isTrue => rfl
  case isFalse hto =>
    have hd : c ≠ d := by
      rintro rfl
      have hr : r = RecvQ.empty := (congrArg (fun l => (aget l q).getD RecvQ.empty) hq :)
      exact hto (by rw [hr]; simp [RecvQ.empty])
    split
    · rfl
    · exact failPull_core_ne s hd _ _ _

theorem foldl_dropReq_core (l : List Nat) (s : State) : (l.foldl State.dropReq s).core c = s.core c :=
  List.foldlRecOn (motive := fun t : State => t.core c = s.core c) l _ rfl fun _ ht _ _ => ht

theorem settleLq_core (s : State) (hd : c ≠ d) (hq : (s.core c).rq = []) (q : Nat) : (s.settleLq d q).core c = s.core c := by
  unfold State.settleLq
  extract_lets t gone v
  have ht : t.core c = s.core c := by
    refine List.foldlRecOn (motive := fun t : State => t.core c = s.core c) _ _ rfl fun t ht m _ => ?_
    split
    · exact ht
    · split
      · extract_lets v
        have hv : v.core c = s.core c := (failLq_core_ne t hd _ _ _ _ _).trans ht
        split
        · exact (losePulled_core v (hv.symm ▸ hq) _ _).trans hv
        · exact hv
      · split
        · exact (State.core_onCore_ne _ hd _).trans ht
        · exact ht
  split
  · exact ht
  · refine List.foldlRecOn (motive := fun t : State => t.core c = s.core c) _ _ ?_ fun w hw m _ => (foldl_dropReq_core _ w).trans hw
    exact (State.core_onCore_ne _ hd _).trans ((State.core_onCore_ne _ hd _).trans ht)

theorem settleRecv_core (s : State) (hd : c ≠ d) : (s.settleRecv d).core c = s.core c := by
  refine List.foldlRecOn (motive := fun t : State => t.core c = s.core c) _ _ rfl fun t ht e _ => ?_
  split
  · split
    · exact ht
    · exact (failPull_core_ne _ hd _ _ _).trans ht
  · split <;> exact ht
  · exact ht

/-- A core whose link queues are empty is left alone. -/
theorem settleLinks_core (s : State) (hl : ((s.core c).lq.toList.all fun l => l.isEmpty) = true) (hq : (s.core c).rq = []) :
    s.settleLinks.core c = s.core c := by
  refine List.foldlRecOn (motive := fun t : State => t.core c = s.core c) _ _ rfl fun t ht d _ => ?_
  split
  case isTrue => exact ht
  case isFalse hbusy =>
    have hd : c ≠ d := by
      rintro rfl
      rw [ht, hl, hq] at hbusy
      exact hbusy rfl
    refine (settleRecv_core _ hd).trans ?_
    exact List.foldlRecOn (motive := fun t : State => t.core c = s.core c) _ _ ht fun v hv q _ => (settleLq_core v hd (hv.symm ▸ hq) q).trans hv

end

/-! ### A list starts its first entry (R340) -/

/-- A core without work is its partition's: the lowest partition that has it. -/
theorem corePart_free {c p : Nat} (ho : (s.core c).owner = none) (hp : p < 16) (hin : (s.part p).cores.getLsbD c = true)
    (hout : ∀ q < p, (s.part q).cores.getLsbD c = false) : s.corePart c = some p := by
  rw [State.corePart, ho]
  refine List.find?_range_eq_some.mpr ⟨?_, List.mem_range.mpr hp, fun q hq => ?_⟩
  · exact hin
  · rw [Bool.not_eq_true']
    exact hout q hq

theorem owner_none {k : Core} (h : k.owner = none) : k.unit = none ∧ k.bands = [] := by
  unfold Core.owner at h
  cases hu : k.unit with
  | some w => rw [hu] at h; exact nomatch h
  | none => rw [hu] at h; exact ⟨rfl, by simpa using h⟩

theorem updateHeld_core_bare {x c : Nat} (hb : (s.core c).bands = []) : (s.updateHeld x).core c = s.core c := by
  obtain ⟨g, hcore, -⟩ := (updateHeld_spec s x).2 c
  rw [hcore, hb, List.map_nil, ← hb]

/-- What follows a start on a core that has no bands and no link queues changes nothing on it. -/
theorem afterStart_core {x c : Nat} {k : Core} (hk : t.core c = k) (hb : k.bands = []) (hl : k.lq = Vector.replicate 4 []) (hq : k.rq = []) :
    (((t.updateHeld x).settleLinks).coreFreed c).core c = k := by
  have hheld : (t.updateHeld x).core c = k := (updateHeld_core_bare (hk.symm ▸ hb)).trans hk
  rw [core_of_cores (coreFreed_cores _ _), settleLinks_core _ (by rw [hheld, hl]; rfl) (by rw [hheld, hq]), hheld]

theorem startHead_task {p x c n : Nat} {e : LEntry} {rest : List LEntry} {v : Task} (hx : x < 16) (hl : (s.core c).list = e :: rest)
    (hex : e.ctx.toNat = x) (hsaved : e.saved = false) (hkind : e.kind = .seqUnit) (hn : e.task = some n) (hv : aget (s.part p).tasks n = some v)
    (hunit : (s.core c).unit = none) : ∃ t : State, s.startHead c p = some (((t.updateHeld (16 * p + x)).settleLinks).coreFreed c)
      ∧ ∀ d, t.core d = ((s.unlist e).startEntrySeq c (16 * p + x) v e.unit).core d := by
  have hpart : s.partOf (16 * p + x) = s.part p := by rw [State.partOf, show (16 * p + x) / 16 = p by omega]
  have hstart : s.startEntry c (16 * p + x) e = some ((s.unlist e).startEntrySeq c (16 * p + x) v e.unit) := by
    rw [State.startEntry]
    simp only [hsaved, hn, Option.bind_some, hpart, hv, hkind, hunit, Bool.false_eq_true, if_false, Option.isSome_none]
  rw [State.startHead, hl, List.head?_cons]
  dsimp only
  rw [hex, hstart, Option.map_some, hsaved]
  refine ⟨_, rfl, fun d => ?_⟩
  rw [if_neg Bool.false_ne_true]
  split <;> rfl

/-- The first entry of a free core's list, a sequencer unit of a task, starts (R323, R340). -/
theorem localListStart_starts {p x c n : Nat} {e : LEntry} {rest : List LEntry} {v : Task} (hrc : s.rcore = c) (hc : c < 64) (hp : p < 16) (hx : x < 16)
    (hl : (s.core c).list = e :: rest) (howner : (s.core c).owner = none) (hin : (s.part p).cores.getLsbD c = true)
    (hout : ∀ q < p, (s.part q).cores.getLsbD c = false) (hex : e.ctx.toNat = x) (hsaved : e.saved = false) (hkind : e.kind = .seqUnit)
    (hcores : e.cores = [c]) (hn : e.task = some n) (hv : aget (s.part p).tasks n = some v) (hf : (s.core c).failed = false) (hz : s.freezes c = [])
    (hahead : s.vectorAhead p c = false) : ∃ u, exec .localListStart s = .next u ∧ (u.core c).list = rest
      ∧ ((u.core c).unit.map fun w => (w.part.toNat, w.ctx.toNat, w.launch, w.task, w.index)) = some (p, x, v.launch, some v.slot, e.unit)
      ∧ (u.core c).seq.phase = .run ∧ (u.core c).seq.pc.toNat = tf v.record 0 64 := by
  obtain ⟨hunit, hbands⟩ := owner_none howner
  have hlisted : (s.unlist e).core c = { s.core c with list := rest } := by
    rw [State.unlist, hcores, List.foldl_cons, List.foldl_nil, State.core_onCore_same s hc, hl, List.erase_cons_head]
  obtain ⟨t, hhead, ht⟩ := startHead_task hx hl hex hsaved hkind hn hv hunit
  obtain ⟨k, hk, hkunit, ⟨hphase, hpc, -⟩, hklist, hkbands, hklq, hkrq⟩ := startSeq_spec (c := c) (x := 16 * p + x) (task := some v.slot) (launch := v.launch)
    (index := e.unit) (cls := recPrio v.record) (entry := BitVec.ofNat 64 (tf v.record 0 64))
    (arg := BitVec.ofNat 64 (tf v.record 64 64 + 64 * tf v.record 448 16 * (e.unit - v.first)))
    (mode := BitVec.ofNat 64 (if tf v.record 332 1 = 1 then tf v.record 328 4 else 0)) (s.unlist e) hc
  rw [hlisted] at hklist hkbands hkrq
  have hrq : k.rq = [] := by
    have hlane : ∀ r, Core.laneQueue { s.core c with list := rest } r = false := by
      intro r
      unfold Core.laneQueue Core.laneBand
      split
      · rw [hbands]
        rfl
      · rfl
    rw [hkrq]
    exact List.filter_eq_nil_iff.mpr fun r _ => by rw [hlane]; exact Bool.false_ne_true
  have hcore := afterStart_core (x := 16 * p + x) ((ht c).trans hk) (hkbands.trans hbands) hklq hrq
  refine ⟨_, (localListStart_eq hrc (corePart_free howner hp hin hout) hf hz hahead).trans (by rw [hhead, Option.getD_some]), ?_⟩
  rw [hcore, hkunit, hpc]
  refine ⟨hklist, ?_, hphase, ?_⟩
  · simp only [Option.map_some, BitVec.toNat_ofNat, Option.some.injEq, Prod.mk.injEq, and_true]
    omega
  · rw [BitVec.toNat_ofNat, tf, bf_eq_div, Nat.mod_mod]

end

end Sys2Proof.Proofs
end

section
/-!
O38. Start-vector launches, local lists, retirement and the end of a save (R107, R132 to R134, R340).
-/

namespace Sys2Proof.Proofs

open Sys2Proof Sys2Proof.Machine Sys2Proof.Claims

/-- Settles O38: a placed start vector starts each named core in turn; a started core has no bands and no link queues, so that what follows the start
leaves it as it is. -/
theorem schedulerUnits : Obligations.SchedulerUnits := by
  unfold Obligations.SchedulerUnits
  intro s p x c hreqp hp hreqx hx hreqc hc
  have hrx : s.rx = 16 * p + x := rx_eq (by omega) (by omega)
  have hrc : s.rcore = c := by rw [State.rcore, hreqc]; omega
  refine ⟨fun l v hl hv hst => ⟨fun ⟨e, he, hbusy⟩ => ?_, fun hfree hnd => launchPlace_free hp hx hrx hl hv hst hfree hnd⟩,
    fun e rest t n hl howner hin hout hex hsaved hkind hcores hn ht _ hf hz hahead =>
      localListStart_starts hrc hc hp hx hl howner hin hout hex hsaved hkind hcores hn ht hf hz hahead,
    fun hl hr => localListStart_idle hrc hl hr,
    fun l e hl hr hcp hf hz hahead => localListStart_returns hrc hc hl hr hcp hf hz hahead,
    fun u hu => ⟨unitRetire_stays hrc hu, fun hph hm hd => unitRetire_spec hrc hc hu hph hm hd⟩, fun hu => ?_, fun hnone => ?_,
    fun f u hf hbands hleaves hu => ⟨(coreSaveComplete_eq hrc hrx hf hbands hleaves).1, fun hrest hpens => ?_⟩⟩
  · rw [launchPlace_eq hrx hl hv hst, if_neg]
    intro hall
    refine hbusy ?_
    have := List.all_eq_true.mp hall e he
    simpa [and_assoc] using this
  · rw [show exec _ s = execUnitRetire s from rfl, execUnitRetire, evUnitRetire, hrc]
    dsimp only
    rw [hu]
  · rw [show exec _ s = execCoreSaveComplete s from rfl, execCoreSaveComplete, evCoreSaveComplete, hrc, hrx]
    dsimp only
    rw [hnone]
  · have h := coreSaveComplete_spec hrc hc hrx (by omega) hf hbands hleaves hu hrest hpens
    rwa [show (16 * p + x) % 16 = x by omega] at h

end Sys2Proof.Proofs
end

section
/-!
SUPPORT. The end of a decision, and what it concerns: its partition's next invocation may start, and the context has counted it (R341, R355, R361).
-/

namespace Sys2Proof.Proofs

open Sys2Proof Sys2Proof.Machine Sys2Proof.Claims

section
variable {s t v : State} {p x y kind : Nat} {d : Decided}

/-! ### What the log leaves (R118, R119) -/

/-- Sequence numbers and states of contexts, cores, and what a partition holds besides raised vectors are as they were; raised vectors stay raised. -/
def logKeeps (s t : State) : Prop :=
  t.cores = s.cores ∧ (∀ y, (t.ctx y).st = (s.ctx y).st) ∧ (∀ q, { t.part q with vecs := 0 } = { s.part q with vecs := 0 })
  ∧ ∀ q i, (s.part q).vecs.getLsbD i = true → (t.part q).vecs.getLsbD i = true

/-- The same for partitions. -/
theorem part_onPart_proj {α : Type} (g : Partition → α) {f : Partition → Partition} (hf : ∀ k, g (f k) = g k) (s : State) (p q : Nat) :
    g ((s.onPart p f).part q) = g (s.part q) := by
  by_cases hq : q = p
  · subst hq
    by_cases hp : q < 16
    · rw [State.part_onPart_same s hp, hf]
    · simp only [State.part, State.onPart, Vector.getElem?_eq_none (Nat.le_of_not_lt hp)]
  · rw [State.part_onPart_ne s hq]

/-- A raised vector with bit `n` is one more. -/
def raised (n : Nat) (q : Partition) : Partition := { q with vecs := q.vecs ||| BitVec.ofNat 64 (1 <<< n) }

theorem raiseVector_vecs (s : State) (p n : Nat) (z : Option (BitVec 4)) (q i : Nat) (h : (s.part q).vecs.getLsbD i = true) :
    ((s.raiseVector p n z).part q).vecs.getLsbD i = true := by
  unfold State.raiseVector
  split
  · exact h
  · show ((s.onPart p (raised n)).part q).vecs.getLsbD i = true
    by_cases hq : q = p
    · subst hq
      by_cases hp : q < 16
      · rw [State.part_onPart_same s hp]
        show ((s.part q).vecs ||| BitVec.ofNat 64 (1 <<< n)).getLsbD i = true
        rw [BitVec.getLsbD_or, h, Bool.true_or]
      · simpa only [State.part, State.onPart, Vector.getElem?_eq_none (Nat.le_of_not_lt hp)] using h
    · rw [State.part_onPart_ne s hq]
      exact h

/-- The context once its log has overrun. -/
def overrun (k : Context) : Context := { k with logging := false, rsafe := false }

theorem log_keeps (s : State) (x k : Nat) (payload : List Byte) (core : Nat) : logKeeps s (s.log x k payload core) := by
  refine ⟨log_cores s x k payload core, ?_⟩
  unfold State.log
  extract_lets j cap e used t
  split
  · exact ⟨fun _ => rfl, fun _ => rfl, fun _ _ h => h⟩
  · split
    · show _ ∧ _
      have hvec := raiseVector_onlyVectors (s.onCtx x overrun) (x / 16) 2 (some (BitVec.ofNat 4 x))
      refine ⟨fun y => ?_, hvec.2, fun q i h => raiseVector_vecs (s.onCtx x overrun) _ _ _ q i h⟩
      exact (congrArg Context.st (hvec.ctx y)).trans (ctx_onCtx_proj Context.st (f := overrun) (fun _ => rfl) s x y)
    · have hring : onlyHomes s t := (onlyHomes_refl s).ringWrite
      clear_value t
      refine ⟨fun y => Eq.trans (ctx_onCtx_proj Context.st ?_ t x y) (congrArg Context.st (hring.ctx y)), fun q => ?_, fun q i h => ?_⟩
      · exact fun _ => rfl
      · rw [State.part_onCtx, hring.part]
      · rw [State.part_onCtx, hring.part]
        exact h

/-! ### The end of a decision (R341, R361) -/

/-- The device once a decision that concerned context `y` has ended without a log entry. -/
def ended (v : State) (p y : Nat) : State :=
  (v.onPart p fun q => { q with decided := none, inFlight := false }).onCtx y fun k => { k with dsn := k.dsn + 1 }

theorem ended_cores (v : State) (p y : Nat) : (ended v p y).cores = v.cores := rfl
theorem ended_core (v : State) (p y c : Nat) : (ended v p y).core c = v.core c := rfl
theorem ended_home (v : State) (p y h : Nat) : (ended v p y).home h = v.home h := rfl

theorem ended_part (v : State) (hp : p < 16) (y : Nat) : (ended v p y).part p = { v.part p with decided := none, inFlight := false } := by
  rw [ended, State.part_onCtx, State.part_onPart_same v hp]

theorem ended_ctx (v : State) (hy : y < 256) : (ended v p y).ctx y = { v.ctx y with dsn := (v.ctx y).dsn + 1 } := by
  rw [ended, State.ctx_onCtx_same _ hy]
  rfl

theorem applied_ended (hp : p < 16) (hx : x < 16) (hdsn : (v.ctx (16 * p + x)).dsn = (s.ctx (16 * p + x)).dsn) :
    applied s (ended v p (16 * p + x)) p x := by
  rw [applied, ended_part v hp, ended_ctx v (by omega), hdsn]
  exact ⟨rfl, rfl, rfl⟩

theorem restartHang_none (hhang : ∀ r, d.req.record = some r → r.kind ≠ .hang) (v : State) : v.restartHang d = v := by
  unfold State.restartHang
  cases hr : d.req.record with
  | none => rfl
  | some r => exact if_pos (hhang r hr)

/-- What a decision for a context other than that of a COMPLETE invocation ends with. -/
theorem endDecision_open (hsl : d.req.sl ≠ .complete) (hhang : ∀ r, d.req.record = some r → r.kind ≠ .hang) (v : State) (p y : Nat) (opb : Word) :
    v.endDecision p d (some y) opb =
      let w := v.onPart p fun q => { q with decided := none, inFlight := false }
      (if d.logged then w else w.log y 5 (d.bytes (w.ctx y).dsn opb)).onCtx y fun k => { k with dsn := k.dsn + 1 } := by
  rw [State.endDecision, restartHang_none hhang]
  dsimp only
  split
  case h_1 h _ => exact absurd h hsl
  case h_2 => rfl

theorem log_quiet (h : (s.ctx y).logging = false) (k : Nat) (payload : List Byte) : s.log y k payload = s := by
  rw [State.log]
  dsimp only
  rw [h, if_pos (by simp)]

theorem endDecision_eq (hsl : d.req.sl ≠ .complete) (hhang : ∀ r, d.req.record = some r → r.kind ≠ .hang) (hlog : (v.ctx y).logging = false)
    (p : Nat) (opb : Word) : v.endDecision p d (some y) opb = ended v p y := by
  rw [endDecision_open hsl hhang]
  dsimp only
  rw [log_quiet (s := v.onPart p _) (y := y) (by exact hlog), ite_self]
  rfl

/-- Whatever is logged, the decision has left the partition; the cores and the contexts' states are as the decision left them. -/
theorem endDecision_keeps (hsl : d.req.sl ≠ .complete) (hhang : ∀ r, d.req.record = some r → r.kind ≠ .hang) (hp : p < 16)
    (y : Nat) (v : State) (opb : Word) : ∃ u, v.endDecision p d (some y) opb = u ∧ u.cores = v.cores ∧ (u.part p).decided = none
      ∧ (y < 256 → (u.ctx y).st = (v.ctx y).st) ∧ ∀ i, (v.part p).vecs.getLsbD i = true → (u.part p).vecs.getLsbD i = true := by
  rw [endDecision_open hsl hhang]
  refine ⟨_, rfl, ?_⟩
  dsimp only
  have hpart := State.part_onPart_same v hp fun q => { q with decided := none, inFlight := false }
  obtain ⟨hcores, hst, hparts, hvecs⟩ := log_keeps (v.onPart p fun q => { q with decided := none, inFlight := false }) y 5
    (d.bytes ((v.onPart p fun q => { q with decided := none, inFlight := false }).ctx y).dsn opb) 0
  rw [State.part_onCtx]
  split
  · rw [hpart]
    exact ⟨rfl, rfl, fun hy => by rw [State.ctx_onCtx_same _ hy]; rfl, fun i h => h⟩
  · refine ⟨hcores, ?_, fun hy => by rw [State.ctx_onCtx_same _ hy]; exact hst y, fun i h => hvecs p i ?_⟩
    · have := hparts p
      rw [hpart] at this
      exact (congrArg Partition.decided this :)
    · rw [hpart]
      exact h

/-! ### A decision is applied (R341, R355) -/

theorem settleAgent_stands (hstands : s.agentStands ((d.slot p).getD 0) d.req = true) : s.settleAgent p d = d := if_pos hstands

/-- The decision as it is applied is the one taken, but for an agent that is gone. -/
theorem settleAgent_eq (s : State) (p : Nat) (d : Decided) :
    ∃ w, s.settleAgent p d = { d with req := { d.req with who := w } } ∧ (w = d.req.who ∨ w = .env) := by
  unfold State.settleAgent
  split
  · exact ⟨_, rfl, .inl rfl⟩
  · exact ⟨_, rfl, .inr rfl⟩

theorem applyDecision_eq (hd : decides s p d x) (hk : d.kind.toNat = kind) (f : State → Nat → Decided → State × Option Nat × Word) :
    s.applyDecision kind f = (f s p (s.settleAgent p d)).1.endDecision p d (f s p (s.settleAgent p d)).2.1 (f s p (s.settleAgent p d)).2.2 := by
  obtain ⟨hreq, hp, hdec, hok, hctx, hx, hst, hlog, hhang⟩ := hd
  have hslot : ∀ y, d.slot p = some y → (s.ctx y).st ≠ .recovering := by
    intro y hy
    obtain ⟨z, hz, rfl⟩ := Option.map_eq_some_iff.mp hy
    rw [hctx z hz]
    exact hst
  unfold State.applyDecision
  rw [hreq]
  dsimp only
  rw [hdec]
  dsimp only
  rw [if_neg (not_not.mpr hk), hok, if_neg (by simp)]
  cases hy : d.slot p with
  | none => rfl
  | some y =>
    simp only [hslot y hy, decide_false, Bool.false_and, Bool.false_eq_true, if_false]

/-- The decision's effect, and its end: for a context that logs nothing. -/
theorem applyDecision_quiet (hd : decides s p d x) (hk : d.kind.toNat = kind) {f : State → Nat → Decided → State × Option Nat × Word} {o : Word}
    (hf : f s p (s.settleAgent p d) = (v, some (16 * p + x), o)) (hsl : d.req.sl ≠ .complete)
    (hlog : (v.ctx (16 * p + x)).logging = (s.ctx (16 * p + x)).logging) : s.applyDecision kind f = ended v p (16 * p + x) := by
  rw [applyDecision_eq hd hk, hf]
  obtain ⟨-, -, -, -, -, -, -, hquiet, hhang⟩ := hd
  exact endDecision_eq hsl hhang (hlog.trans hquiet) p o

/-! ### Contexts fail and start again (R105, R121) -/

theorem failContext_fails (hx : x < 256) (hst : (s.ctx x).st ∉ [CState.empty, .retired, .failed]) :
    ((s.failContext x).ctx x).st = .failed ∧ ((s.failContext x).part (x / 16)).vecs.getLsbD 0 = true := by
  have hfail : ∀ v : State, (((v.onCtx x fun k => { k with st := .failed, replay := [], freezing := [] }).raiseVector (x / 16) 0
      (some (BitVec.ofNat 4 x))).ctx x).st = .failed := fun v => by rw [raiseVector_ctx, State.ctx_onCtx_same v hx]
  unfold State.failContext
  split
  case h_1 h => simp [h] at hst
  case h_2 h => simp [h] at hst
  case h_3 h => simp [h] at hst
  case h_4 => exact ⟨hfail _, raiseVector_pending _ (by omega) (by decide) _⟩

/-- A replay begins in RECOVERING. -/
theorem startReplay_st (s : State) (hx : x < 256) : ((s.startReplay x).ctx x).st = .recovering := by
  have hstart : ∀ (l : List (Nat × Word)) (lid : BitVec 32) (v : State), ((startVector v x lid l).ctx x).st = (v.ctx x).st := fun l lid v =>
    List.foldlRecOn (motive := fun t : State => (t.ctx x).st = (v.ctx x).st) l _ rfl fun t ht _ _ =>
      (startSeq_ctx Context.st (fun _ _ => rfl) t x).trans ht
  unfold State.startReplay
  extract_lets t k deps runs vec u
  have hu : (u.ctx x).st = .recovering := by
    show ((t.onCtx x _).ctx x).st = _
    rw [State.ctx_onCtx_same t hx]
  exact List.foldlRecOn (motive := fun v : State => (v.ctx x).st = .recovering) _ _ hu fun v hv l _ => (hstart _ l.2.id v).trans hv

end

end Sys2Proof.Proofs
end

section
/-!
O41, first part. PLACE, STEAL and PREEMPT (R107, R340, R354).
-/

namespace Sys2Proof.Proofs

open Sys2Proof Sys2Proof.Machine Sys2Proof.Claims

section
variable {s t v : State} {p x c : Nat} {d : Decided}

/-- A mask of one core names that core. -/
theorem bitsOf_single (hc : c < 64) : bitsOf (BitVec.ofNat 64 (2 ^ c)).toNat 64 = [c] := by
  revert c
  decide

theorem setLaunch_parts (s : State) (y id : Nat) (st : LState) : (s.setLaunch y id st).parts = s.parts := by
  unfold State.setLaunch
  extract_lets code last t
  split <;> rfl

/-- Of a context a launch's state and the status word change. -/
theorem setLaunch_ctx {α : Type} (g : Context → α) (hg : ∀ k l n, g { k with launches := l, lstate := n } = g k) (s : State) (x id : Nat) (st : LState) (y : Nat) :
    g ((s.setLaunch x id st).ctx y) = g (s.ctx y) := by
  unfold State.setLaunch
  extract_lets code last t
  have ht : g (t.ctx y) = g (s.ctx y) := ctx_onCtx_proj g (fun k => hg k _ _) s x y
  split <;> exact ht

theorem part_of_parts (h : t.parts = s.parts) (q : Nat) : t.part q = s.part q := by rw [State.part, h, State.part]

/-- What is not a sluice stays in every partition while sluices are raised. -/
theorem part_of_butSluices {α : Type} (h : butSluices t = butSluices s) (g : Partition → α) (hg : ∀ k : Partition, g { k with sluices := [] } = g k) (q : Nat) :
    g (t.part q) = g (s.part q) := by
  have hparts : (t.parts.map fun k => ({ k with sluices := [] } : Partition)) = s.parts.map fun k => { k with sluices := [] } := (congrArg State.parts h :)
  have hget : ∀ u : State, ((u.parts.map fun k => ({ k with sluices := [] } : Partition))[q]?).map g = (u.parts[q]?).map g := by
    intro u
    rw [Vector.getElem?_map, Option.map_map]
    exact congrArg (fun f => Option.map f u.parts[q]?) (funext hg)
  have heq := (hget t).symm.trans ((congrArg (fun v : Vector Partition 16 => (v[q]?).map g) hparts).trans (hget s))
  rw [State.part, State.part]
  cases ht : t.parts[q]? <;> cases hs : s.parts[q]? <;> simp_all

theorem ctx_of_butSluices (h : butSluices t = butSluices s) (y : Nat) : t.ctx y = s.ctx y := (congrArg (fun v : State => v.ctx y) h :)

/-! ### PLACE -/

/-- The list entry of the next unit of a task on a core. -/
def placeEntry (t : Task) (c : Nat) : LEntry :=
  ⟨if recKind t.record = 1 then .seqUnit else .laneUnit, some t.slot, t.first + t.placed, [c], BitVec.ofNat 8 t.ctx.toNat, false⟩
/-- Task `k` once one more of its units is placed. -/
def placeTask (k t : Task) : Task := { t with placed := t.placed + 1, st := if k.placed + 1 = recUnits k.record then .running else .placed }
/-- The device once an entry stands on a core's list. -/
def listedOn (s : State) (c : Nat) (e : LEntry) : State := s.onCore c fun k => { k with list := k.list ++ [e] }
/-- The device once a task's unit is counted; with its last unit the task leaves its queue. -/
def unitCounted (s : State) (p : Nat) (k : Task) : State :=
  if k.placed + 1 = recUnits k.record then
    (s.onTask p k.slot (placeTask k)).onPart p fun q => { q with queues := q.queues.map fun l => l.filter fun n => n ≠ k.slot }
  else s.onTask p k.slot (placeTask k)
/-- A task's first unit takes its launch out of PENDING. -/
def launchRuns (s : State) (x id : Nat) : State :=
  match aget (s.ctx x).launches id with
  | some l => if (l : Launch).st = LState.pending then s.setLaunch x id .running else s
  | none => s
/-- A unit that is placed takes its context out of PREEMPTED. -/
def contextRuns (s : State) (x : Nat) : State := if (s.ctx x).st = .preempted then s.onCtx x fun k => { k with st := .running } else s

theorem launchRuns_keeps (s : State) (x id : Nat) : (launchRuns s x id).cores = s.cores ∧ (launchRuns s x id).parts = s.parts
    ∧ ((launchRuns s x id).ctx x).dsn = (s.ctx x).dsn ∧ ((launchRuns s x id).ctx x).logging = (s.ctx x).logging := by
  unfold launchRuns
  split
  · split
    · exact ⟨setLaunch_cores _ _ _ _, setLaunch_parts _ _ _ _, setLaunch_ctx Context.dsn (fun _ _ _ => rfl) s x id _ x,
        setLaunch_ctx Context.logging (fun _ _ _ => rfl) s x id _ x⟩
    · exact ⟨rfl, rfl, rfl, rfl⟩
  · exact ⟨rfl, rfl, rfl, rfl⟩

theorem contextRuns_keeps (s : State) (x : Nat) : (contextRuns s x).cores = s.cores ∧ (contextRuns s x).parts = s.parts
    ∧ ((contextRuns s x).ctx x).dsn = (s.ctx x).dsn ∧ ((contextRuns s x).ctx x).logging = (s.ctx x).logging := by
  unfold contextRuns
  split
  · exact ⟨rfl, rfl, ctx_onCtx_proj Context.dsn (f := fun k => { k with st := .running }) (fun _ => rfl) s x x,
      ctx_onCtx_proj Context.logging (f := fun k => { k with st := .running }) (fun _ => rfl) s x x⟩
  · exact ⟨rfl, rfl, rfl, rfl⟩

/-- The device once PLACE has put the next unit of a task on a core's list. -/
def unitPlaced (s : State) (p x c : Nat) (t : Task) : State :=
  contextRuns (launchRuns (unitCounted (listedOn s c (placeEntry t c)) p t) x t.launch.toNat) x

theorem unitPlaced_keeps (s : State) (p x c : Nat) (t : Task) : (unitPlaced s p x c t).cores = (listedOn s c (placeEntry t c)).cores
    ∧ (unitPlaced s p x c t).parts = (unitCounted s p t).parts
    ∧ ((unitPlaced s p x c t).ctx x).dsn = (s.ctx x).dsn ∧ ((unitPlaced s p x c t).ctx x).logging = (s.ctx x).logging := by
  obtain ⟨hcores, hparts, hdsn, hlog⟩ := contextRuns_keeps (launchRuns (unitCounted (listedOn s c (placeEntry t c)) p t) x t.launch.toNat) x
  obtain ⟨hcores', hparts', hdsn', hlog'⟩ := launchRuns_keeps (unitCounted (listedOn s c (placeEntry t c)) p t) x t.launch.toNat
  have hcounted : ∀ u : State, (unitCounted u p t).cores = u.cores ∧ (unitCounted u p t).ctxs = u.ctxs := by
    intro u
    unfold unitCounted
    split <;> exact ⟨rfl, rfl⟩
  obtain ⟨hcores'', hctxs⟩ := hcounted (listedOn s c (placeEntry t c))
  have hctx : (unitCounted (listedOn s c (placeEntry t c)) p t).ctx x = s.ctx x :=
    congrArg (fun v : Vector Context 256 => (v[x]?).getD Context.reset) hctxs
  rw [hctx] at hdsn' hlog'
  refine ⟨hcores.trans (hcores'.trans hcores''), (hparts.trans hparts').trans ?_, hdsn.trans hdsn', hlog.trans hlog'⟩
  unfold unitCounted
  split <;> rfl

theorem decisionPlace_eq {k : Task} (hd : decides s p d x) (hk : d.kind = 1) (hsl : d.req.sl = .dispatch) (hhead : (s.part p).head d.opa.toNat = some k)
    (hkx : k.ctx.toNat = x) (hopb : d.opb = BitVec.ofNat 64 (2 ^ c)) (hc : c < 64) :
    exec .decisionPlace s = .next (ended ((unitPlaced s p (16 * p + x) c k).raiseSteals p) p (16 * p + x)) := by
  obtain ⟨w, hsettled, -⟩ := settleAgent_eq s p d
  have hsteals := butSluices_raiseSteals (unitPlaced s p (16 * p + x) c k) p
  refine congrArg Host.Outcome.next (applyDecision_quiet hd (by rw [hk]; rfl) (o := d.opb) ?_ (by rw [hsl]; exact nofun) ?_)
  · rw [hsettled]
    dsimp -zeta only
    rw [hhead]
    dsimp -zeta only
    extract_lets y cs e last s1 s2 s3 s4 s5
    have hy : y = 16 * p + x := by rw [← hkx]; rfl
    have hcs : cs = [c] := by rw [← bitsOf_single hc, ← hopb]
    clear_value y cs
    subst hy hcs
    rw [hsl]
    rfl
  · rw [ctx_of_butSluices hsteals]
    exact (unitPlaced_keeps s p (16 * p + x) c k).2.2.2

theorem unitCounted_part (hp : p < 16) (k : Task) : ((unitCounted s p k).part p).tasks = amod (s.part p).tasks k.slot (placeTask k)
    ∧ ((unitCounted s p k).part p).queues =
      if k.placed + 1 = recUnits k.record then (s.part p).queues.map fun l => l.filter fun n => n ≠ k.slot else (s.part p).queues := by
  unfold unitCounted State.onTask
  split
  · rw [State.part_onPart_same _ hp, State.part_onPart_same _ hp]
    exact ⟨rfl, rfl⟩
  · rw [State.part_onPart_same _ hp]
    exact ⟨rfl, rfl⟩

theorem decisionPlace_spec {k : Task} (hd : decides s p d x) (hk : d.kind = 1) (hsl : d.req.sl = .dispatch) (hhead : (s.part p).head d.opa.toNat = some k)
    (htask : aget (s.part p).tasks k.slot = some k) (hkx : k.ctx.toNat = x) (hrec : recKind k.record = 1) (hopb : d.opb = BitVec.ofNat 64 (2 ^ c))
    (hc : c < 64) : ∃ u, exec .decisionPlace s = .next u ∧ applied s u p x
      ∧ (u.core c).list = (s.core c).list ++ [⟨.seqUnit, some k.slot, k.first + k.placed, [c], BitVec.ofNat 8 x, false⟩]
      ∧ aget (u.part p).tasks k.slot = some { k with placed := k.placed + 1, st := if k.placed + 1 = recUnits k.record then .running else .placed }
      ∧ (∀ e, e ≠ c → u.core e = s.core e)
      ∧ (k.placed + 1 = recUnits k.record → ∀ l ∈ (u.part p).queues.toList, k.slot ∉ l)
      ∧ (k.placed + 1 ≠ recUnits k.record → (u.part p).queues = (s.part p).queues) := by
  have hp : p < 16 := hd.2.1
  have hx : x < 16 := hd.2.2.2.2.2.1
  have hsteals := butSluices_raiseSteals (unitPlaced s p (16 * p + x) c k) p
  obtain ⟨hcores, hparts, hdsn, -⟩ := unitPlaced_keeps s p (16 * p + x) c k
  obtain ⟨htasks, hqueues⟩ := unitCounted_part (s := s) hp k
  have hcore : ∀ e, ((unitPlaced s p (16 * p + x) c k).raiseSteals p).core e = (listedOn s c (placeEntry k c)).core e :=
    core_of_cores ((raiseSteals_cores _ _).trans hcores)
  refine ⟨_, decisionPlace_eq hd hk hsl hhead hkx hopb hc, applied_ended hp hx ?_, ?_, ?_, fun e he => ?_, ?_⟩
  · rw [ctx_of_butSluices hsteals, hdsn]
  · rw [ended_core, hcore, listedOn, State.core_onCore_same s hc, placeEntry, hrec, hkx]
    rfl
  · rw [ended_part _ hp]
    dsimp only
    rw [part_of_butSluices hsteals Partition.tasks (fun _ => rfl), part_of_parts hparts, htasks, aget_amod, if_pos rfl, htask, Option.map_some, placeTask]
  · rw [ended_core, hcore, listedOn, State.core_onCore_ne s he]
  · have hq : ((ended ((unitPlaced s p (16 * p + x) c k).raiseSteals p) p (16 * p + x)).part p).queues =
        if k.placed + 1 = recUnits k.record then (s.part p).queues.map fun l => l.filter fun n => n ≠ k.slot else (s.part p).queues := by
      rw [ended_part _ hp]
      dsimp only
      rw [part_of_butSluices hsteals Partition.queues (fun _ => rfl), part_of_parts hparts, hqueues]
    rw [hq]
    refine ⟨fun hlast l hl => ?_, fun hmore => ?_⟩
    · rw [if_pos hlast, Vector.toList_map] at hl
      obtain ⟨m, -, rfl⟩ := List.mem_map.mp hl
      simp
    · rw [if_neg hmore]

/-! ### STEAL -/

/-- The device once an entry of one core's list stands at the end of another's. -/
def entryMoved (s : State) (src dst : Nat) (e : LEntry) : State :=
  listedOn (s.onCore src fun k => { k with list := k.list.filter fun y => y ≠ e }) dst { e with cores := [dst] }

theorem decisionSteal_spec {src dst : Nat} {e : LEntry} (hd : decides s p d x) (hk : d.kind = 2) (hsrc : d.opa.toNat = src)
    (hdst : d.opb = BitVec.ofNat 64 (2 ^ dst)) (hs : src < 64) (hdlt : dst < 64) (hne : src ≠ dst) (hnew : (s.core src).newest = some e) (hcores : e.cores = [src]) :
    ∃ u, exec .decisionSteal s = .next u ∧ (u.core src).list = ((s.core src).list.filter fun y => y ≠ e)
      ∧ (u.core dst).list = (s.core dst).list ++ [{ e with cores := [dst] }] ∧ (u.part p).decided = none
      ∧ ∀ c, c ≠ src → c ≠ dst → u.core c = s.core c := by
  obtain ⟨w, hsettled, -⟩ := settleAgent_eq s p d
  obtain ⟨-, hp, -, hok, -, -, -, -, hhang⟩ := id hd
  have hsl : d.req.sl ≠ .complete := by
    intro hsl
    rw [State.decisionOk, hk, hsl] at hok
    exact absurd (Bool.and_eq_true_iff.mp (Bool.and_eq_true_iff.mp hok).1).1 (by decide)
  have hmoved : ({ e with cores := (e.cores.filter fun c => c ≠ src) ++ [dst] } : LEntry) = { e with cores := [dst] } := by rw [hcores]; simp
  have heffect : exec .decisionSteal s = .next (((entryMoved s src dst e).coreFreed src).endDecision p d (some (16 * p + e.ctx.toNat)) d.opb) := by
    refine congrArg Host.Outcome.next ((applyDecision_eq hd (by rw [hk]; rfl) _).trans ?_)
    rw [hsettled]
    dsimp only
    rw [hsrc, hdst, hnew]
    dsimp only
    rw [bitsOf_single hdlt, List.headD_cons, hmoved]
    rw [hcores, List.foldl_cons, List.foldl_nil, if_pos rfl]
    rfl
  obtain ⟨u, hu, hucores, hdec, -⟩ := endDecision_keeps hsl hhang hp (16 * p + e.ctx.toNat) ((entryMoved s src dst e).coreFreed src) d.opb
  have hcore : ∀ c, u.core c = (entryMoved s src dst e).core c := core_of_cores (hucores.trans (coreFreed_cores _ _))
  refine ⟨u, heffect.trans (congrArg _ hu), ?_, ?_, hdec, fun c h1 h2 => ?_⟩
  · rw [hcore, entryMoved, listedOn, State.core_onCore_ne _ hne, State.core_onCore_same s hs]
  · rw [hcore, entryMoved, listedOn, State.core_onCore_same _ hdlt, State.core_onCore_ne s hne.symm]
  · rw [hcore, entryMoved, listedOn, State.core_onCore_ne _ h2, State.core_onCore_ne s h1]


/-! ### PREEMPT -/

/-- The threshold for a context: a sequencer unit whose context's one image of the core holds another unit is spared. -/
def freezeBelow (k : Core) (c lo x : Nat) (q : Context) : Nat :=
  if k.runs x && ((aget q.images (logical q.cores c)).map fun m => m.unit.isSome).getD false then 16 + lo else lo
/-- A context of which a pre-emption takes something on a core freezes there. -/
def frozen (k : Core) (c lo now x : Nat) (q : Context) : Context :=
  if k.seqLeaves x (freezeBelow k c lo x q) || k.bands.any fun b => k.bandLeaves x (freezeBelow k c lo x q) b.2 then
    { q with freezing := (q.freezing.filter fun f => f.1 ≠ c) ++ [(c, freezeBelow k c lo x q, now)] }
  else q
/-- One context's part of a pre-emption. -/
def freezeStep (p c lo : Nat) (k : Core) (s : State) (i : Nat) : State := s.onCtx (16 * p + i) (frozen k c lo s.cycle (16 * p + i))

theorem frozen_keeps (k : Core) (c lo now x : Nat) (q : Context) : (frozen k c lo now x q).dsn = q.dsn ∧ (frozen k c lo now x q).logging = q.logging := by
  unfold frozen
  split <;> exact ⟨rfl, rfl⟩

theorem freezeSteps_cores (p c lo : Nat) (k : Core) (l : List Nat) (s : State) : (l.foldl (freezeStep p c lo k) s).cores = s.cores :=
  List.foldlRecOn (motive := fun t : State => t.cores = s.cores) l _ rfl fun _ ht _ _ => ht

theorem freezeSteps_ctx {p : Nat} (hp : p < 16) (c lo : Nat) (k : Core) {l : List Nat} (hl : l.Nodup) (hlt : ∀ i ∈ l, i < 16) (s : State) (y : Nat) :
    (l.foldl (freezeStep p c lo k) s).ctx (16 * p + y)
      = if y ∈ l then frozen k c lo s.cycle (16 * p + y) (s.ctx (16 * p + y)) else s.ctx (16 * p + y) := by
  induction l generalizing s with
  | nil => rfl
  | cons i l ih =>
    obtain ⟨hi, hl⟩ := List.nodup_cons.mp hl
    have hi16 := hlt i List.mem_cons_self
    rw [List.foldl_cons, ih hl (fun j hj => hlt j (List.mem_cons_of_mem i hj))]
    by_cases hy : y = i
    · subst hy
      rw [if_neg hi, if_pos List.mem_cons_self, freezeStep, State.ctx_onCtx_same s (by omega)]
    · have hother : (freezeStep p c lo k s i).ctx (16 * p + y) = s.ctx (16 * p + y) := State.ctx_onCtx_ne s (by omega) _
      rw [hother]
      simp only [List.mem_cons, hy, false_or]
      rfl

/-- What PREEMPT does before it ends. -/
def preempted (s : State) (p c lo : Nat) : State := (List.range 16).foldl (freezeStep p c lo (s.core c)) s

theorem preempted_cores (s : State) (p c lo : Nat) : (preempted s p c lo).cores = s.cores := freezeSteps_cores p c lo _ _ s

theorem preempted_ctx (s : State) {p y : Nat} (hp : p < 16) (hy : y < 16) (c lo : Nat) :
    (preempted s p c lo).ctx (16 * p + y) = frozen (s.core c) c lo s.cycle (16 * p + y) (s.ctx (16 * p + y)) := by
  rw [preempted, freezeSteps_ctx hp c lo _ List.nodup_range (fun i hi => List.mem_range.mp hi), if_pos (List.mem_range.mpr hy)]

theorem decisionPreempt_eq (hd : decides s p d x) (hk : d.kind = 3) (hsl : d.req.sl = .preempt) (hctx : d.req.ctx = some (BitVec.ofNat 4 x)) :
    exec .decisionPreempt s = .next (ended (preempted s p d.opa.toNat (d.imm.toNat % 16)) p (16 * p + x)) := by
  obtain ⟨w, hsettled, -⟩ := settleAgent_eq s p d
  obtain ⟨-, hp, -, -, -, hx, -⟩ := id hd
  have hstep : ∀ (t : State) (i : Nat), freezeStep p d.opa.toNat (d.imm.toNat % 16) (s.core d.opa.toNat) t i =
      let q := t.ctx (16 * p + i)
      let n := freezeBelow (s.core d.opa.toNat) d.opa.toNat (d.imm.toNat % 16) (16 * p + i) q
      if (s.core d.opa.toNat).seqLeaves (16 * p + i) n || (s.core d.opa.toNat).bands.any fun b => (s.core d.opa.toNat).bandLeaves (16 * p + i) n b.2 then
        t.onCtx (16 * p + i) fun q => { q with freezing := (q.freezing.filter fun f => f.1 ≠ d.opa.toNat) ++ [(d.opa.toNat, n, t.cycle)] }
      else t := by
    intro t i
    dsimp only
    split
    case isTrue h => rw [freezeStep, State.onCtx, frozen, if_pos h]; rfl
    case isFalse h => exact onCtx_id (by rw [frozen, if_neg h])
  refine congrArg Host.Outcome.next (applyDecision_quiet hd (by rw [hk]; rfl) (o := d.opb) ?_ (by rw [hsl]; exact nofun) ?_)
  · rw [hsettled]
    dsimp only
    rw [hsl, Decided.slot, hctx, Option.map_some, BitVec.toNat_ofNat, Nat.mod_eq_of_lt (by omega), preempted, funext₂ hstep,
      show bf d.imm.toNat 0 4 = d.imm.toNat % 16 by rw [bf_eq_div, pow_zero, Nat.div_one]; rfl]
    rfl
  · rw [preempted_ctx s hp hx]
    exact (frozen_keeps _ _ _ _ _ _).2

theorem decisionPreempt_spec (hd : decides s p d x) (hk : d.kind = 3) (hsl : d.req.sl = .preempt) (hctx : d.req.ctx = some (BitVec.ofNat 4 x)) {y : Nat}
    (hy : y < 16) (him : ((aget (s.ctx (16 * p + y)).images (logical (s.ctx (16 * p + y)).cores d.opa.toNat)).bind fun m => m.unit) = none) :
    ∃ u, exec .decisionPreempt s = .next u ∧ applied s u p x ∧ u.cores = s.cores
      ∧ let c := d.opa.toNat
        let lo := d.imm.toNat % 16
        let gone := (s.core c).seqLeaves (16 * p + y) lo = true ∨ ∃ b ∈ (s.core c).bands, (s.core c).bandLeaves (16 * p + y) lo b.2 = true
        (gone → (c, lo, s.cycle) ∈ (u.ctx (16 * p + y)).freezing)
        ∧ (¬ gone → (u.ctx (16 * p + y)).freezing = (s.ctx (16 * p + y)).freezing) := by
  obtain ⟨-, hp, -, -, -, hx, -⟩ := id hd
  have hbelow : freezeBelow (s.core d.opa.toNat) d.opa.toNat (d.imm.toNat % 16) (16 * p + y) (s.ctx (16 * p + y)) = d.imm.toNat % 16 := by
    have hnone : ((aget (s.ctx (16 * p + y)).images (logical (s.ctx (16 * p + y)).cores d.opa.toNat)).map fun m => m.unit.isSome).getD false = false := by
      cases hm : aget (s.ctx (16 * p + y)).images (logical (s.ctx (16 * p + y)).cores d.opa.toNat) with
      | none => rfl
      | some m => rw [hm, Option.bind_some] at him; simp [him]
    rw [freezeBelow, hnone, Bool.and_false, if_neg Bool.false_ne_true]
  have hfreezing : ∀ v : State, ((ended v p (16 * p + x)).ctx (16 * p + y)).freezing = (v.ctx (16 * p + y)).freezing := fun v =>
    ctx_onCtx_proj Context.freezing (f := fun k => { k with dsn := k.dsn + 1 }) (fun _ => rfl) _ _ _
  refine ⟨_, decisionPreempt_eq hd hk hsl hctx, applied_ended hp hx ?_, (ended_cores _ _ _).trans (preempted_cores _ _ _ _), ?_⟩
  · rw [preempted_ctx s hp hx]
    exact (frozen_keeps _ _ _ _ _ _).1
  · dsimp only
    rw [hfreezing, preempted_ctx s hp hy, frozen, hbelow]
    refine ⟨fun hgone => ?_, fun hstays => ?_⟩
    · rw [if_pos (by simpa using hgone)]
      exact List.mem_append_right _ (List.mem_singleton.mpr rfl)
    · rw [if_neg (by simpa using hstays)]

/-- PLACE, STEAL and PREEMPT. -/
theorem decisionsOnLists : DecisionsOnLists := by
  intro s p d x hd
  exact ⟨fun hk hsl t c hhead htask htx hrec hopb hc => decisionPlace_spec hd hk hsl hhead htask htx hrec hopb hc,
    fun hk src dst e hsrc hdst hs hdlt hne hnew hcores => decisionSteal_spec hd hk hsrc hdst hs hdlt hne hnew hcores,
    fun hk hsl hctx y hy him => decisionPreempt_spec hd hk hsl hctx hy him⟩

end

end Sys2Proof.Proofs
end

section
/-!
O41, second part. KEEP, KILLSTRAND, RESTART, PARK, REPLAY and ESCALATE (R105, R121, R138, R174, R190, R214, R293, R354, R356).
-/

namespace Sys2Proof.Proofs

open Sys2Proof Sys2Proof.Machine Sys2Proof.Claims

section
variable {s t v : State} {p x c n kind : Nat} {d : Decided} {b : Band} {r : FRec}

theorem slot_eq (hx : x < 16) (hctx : d.req.ctx = some (BitVec.ofNat 4 x)) : d.slot p = some (16 * p + x) := by
  rw [Decided.slot, hctx, Option.map_some, BitVec.toNat_ofNat, Nat.mod_eq_of_lt (by omega)]

/-- The decision on an agent that still stands acts on it. -/
theorem settleAgent_of (hx : x < 16) (hctx : d.req.ctx = some (BitVec.ofNat 4 x)) (hstands : s.agentStands (16 * p + x) d.req = true) :
    s.settleAgent p d = d := settleAgent_stands (by rw [slot_eq hx hctx]; exact hstands)

theorem agentStands_band {q : SReq} {y : Nat} (hwho : q.who = .band c n) (hb : s.band c n = some b) (hy : b.slot = y) : s.agentStands y q = true := by
  rw [State.agentStands, hwho]
  dsimp only
  rw [hb, Option.map_some, Option.getD_some, hy, beq_self_eq_true]

/-- A decision at a FAULT sluice whose effect leaves the contexts alone. -/
theorem faultDecision_eq (hd : decides s p d x) (hsl : d.req.sl = .fault) (hk : d.kind.toNat = kind)
    {f : State → Nat → Decided → State × Option Nat × Word} {o : Word} (hf : f s p (s.settleAgent p d) = (v, some (16 * p + x), o))
    (hv : v.ctx (16 * p + x) = s.ctx (16 * p + x)) :
    s.applyDecision kind f = ended v p (16 * p + x) ∧ applied s (ended v p (16 * p + x)) p x := by
  refine ⟨applyDecision_quiet hd hk hf (by rw [hsl]; exact nofun) (by rw [hv]), ?_⟩
  obtain ⟨-, hp, -, -, -, hx, -⟩ := hd
  exact applied_ended hp hx (by rw [hv])

/-! ### KEEP (R293, R356) -/

/-- A band that goes on after its fault: behind the instruction that its record names. -/
def keptBand (r : FRec) (now : Nat) (b : Band) : Band :=
  let b := if b.pc = r.pc then { b with pc := b.pc + 8, popped := [] } else b
  { b with st := .ready, halt := .none, unfinished := none, wait := .none, readySince := now }

theorem keepFault_band (hrec : d.req.record = some r) (hctx : d.req.ctx ≠ none) (hwho : d.req.who = .band c n) (hb : s.band c n = some b) (hinv : b.inv = none)
    (hst : b.st = .halted ∨ b.st = .parked) (hfetch : r.isFetch = false) (hstrand : r.kind ≠ .ueStrand) (hseq : r.kind ≠ .ueSeq) (hhang : r.kind ≠ .hang) :
    s.keepFault d = s.onBand c n (keptBand r s.cycle) := by
  obtain ⟨y, hy⟩ := Option.ne_none_iff_exists'.mp hctx
  rw [State.keepFault, hrec, hy]
  dsimp only
  rw [if_neg hstrand, if_neg (by simp [hseq]), hwho]
  dsimp only
  rw [hb]
  dsimp only
  rw [hinv, if_neg (by simp), hfetch, if_neg Bool.false_ne_true, if_neg]
  · rfl
  · rcases hst with h | h <;> simp [h, hhang]

/-- What a decision that changes one band of a core leaves. -/
theorem keepDecision_eq (hd : decides s p d x) (hsl : d.req.sl = .fault) (hctx : d.req.ctx = some (BitVec.ofNat 4 x)) (hk : d.kind = 0)
    (hstands : s.agentStands (16 * p + x) d.req = true) (hv : (s.keepFault d).ctx (16 * p + x) = s.ctx (16 * p + x)) :
    exec .decisionKeep s = .next (ended (s.keepFault d) p (16 * p + x)) ∧ applied s (ended (s.keepFault d) p (16 * p + x)) p x := by
  obtain ⟨-, -, -, -, -, hx, -⟩ := id hd
  have h := faultDecision_eq hd hsl (kind := 0) (by rw [hk]; rfl) (o := d.opb) (v := s.keepFault d)
    (f := fun s p d => (if d.req.sl = .fault then s.keepFault d else s,
      match d.req.sl with | .dispatch | .steal => (if d.rej then d.slot p else none) | _ => d.slot p, d.opb))
    (by rw [settleAgent_of hx hctx hstands, hsl, if_pos rfl, slot_eq hx hctx]) hv
  exact ⟨congrArg Host.Outcome.next h.1, h.2⟩

theorem decisionKeep_band (hd : decides s p d x) (hsl : d.req.sl = .fault) (hctx : d.req.ctx = some (BitVec.ofNat 4 x)) (hrec : d.req.record = some r)
    (hwho : d.req.who = .band c n) (hc : c < 64) (hb : s.band c n = some b) (hinv : b.inv = none) (hslot : b.slot = 16 * p + x) (hk : d.kind = 0)
    (hst : b.st = .halted ∨ b.st = .parked) (hfetch : r.isFetch = false) (hstrand : r.kind ≠ .ueStrand) (hseq : r.kind ≠ .ueSeq) (hpc : b.pc = r.pc) :
    ∃ u b', exec .decisionKeep s = .next u ∧ applied s u p x ∧ u.band c n = some b' ∧ b'.pc = b.pc + 8 ∧ b'.st = .ready ∧ b'.halt = .none
      ∧ b'.unfinished = none ∧ b'.v = b.v ∧ b'.b = b.b ∧ b'.live = b.live ∧ ∀ e, e ≠ c → u.core e = s.core e := by
  obtain ⟨-, -, -, -, -, -, -, -, hhang⟩ := id hd
  have hkeep := keepFault_band hrec (by rw [hctx]; exact nofun) hwho hb hinv hst hfetch hstrand hseq (hhang r hrec)
  obtain ⟨hrun, happlied⟩ := keepDecision_eq hd hsl hctx hk (agentStands_band hwho hb hslot) (by rw [hkeep]; rfl)
  rw [hkeep] at hrun happlied
  have hkept : keptBand r s.cycle b = { b with pc := b.pc + 8, popped := [], st := .ready, halt := .none, unfinished := none, wait := .none, readySince := s.cycle } := by
    rw [keptBand, if_pos hpc]
  refine ⟨_, keptBand r s.cycle b, hrun, happlied, ?_, ?_⟩
  · rw [State.band, ended_core, ← State.band, State.band_onBand_same s hc, hb, Option.map_some]
  · rw [hkept]
    exact ⟨rfl, rfl, rfl, rfl, rfl, rfl, rfl, fun e he => (ended_core _ _ _ _).trans (State.core_onCore_ne s he _)⟩

/-- A kept fault reaches the sequencer's handler (R112, R138). -/
theorem keepFault_seq {f : SeqFault} (hrec : d.req.record = some r) (hctx : d.req.ctx ≠ none) (hwho : d.req.who = .seq c)
    (hf : (s.core c).seq.fault = some f) (herec : f.erec = d.req.recAddr) (hstrand : r.kind ≠ .ueStrand) (hseq : r.kind ≠ .ueSeq) (hhang : r.kind ≠ .hang)
    (htvec : (s.core c).seq.tvec ≠ 0) (hh : d.req.handler = false) : s.keepFault d = s.onCore c fun co => { co with seq := { co.seq with
      epc := f.epc, ecause := BitVec.ofNat 64 r.kind.code, erec := d.req.recAddr, handler := true, pc := co.seq.tvec, phase := .run, stall := none, fault := none } } := by
  obtain ⟨y, hy⟩ := Option.ne_none_iff_exists'.mp hctx
  rw [State.keepFault, hrec, hy]
  dsimp only
  rw [if_neg hstrand, if_neg (by simp [hseq]), hwho]
  dsimp only
  rw [if_neg hhang, hf, Option.map_some, if_pos herec, State.deliver, if_neg (by rw [hh]; simpa using htvec)]
  rfl

theorem decisionKeep_seq {f : SeqFault} (hd : decides s p d x) (hsl : d.req.sl = .fault) (hctx : d.req.ctx = some (BitVec.ofNat 4 x)) (hk : d.kind = 0)
    (hrec : d.req.record = some r) (hwho : d.req.who = .seq c) (hc : c < 64) (hf : (s.core c).seq.fault = some f) (herec : f.erec = d.req.recAddr)
    (hruns : (s.core c).runs (16 * p + x) = true) (hstrand : r.kind ≠ .ueStrand) (hseq : r.kind ≠ .ueSeq) (htvec : (s.core c).seq.tvec ≠ 0)
    (hh : d.req.handler = false) : ∃ u, exec .decisionKeep s = .next u ∧ applied s u p x ∧ (u.core c).seq.pc = (s.core c).seq.tvec
      ∧ (u.core c).seq.epc = f.epc ∧ (u.core c).seq.ecause.toNat = r.kind.code ∧ (u.core c).seq.erec = d.req.recAddr ∧ (u.core c).seq.handler = true
      ∧ (u.core c).seq.phase = .run ∧ (u.core c).seq.s = (s.core c).seq.s := by
  obtain ⟨-, -, -, -, -, -, -, -, hhang⟩ := id hd
  have hkeep := keepFault_seq hrec (by rw [hctx]; exact nofun) hwho hf herec hstrand hseq (hhang r hrec) htvec hh
  have hstands : s.agentStands (16 * p + x) d.req = true := by
    rw [State.agentStands, hwho]
    dsimp only
    rw [hruns, hf]
    rfl
  obtain ⟨hrun, happlied⟩ := keepDecision_eq hd hsl hctx hk hstands (by rw [hkeep]; rfl)
  rw [hkeep] at hrun happlied
  have hcode : r.kind.code < 2 ^ 64 := by cases r.kind <;> decide
  refine ⟨_, hrun, happlied, ?_⟩
  rw [ended_core, State.core_onCore_same s hc]
  exact ⟨rfl, rfl, by rw [BitVec.toNat_ofNat, Nat.mod_eq_of_lt hcode], rfl, rfl, rfl, rfl⟩

/-! ### KILLSTRAND (R214) -/

/-- A band that goes on without the strands that die. -/
def survived (m : Word) (now : Nat) (b : Band) : Band := (b.kill m).resume now

theorem survived_eq (m : Word) (now : Nat) (hst : b.st = .halted) (hu : b.unfinished = none) :
    survived m now b = { b.kill m with st := .ready, halt := .none, readySince := now } := by
  rw [survived, Band.resume, if_neg (by simp [Band.kill, hst]), if_neg (by simp [Band.kill, hu])]

theorem killStrands_eq (s : State) (hb : s.band c n = some b) (hinv : b.inv = none) (m : Word) : s.killStrands c n m = s.onBand c n fun b => b.kill m := by
  rw [State.killStrands, hb]
  dsimp only
  rw [hinv, if_neg (by simp)]

theorem decisionKillstrand_eq (hd : decides s p d x) (hsl : d.req.sl = .fault) (hctx : d.req.ctx = some (BitVec.ofNat 4 x)) (hwho : d.req.who = .band c n)
    (hc : c < 64) (hb : s.band c n = some b) (hinv : b.inv = none) (hslot : b.slot = 16 * p + x) (hk : d.kind = 4) (hu : b.unfinished = none) :
    exec .decisionKillstrand s = .next (ended (s.onBand c n (survived d.opb s.cycle)) p (16 * p + x))
    ∧ applied s (ended (s.onBand c n (survived d.opb s.cycle)) p (16 * p + x)) p x := by
  obtain ⟨-, -, -, -, -, hx, -⟩ := id hd
  refine And.imp_left (congrArg Host.Outcome.next) (faultDecision_eq hd hsl (by rw [hk]; rfl) (o := d.opb) ?_ rfl)
  have hdead : (s.onBand c n fun b => b.kill d.opb).band c n = some (b.kill d.opb) := by rw [State.band_onBand_same s hc, hb, Option.map_some]
  rw [settleAgent_of hx hctx (agentStands_band hwho hb hslot), hwho]
  dsimp only
  rw [killStrands_eq s hb hinv, onBand_id hdead (by rw [show (b.kill d.opb).unfinished = b.unfinished.map _ from rfl, hu]; rfl), hdead]
  dsimp only
  rw [show (b.kill d.opb).inv = b.inv from rfl, hinv, slot_eq hx hctx]
  dsimp only [Option.bind_none]
  rw [onBand_onBand s hc]
  rfl

theorem decisionKillstrand_spec (hd : decides s p d x) (hsl : d.req.sl = .fault) (hctx : d.req.ctx = some (BitVec.ofNat 4 x)) (hwho : d.req.who = .band c n)
    (hc : c < 64) (hb : s.band c n = some b) (hinv : b.inv = none) (hslot : b.slot = 16 * p + x) (hk : d.kind = 4) (hu : b.unfinished = none)
    (hst : b.st = .halted) : ∃ u b', exec .decisionKillstrand s = .next u ∧ applied s u p x ∧ u.band c n = some b' ∧ b'.live = b.live &&& ~~~d.opb
      ∧ b'.dead = b.dead ||| d.opb ∧ b'.st = .ready ∧ b'.pc = b.pc ∧ b'.v = b.v ∧ (∀ e ∈ b'.stack, e.mask &&& d.opb = 0) ∧ ∀ e, e ≠ c → u.core e = s.core e := by
  obtain ⟨hrun, happlied⟩ := decisionKillstrand_eq hd hsl hctx hwho hc hb hinv hslot hk hu
  refine ⟨_, survived d.opb s.cycle b, hrun, happlied, ?_, ?_⟩
  · rw [State.band, ended_core, ← State.band, State.band_onBand_same s hc, hb, Option.map_some]
  · rw [survived_eq _ _ hst hu]
    refine ⟨rfl, rfl, rfl, rfl, rfl, fun e he => ?_, fun e he => (ended_core _ _ _ _).trans (State.core_onCore_ne s he _)⟩
    obtain ⟨f, -, rfl⟩ := List.mem_map.mp he
    exact and_not_and _ _

/-! ### RESTART (R174) -/

/-- What of a core a restart leaves while tiles, ranges and the rendezvous change. -/
def bandsInvs (k : Core) : List (Nat × Band) × List Inv := (k.bands, k.invs)

theorem dropJoint_bandsInvs (k : Core) (l : List Nat) : bandsInvs (k.dropJoint l) = bandsInvs k := by
  unfold Core.dropJoint
  split
  · split <;> rfl
  · rfl

theorem foldl_bandsInvs {α : Type} {f : Core → α → Core} (hf : ∀ k a, bandsInvs (f k a) = bandsInvs k) (l : List α) (k : Core) :
    bandsInvs (l.foldl f k) = bandsInvs k :=
  List.foldlRecOn (motive := fun j : Core => bandsInvs j = bandsInvs k) l f rfl fun j hj a _ => (hf j a).trans hj

/-- The invocation stands anew at the head of the queue, and no band serves it (R174). -/
theorem restartInv_spec {i : Inv} (s : State) (hc : c < 64) (hi : (s.core c).inv i.id = some i) :
    (∃ j rest, ((s.restartInv c i.id).core c).invs = j :: rest ∧ j.id = i.id ∧ j.st = .queued ∧ j.bands = [] ∧ j.handles = i.handles)
    ∧ ((s.restartInv c i.id).core c).bands = (s.core c).bands.filter (fun b => !(s.core c).serves b.2 i.id)
    ∧ (∀ e, e ≠ c → (s.restartInv c i.id).core e = s.core e) ∧ (s.restartInv c i.id).ctxs = s.ctxs := by
  obtain ⟨v, hv⟩ : ∃ v, v = s.restartInv c i.id := ⟨_, rfl⟩
  rw [← hv]
  unfold State.restartInv at hv
  extract_lets k at hv
  rw [show k.inv i.id = some i from hi] at hv
  dsimp -zeta only at hv
  extract_lets fresh entry k4 k5 again k6 at hv
  rename_i k1 k2 k3
  have h2 : bandsInvs k2 = bandsInvs k1 := foldl_bandsInvs (f := fun k n => k.dropRange (.nest n)) (fun _ _ => rfl) _ _
  have h3 : bandsInvs k3 = bandsInvs k1 := (dropJoint_bandsInvs _ _).trans h2
  have h4 : bandsInvs k4 = bandsInvs k1 := (foldl_bandsInvs (fun k n => by split <;> rfl) _ _).trans h3
  have h5 : bandsInvs k5 = bandsInvs k1 := by
    show bandsInvs (if _ then _ else _) = _
    split
    · refine (foldl_bandsInvs ?_ _ k4).trans h4
      exact fun _ _ => rfl
    · exact h4
  have hcore : v.core c = k6 := hv ▸ State.core_setCore_same s hc _
  rw [hcore, hv]
  exact ⟨⟨again, _, rfl, rfl, rfl, rfl, rfl⟩, congrArg Prod.fst h5, fun e he => State.core_setCore_ne s he _, rfl⟩

theorem decisionRestart_spec {i : Inv} (hd : decides s p d x) (hsl : d.req.sl = .fault) (hctx : d.req.ctx = some (BitVec.ofNat 4 x)) (hk : d.kind = 5)
    (hrec : s.recordInv d.req.who = some (c, i)) (hstands : s.agentStands (16 * p + x) d.req = true) (hc : c < 64) (hi : (s.core c).inv i.id = some i) :
    ∃ u j rest, exec .decisionRestart s = .next u ∧ applied s u p x ∧ (u.core c).invs = j :: rest ∧ j.id = i.id ∧ j.st = .queued ∧ j.bands = []
      ∧ j.handles = i.handles ∧ (∀ b ∈ (u.core c).bands, (s.core c).serves b.2 i.id = false) ∧ ∀ e, e ≠ c → u.core e = s.core e := by
  obtain ⟨-, -, -, -, -, hx, -⟩ := id hd
  obtain ⟨⟨j, rest, hinvs, hjid, hjst, hjbands, hjhandles⟩, hbands, hothers, hctxs⟩ := restartInv_spec s hc hi
  have hcore : ∀ e, ((s.restartInv c i.id).coreFreed c).core e = (s.restartInv c i.id).core e := core_of_cores (coreFreed_cores _ _)
  have heffect : exec .decisionRestart s = .next (ended ((s.restartInv c i.id).coreFreed c) p (16 * p + x))
      ∧ applied s (ended ((s.restartInv c i.id).coreFreed c) p (16 * p + x)) p x := by
    refine And.imp_left (congrArg Host.Outcome.next) (faultDecision_eq hd hsl (by rw [hk]; rfl) (o := d.opb) ?_ ?_)
    · rw [settleAgent_of hx hctx hstands, hrec, slot_eq hx hctx]
    · rw [coreFreed_ctx]
      exact congrArg (fun v : Vector Context 256 => (v[16 * p + x]?).getD Context.reset) hctxs
  refine ⟨_, j, rest, heffect.1, heffect.2, ?_⟩
  rw [ended_core, hcore, hinvs, hbands]
  refine ⟨rfl, hjid, hjst, hjbands, hjhandles, fun b hb => ?_, fun e he => ?_⟩
  · simpa using (List.mem_filter.mp hb).2
  · rw [ended_core, hcore, hothers e he]

/-! ### PARK (R190, R206) -/

theorem decisionPark_leaves (hd : decides s p d x) (hsl : d.req.sl = .fault) (hctx : d.req.ctx = some (BitVec.ofNat 4 x)) (hk : d.kind = 6)
    (hwho : ∀ c, d.req.who ≠ .array c) : exec .decisionPark s = .next (ended s p (16 * p + x)) ∧ applied s (ended s p (16 * p + x)) p x := by
  obtain ⟨-, -, -, -, -, hx, -⟩ := id hd
  obtain ⟨w, hsettled, hw⟩ := settleAgent_eq s p d
  refine And.imp_left (congrArg Host.Outcome.next) (faultDecision_eq hd hsl (by rw [hk]; rfl) (o := d.opb) ?_ rfl)
  rw [hsettled]
  dsimp only
  have hslot : Decided.slot { d with req := { d.req with who := w } } p = some (16 * p + x) := slot_eq hx hctx
  rw [hslot]
  split
  case h_1 h =>
    rcases hw with hw | hw
    · exact absurd hw.symm (hwho _)
    · exact nomatch hw
  case h_2 => rfl

theorem dropCompute_seq (k : Core) (n : Nat) : (k.dropCompute n).seq = k.seq := rfl
theorem toState_seq (k : Core) (n : Nat) (st : TState) : (k.toState n st).seq = k.seq := rfl

theorem dropStream_seq (k : Core) (q : ArrCmd) : (k.dropStream q).seq = k.seq := by
  unfold Core.dropStream
  extract_lets k1 arr k2
  have h2 : k2.seq = k.seq := by
    show (if _ then _ else _ : Core).seq = _
    split <;> rfl
  split
  · exact h2
  · split
    · exact h2
    · split <;> exact h2

theorem discardStream_spec (k : Core) : k.discardStream.arr.fault = none ∧ k.discardStream.arr.stream = none ∧ k.discardStream.seq = k.seq := by
  unfold Core.discardStream
  extract_lets arr
  split
  · split
    · exact ⟨rfl, rfl, dropStream_seq _ _⟩
    · exact ⟨rfl, rfl, rfl⟩
  · exact ⟨rfl, rfl, rfl⟩

/-- Fences that are let go of leave the stream and the sequencer. -/
theorem openFences_keeps (fuel : Nat) (k : Core) : (k.openFences fuel).arr.fault = k.arr.fault ∧ (k.openFences fuel).arr.stream = k.arr.stream
    ∧ (k.openFences fuel).seq = k.seq := by
  induction fuel generalizing k with
  | zero => exact ⟨rfl, rfl, rfl⟩
  | succ fuel ih =>
    unfold Core.openFences
    dsimp only
    split
    · exact ⟨rfl, rfl, rfl⟩
    · exact ih _

theorem decisionPark_array (hd : decides s p d x) (hsl : d.req.sl = .fault) (hctx : d.req.ctx = some (BitVec.ofNat 4 x)) (hk : d.kind = 6)
    (hwho : d.req.who = .array c) (hrec : d.req.record = some r) (hc : c < 64) (hkind : r.kind = .pageUnmapped) (hruns : (s.core c).runs (16 * p + x) = true)
    (hf : (s.core c).arr.fault = some .operand) : ∃ u, exec .decisionPark s = .next u ∧ applied s u p x ∧ (u.core c).arr.fault = none
      ∧ (u.core c).arr.stream = none ∧ (u.core c).seq = (s.core c).seq ∧ ∀ e, e ≠ c → u.core e = s.core e := by
  obtain ⟨-, -, -, -, -, hx, -⟩ := id hd
  have hstands : s.agentStands (16 * p + x) d.req = true := by
    rw [State.agentStands, hwho]
    dsimp only
    rw [hruns, Bool.true_or]
  have hkeep : s.keepFault d = (s.onCore c Core.discardStream).freeFences c := by
    rw [State.keepFault, hrec, hctx]
    dsimp only
    rw [hwho, hkind]
    dsimp only
    rw [hf]
    rfl
  have heffect : exec .decisionPark s = .next (ended (s.keepFault d) p (16 * p + x)) ∧ applied s (ended (s.keepFault d) p (16 * p + x)) p x := by
    refine And.imp_left (congrArg Host.Outcome.next) (faultDecision_eq hd hsl (by rw [hk]; rfl) (o := d.opb) ?_ (by rw [hkeep]; rfl))
    rw [settleAgent_of hx hctx hstands, slot_eq hx hctx, hwho]
  obtain ⟨hfault, hstream, hseq⟩ := discardStream_spec (s.core c)
  obtain ⟨hfault', hstream', hseq'⟩ := openFences_keeps (s.core c).discardStream.fenceCount (s.core c).discardStream
  refine ⟨_, heffect.1, heffect.2, ?_⟩
  rw [ended_core, hkeep, State.freeFences, State.core_onCore_same _ hc, State.core_onCore_same _ hc, hfault', hstream', hseq']
  refine ⟨hfault, hstream, hseq, fun e he => ?_⟩
  rw [ended_core, State.core_onCore_ne _ he, State.core_onCore_ne _ he]

/-! ### REPLAY and ESCALATE (R105, R121) -/

theorem decisionReplay_spec (hd : decides s p d x) (hsl : d.req.sl = .fault) (hctx : d.req.ctx = some (BitVec.ofNat 4 x)) (hk : d.kind = 9)
    (hst : (s.ctx (16 * p + x)).st = .running ∨ (s.ctx (16 * p + x)).st = .preempted) : ∃ u, exec .decisionReplay s = .next u ∧ (u.part p).decided = none
      ∧ (u.ctx (16 * p + x)).st = (if (s.ctx (16 * p + x)).rsafe then .recovering else .failed) := by
  obtain ⟨-, hp, -, -, -, hx, -, -, hhang⟩ := id hd
  obtain ⟨w, hsettled, -⟩ := settleAgent_eq s p d
  obtain ⟨v, hv⟩ : ∃ v, v = if (s.ctx (16 * p + x)).rsafe then s.startReplay (16 * p + x) else s.failContext (16 * p + x) := ⟨_, rfl⟩
  obtain ⟨u, hu, -, hdec, hkeep, -⟩ := endDecision_keeps (by rw [hsl]; exact nofun) hhang hp (16 * p + x) v d.opb
  refine ⟨u, (congrArg Host.Outcome.next ((applyDecision_eq hd (by rw [hk]; rfl) _).trans ?_)).trans (congrArg _ hu), hdec, ?_⟩
  · rw [hsettled]
    dsimp only
    have hslot : Decided.slot { d with req := { d.req with who := w } } p = some (16 * p + x) := slot_eq hx hctx
    rw [hslot]
    dsimp only
    rw [if_pos (by rcases hst with h | h <;> simp [h]), hv]
  · rw [hkeep (by omega), hv]
    split
    · exact startReplay_st s (by omega)
    · exact (failContext_fails (by omega) (by rcases hst with h | h <;> simp [h])).1

theorem decisionEscalate_spec (hd : decides s p d x) (hsl : d.req.sl = .fault) (hctx : d.req.ctx = some (BitVec.ofNat 4 x)) (hk : d.kind = 10)
    (hst : (s.ctx (16 * p + x)).st ∉ [CState.empty, .retired, .failed]) : ∃ u, exec .decisionEscalate s = .next u ∧ (u.part p).decided = none
      ∧ (u.ctx (16 * p + x)).st = .failed ∧ (u.part p).vecs.getLsbD 0 = true := by
  obtain ⟨-, hp, -, -, -, hx, -, -, hhang⟩ := id hd
  obtain ⟨w, hsettled, -⟩ := settleAgent_eq s p d
  obtain ⟨hfailed, hvec⟩ := failContext_fails (x := 16 * p + x) (by omega) hst
  rw [show (16 * p + x) / 16 = p by omega] at hvec
  obtain ⟨u, hu, -, hdec, hkeep, hvecs⟩ := endDecision_keeps (by rw [hsl]; exact nofun) hhang hp (16 * p + x) (s.failContext (16 * p + x)) d.opb
  refine ⟨u, (congrArg Host.Outcome.next ((applyDecision_eq hd (by rw [hk]; rfl) _).trans ?_)).trans (congrArg _ hu), hdec,
    (hkeep (by omega)).trans hfailed, hvecs 0 hvec⟩
  rw [hsettled]
  dsimp only
  rw [hsl, show Decided.slot { d with req := { d.req with sl := .fault, who := w } } p = some (16 * p + x) from slot_eq hx hctx]

/-- KEEP, KILLSTRAND, RESTART, PARK, REPLAY and ESCALATE. -/
theorem decisionsOnAgents : DecisionsOnAgents := by
  intro s p d x hd hsl hctx
  refine ⟨fun r c n b hrec hwho hc hb hinv hslot =>
      ⟨fun hk hst hfetch hstrand hseq hpc => decisionKeep_band hd hsl hctx hrec hwho hc hb hinv hslot hk hst hfetch hstrand hseq hpc,
        fun hk hu _ hst => decisionKillstrand_spec hd hsl hctx hwho hc hb hinv hslot hk hu hst⟩,
    fun r c f hk hrec hwho hc hf herec hruns hstrand hseq htvec hh => decisionKeep_seq hd hsl hctx hk hrec hwho hc hf herec hruns hstrand hseq htvec hh,
    fun c i hk hrec hstands hc hi => decisionRestart_spec hd hsl hctx hk hrec hstands hc hi, fun hk hwho => ?_,
    fun c r hk hwho hrec hc hkind hruns hf => decisionPark_array hd hsl hctx hk hwho hrec hc hkind hruns hf,
    fun hk hst => decisionReplay_spec hd hsl hctx hk hst, fun hk hst => decisionEscalate_spec hd hsl hctx hk hst⟩
  obtain ⟨hrun, happlied⟩ := decisionPark_leaves hd hsl hctx hk hwho
  exact ⟨_, hrun, happlied, ended_cores _ _ _, fun h => ended_home _ _ _ _⟩

end

end Sys2Proof.Proofs
end

section
/-!
O41, third part. MAP, MIGRATE and REMAP (R273, R357).
-/

namespace Sys2Proof.Proofs

open Sys2Proof Sys2Proof.Machine Sys2Proof.Claims

section
variable {s t v : State} {p x kind : Nat} {d : Decided} {r : FRec} {tlr : BitVec 512} {tensor page eh ea : Nat} {e : Word}

/-! ### Agents that go on (R293) -/

/-- An agent that goes on changes nothing but the cores. -/
theorem resumeAgent_rest (s : State) (who : Agent) : { s.resumeAgent who with cores := s.cores } = s := by
  unfold State.resumeAgent
  split
  · split
    · split
      · split <;> rfl
      · rfl
    · rfl
  · rfl
  · rfl
  · rfl
  · rfl

theorem resumeAgent_ctx (s : State) (who : Agent) (y : Nat) : (s.resumeAgent who).ctx y = s.ctx y :=
  (congrArg (fun v : State => v.ctx y) (resumeAgent_rest s who) :)
theorem resumeAgent_migs (s : State) (who : Agent) : (s.resumeAgent who).migs = s.migs := (congrArg State.migs (resumeAgent_rest s who) :)

/-- A core that holds a band is one of the 64. -/
theorem core_lt_of_band {c n : Nat} {b : Band} (hb : s.band c n = some b) : c < 64 := by
  by_contra hc
  rw [State.band, State.core, Vector.getElem?_eq_none (Nat.le_of_not_lt hc)] at hb
  exact nomatch hb

theorem resumeAgent_parked {c n : Nat} {b : Band} (hb : s.band c n = some b) (hst : b.st = .parked) :
    (s.resumeAgent (.band c n)).band c n = some { b with st := .ready, readySince := s.cycle } := by
  rw [State.resumeAgent, hb]
  dsimp only
  rw [hst, if_neg (by simp), State.resumePark, State.band_onBand_same s (core_lt_of_band hb), hb, Option.map_some, if_pos hst]

/-! ### Page decisions (R273, R357) -/

/-- The page decision `d` of context `16 p + x` names a page whose leaf entry `e` lies at byte `ea` of home `eh`, and target frames of the partition; no
translation is held. -/
structure PageCase (s : State) (p : Nat) (d : Decided) (x : Nat) (r : FRec) (tlr : BitVec 512) (tensor page eh ea : Nat) (e : Word) : Prop where
  decides : decides s p d x
  sl : d.req.sl = .fault
  ctx : d.req.ctx = some (BitVec.ofNat 4 x)
  record : d.req.record = some r
  page : s.recordPage (16 * p + x) r = some (tlr, tensor, page, some (eh, ea, e))
  tlbs : ∀ c < 64, (s.core c).tlb = []
  opb : d.opb ≠ 0
  imm : d.imm.toNat ≤ 1
  eh : eh ≤ 1
  frames : (s.part p).framesIn d.imm.toNat d.opb.toNat (tlrPage tlr / 4096) = true

/-- A page decision that comes out: the agent goes on, and the decision ends. -/
theorem pageDecision_run (h : PageCase s p d x r tlr tensor page eh ea e) (hk : d.kind.toNat = kind) {o : Word}
    (hout : s.pageDecision (16 * p + x) kind d.opa d.opb d.imm.toNat tlr tensor page (some (eh, ea, e)) = .ok (v, o))
    (hv : v.ctx (16 * p + x) = s.ctx (16 * p + x)) :
    ∃ w, (w = d.req.who ∨ w = .env) ∧ (s.agentStands (16 * p + x) d.req = true → w = d.req.who)
      ∧ s.applyDecision kind (fun s p d => s.applyPage kind p d) = ended (v.resumeAgent w) p (16 * p + x)
      ∧ applied s (ended (v.resumeAgent w) p (16 * p + x)) p x := by
  have hx : x < 16 := h.decides.2.2.2.2.2.1
  obtain ⟨w, hsettled, hw⟩ := settleAgent_eq s p d
  refine ⟨w, hw, fun hstands => ?_, ?_⟩
  · rw [settleAgent_of hx h.ctx hstands] at hsettled
    exact (congrArg (fun d : Decided => d.req.who) hsettled).symm
  · refine faultDecision_eq h.decides h.sl hk (o := o) ?_ ((resumeAgent_ctx v w _).trans hv)
    rw [hsettled, State.applyPage, show Decided.slot { d with req := { d.req with who := w } } p = some (16 * p + x) from slot_eq hx h.ctx]
    dsimp only
    rw [h.record]
    dsimp only
    rw [h.page]
    dsimp only
    rw [hout]

theorem targetFrame_given (s : State) (p h n : Nat) {opb : Word} (hopb : opb ≠ 0) : s.targetFrame p h n opb = (some opb.toNat, s) := if_pos hopb

/-- The device once a leaf entry is written and the page's translations are invalidated. -/
def leafWritten (s : State) (y tensor page eh ea w : Nat) (mig : Option Nat) : State :=
  (s.homeWrite eh ea (bytesOfNat 8 w)).invalidate y (some tensor) page page mig

theorem leafWritten_home (htlb : ∀ c < 64, (s.core c).tlb = []) (heh : eh ≤ 1) {y w h : Nat} (mig : Option Nat) (hh : h ≤ 1) :
    (leafWritten s y tensor page eh ea w mig).home h = if h = eh then (s.home h).writeBytes ea (bytesOfNat 8 w) else s.home h := by
  have htlb' : ∀ c < 64, ((s.homeWrite eh ea (bytesOfNat 8 w)).core c).tlb = [] := fun c hc => by rw [homeWrite_core]; exact htlb c hc
  rw [leafWritten, invalidate_empty _ _ _ _ _ htlb' h, home_homeWrite s hh heh]

theorem leafWritten_butCopies (s : State) (y tensor page eh ea w : Nat) (mig : Option Nat) : butCopies (leafWritten s y tensor page eh ea w mig) = butCopies s :=
  (butCopies_invalidate _ _ _ _ _ _).trans (butCopies_setHome _ _ _)

theorem ctx_of_butCopies (h : butCopies t = butCopies s) (z : Nat) : t.ctx z = s.ctx z := (congrArg (fun v : State => v.ctx z) h :)
theorem part_of_butCopies (h : butCopies t = butCopies s) (q : Nat) : t.part q = s.part q := (congrArg (fun v : State => v.part q) h :)
theorem migs_of_butCopies (h : butCopies t = butCopies s) : t.migs = s.migs := (congrArg State.migs h :)

theorem leafWritten_ctx (s : State) (y tensor page eh ea w : Nat) (mig : Option Nat) (z : Nat) : (leafWritten s y tensor page eh ea w mig).ctx z = s.ctx z :=
  ctx_of_butCopies (leafWritten_butCopies s y tensor page eh ea w mig) z

/-- The leaf entry that MAP writes. -/
def mapEntry (opa : Word) (home f : Nat) : Nat :=
  2 ^ 63 + home * 2 ^ 61 + (opa.toNat / 2 % 2) * 2 ^ 47 + (opa.toNat / 4 % 2) * 2 ^ 46 + (opa.toNat % 2) * 2 ^ 45 ||| f

theorem mapEntry_eq (opa : Word) {home : Nat} (hh : home ≤ 1) (f : Nat) :
    1 <<< 63 ||| home <<< 61 ||| ((if opa.getLsbD 0 then 1 <<< 45 else 0) ||| (if opa.getLsbD 1 then 1 <<< 47 else 0)
      ||| (if opa.getLsbD 2 then 1 <<< 46 else 0)) ||| 0 ||| f = mapEntry opa home f := by
  have hbit : ∀ i, opa.getLsbD i = decide (opa.toNat / 2 ^ i % 2 = 1) := fun i => by rw [BitVec.getLsbD, Nat.testBit_eq_decide_div_mod_eq]
  have h0 := Nat.mod_two_eq_zero_or_one opa.toNat
  have h1 := Nat.mod_two_eq_zero_or_one (opa.toNat / 2)
  have h2 := Nat.mod_two_eq_zero_or_one (opa.toNat / 4)
  have hhome : home = 0 ∨ home = 1 := by omega
  rw [mapEntry, hbit, hbit, hbit, pow_zero, Nat.div_one, pow_one, show (2 : Nat) ^ 2 = 4 from rfl]
  congr 1
  rcases h0 with h0 | h0 <;> rcases h1 with h1 | h1 <;> rcases h2 with h2 | h2 <;> rcases hhome with rfl | rfl <;> rw [h0, h1, h2] <;> decide

theorem pageDecision_map (hp : x < 16) {y : Nat} (hy : y = 16 * p + x) {opa opb : Word} {home : Nat} (hopb : opb ≠ 0) (hhome : home ≤ 1)
    (hfr : (s.part p).framesIn home opb.toNat (tlrPage tlr / 4096) = true) (hv : leafV e = false) (h1 : leafVst e ≠ 1) (h2 : leafVst e ≠ 2) :
    s.pageDecision y 7 opa opb home tlr tensor page (some (eh, ea, e)) =
      .ok (leafWritten s y tensor page eh ea (mapEntry opa home opb.toNat) none, BitVec.ofNat 64 opb.toNat) := by
  have hyp : y / 16 = p := by omega
  rw [← mapEntry_eq opa hhome]
  simp only [State.pageDecision, hv, h1, h2, hyp, targetFrame_given s _ _ _ hopb, hfr, show home ≠ 2 by omega, Bool.not_false, Bool.true_and, decide_false,
    Bool.false_eq_true, if_false, if_true, Bool.not_true]
  rfl

theorem decisionMap_spec (h : PageCase s p d x r tlr tensor page eh ea e) (hk : d.kind = 7) (hv : leafV e = false) (h1 : leafVst e ≠ 1) (h2 : leafVst e ≠ 2) :
    ∃ u, exec .decisionMap s = .next u ∧ applied s u p x
      ∧ u.home eh = (s.home eh).writeBytes ea (bytesOfNat 8 (mapEntry d.opa d.imm.toNat d.opb.toNat))
      ∧ (∀ h, h ≤ 1 → h ≠ eh → u.home h = s.home h)
      ∧ ∀ c k b, d.req.who = .band c k → s.band c k = some b → b.slot = 16 * p + x → b.st = .parked → ∃ b', u.band c k = some b' ∧ b'.st = .ready ∧ b'.pc = b.pc := by
  have hx : x < 16 := h.decides.2.2.2.2.2.1
  obtain ⟨w, hw, hstands, hrun, happlied⟩ := pageDecision_run h (by rw [hk]; rfl) (pageDecision_map hx rfl h.opb h.imm h.frames hv h1 h2) (leafWritten_ctx _ _ _ _ _ _ _ _ _)
  refine ⟨_, congrArg Host.Outcome.next hrun, happlied, ?_, fun h' hh hne => ?_, fun c k b hwho hb hslot hst => ?_⟩
  · rw [ended_home, memSame_resumeAgent, leafWritten_home h.tlbs h.eh none h.eh, if_pos rfl]
  · rw [ended_home, memSame_resumeAgent, leafWritten_home h.tlbs h.eh none hh, if_neg hne]
  · rw [hstands (agentStands_band hwho hb hslot), hwho]
    refine ⟨_, (resumeAgent_parked (b := b) ?_ hst), rfl, rfl⟩
    rw [State.band, core_of_butCopies (leafWritten_butCopies _ _ _ _ _ _ _ _) Core.bands (fun _ => rfl)]
    exact hb

/-! ### MIGRATE -/

/-- The device with one more page on the move. -/
def migListed (s : State) (m : Migration) : State := { s with migs := s.migs ++ [m] }
/-- The device once a page's entry is marked MIGRATING, its move listed and its translations invalidated. -/
def migrating (s : State) (y tensor page eh ea w : Nat) (m : Migration) : State :=
  (migListed (s.newId.2.homeWrite eh ea (bytesOfNat 8 w)) m).invalidate y (some tensor) page page (some s.nextId)

theorem butCopies_migListed_setHome (s : State) (h : Nat) (b : Memory) (m : Migration) :
    butCopies (migListed (s.setHome h b) m) = butCopies (migListed s m) := by
  unfold State.setHome
  split <;> rfl

theorem migrating_butCopies (s : State) (y tensor page eh ea w : Nat) (m : Migration) :
    butCopies (migrating s y tensor page eh ea w m) = butCopies (migListed s.newId.2 m) := by
  rw [migrating, butCopies_invalidate, State.homeWrite, butCopies_migListed_setHome]

theorem migrating_home (htlb : ∀ c < 64, (s.core c).tlb = []) (heh : eh ≤ 1) (y w : Nat) (m : Migration) :
    (migrating s y tensor page eh ea w m).home eh = (s.home eh).writeBytes ea (bytesOfNat 8 w) := by
  have htlb' : ∀ c < 64, ((migListed (s.newId.2.homeWrite eh ea (bytesOfNat 8 w)) m).core c).tlb = [] := fun c hc => by
    rw [show (migListed (s.newId.2.homeWrite eh ea (bytesOfNat 8 w)) m).core c = (s.newId.2.homeWrite eh ea (bytesOfNat 8 w)).core c from rfl, homeWrite_core]
    exact htlb c hc
  rw [migrating, invalidate_empty _ _ _ _ _ htlb' eh]
  exact (home_homeWrite s.newId.2 heh heh ea _).trans (if_pos rfl)

theorem pageDecision_migrate (hx : x < 16) {y : Nat} (hy : y = 16 * p + x) (opa : Word) {opb : Word} {home : Nat} (hopb : opb ≠ 0)
    (hfr : (s.part p).framesIn home opb.toNat (tlrPage tlr / 4096) = true) (hv : leafV e = true) :
    s.pageDecision y 8 opa opb home tlr tensor page (some (eh, ea, e)) =
      .ok (migrating s y tensor page eh ea (e.toNat % 2 ^ 63 ||| 2 ^ 40) ⟨s.nextId, y, tensor, page, ea, eh, e, home, opb.toNat, false⟩, BitVec.ofNat 64 opb.toNat) := by
  have hyp : y / 16 = p := by omega
  have hmask : e.toNat &&& (2 ^ 63 - 1) = e.toNat % 2 ^ 63 := Nat.and_two_pow_sub_one_eq_mod _ _
  simp only [State.pageDecision, hv, hyp, targetFrame_given s _ _ _ hopb, hfr, Bool.not_true, Bool.false_and, Bool.false_eq_true, if_false, hmask,
    show (8 : Nat) ≠ 7 by decide, if_true]
  rfl

theorem decisionMigrate_spec (h : PageCase s p d x r tlr tensor page eh ea e) (hk : d.kind = 8) (hv : leafV e = true) :
    ∃ u m, exec .decisionMigrate s = .next u ∧ applied s u p x ∧ u.migs = s.migs ++ [m] ∧ m.ctx = 16 * p + x ∧ m.tensor = tensor ∧ m.page = page
      ∧ u.home eh = (s.home eh).writeBytes ea (bytesOfNat 8 (e.toNat % 2 ^ 63 ||| 2 ^ 40)) := by
  have hx : x < 16 := h.decides.2.2.2.2.2.1
  have hkeeps := migrating_butCopies s (16 * p + x) tensor page eh ea (e.toNat % 2 ^ 63 ||| 2 ^ 40)
    ⟨s.nextId, 16 * p + x, tensor, page, ea, eh, e, d.imm.toNat, d.opb.toNat, false⟩
  obtain ⟨w, -, -, hrun, happlied⟩ := pageDecision_run h (by rw [hk]; rfl) (pageDecision_migrate hx rfl d.opa h.opb h.frames hv) (ctx_of_butCopies hkeeps _)
  refine ⟨_, ⟨s.nextId, 16 * p + x, tensor, page, ea, eh, e, d.imm.toNat, d.opb.toNat, false⟩, congrArg Host.Outcome.next hrun, happlied, ?_, rfl, rfl, rfl, ?_⟩
  · exact (resumeAgent_migs _ w).trans (migs_of_butCopies hkeeps)
  · rw [ended_home, memSame_resumeAgent, migrating_home h.tlbs h.eh]

/-! ### REMAP -/

/-- The device once a page has a zeroed frame. -/
def remapped (s : State) (y tensor page eh ea home lo hi w : Nat) : State :=
  let v := s.invalidate y (some tensor) page page none
  (v.setHome home ((v.home home).zeroRange lo hi)).homeWrite eh ea (bytesOfNat 8 w)

theorem remapped_home (htlb : ∀ c < 64, (s.core c).tlb = []) (heh : eh ≤ 1) {home : Nat} (hhome : home ≤ 1) (y lo hi w : Nat) :
    (remapped s y tensor page eh ea home lo hi w).home eh =
      (if home = eh then (s.home eh).zeroRange lo hi else s.home eh).writeBytes ea (bytesOfNat 8 w) := by
  have hsame := invalidate_empty y (some tensor) page page none htlb
  rw [remapped, home_homeWrite _ heh heh, if_pos rfl, home_setHome _ heh hhome, hsame, hsame]
  simp only [eq_comm]
  split
  case isTrue heq => rw [heq]
  case isFalse => rfl

theorem remapped_ctx (s : State) (y tensor page eh ea home lo hi w z : Nat) : (remapped s y tensor page eh ea home lo hi w).ctx z = s.ctx z := by
  refine (onlyHomes.ctx ((setHome_onlyHomes _ home _).homeWrite eh ea _) z).trans ?_
  exact ctx_of_butCopies (butCopies_invalidate s y (some tensor) page page none) z

/-- The leaf entry that REMAP writes: LOCKED and DIRTY stay. -/
def remapEntry (e : Word) (home f : Nat) : Nat := 2 ^ 63 ||| home * 2 ^ 61 ||| (e.toNat &&& 31 * 2 ^ 43) ||| f

theorem pageDecision_remap (hx : x < 16) {y : Nat} (hy : y = 16 * p + x) (opa : Word) {opb : Word} {home : Nat} (hopb : opb ≠ 0)
    (hfr : (s.part p).framesIn home opb.toNat (tlrPage tlr / 4096) = true) (hv : leafV e = false) (h2 : leafVst e = 2) :
    s.pageDecision y 11 opa opb home tlr tensor page (some (eh, ea, e)) =
      .ok (remapped s y tensor page eh ea home (opb.toNat * 4096) ((opb.toNat + tlrPage tlr / 4096) * 4096) (remapEntry e home opb.toNat),
        BitVec.ofNat 64 opb.toNat) := by
  have hyp : y / 16 = p := by omega
  have hw : 1 <<< 63 ||| home <<< 61 ||| (e.toNat &&& 31 <<< 43) ||| opb.toNat = remapEntry e home opb.toNat := by
    simp only [remapEntry, Nat.shiftLeft_eq, Nat.one_mul]
  rw [← hw]
  simp only [State.pageDecision, hv, h2, hyp, targetFrame_given s _ _ _ hopb, hfr, Bool.not_true, Bool.not_false, Bool.true_and, Bool.false_and, Bool.false_or,
    Bool.false_eq_true, if_false, show (11 : Nat) ≠ 7 by decide, show (11 : Nat) ≠ 8 by decide, show (2 : Nat) ≠ 1 by decide, decide_true, decide_false]
  rfl

theorem remapWaits_none (h : PageCase s p d x r tlr tensor page eh ea e) (hv : leafV e = false) : s.remapWaits p = none := by
  obtain ⟨-, -, hdec, -, -, hx, -⟩ := h.decides
  rw [State.remapWaits, hdec]
  dsimp only
  rw [h.record, slot_eq hx h.ctx]
  dsimp only
  rw [h.page]
  dsimp only
  rw [hv, targetFrame_given s _ _ _ h.opb]
  simp

theorem decisionRemap_spec (h : PageCase s p d x r tlr tensor page eh ea e) (hk : d.kind = 11) (hv : leafV e = false) (h2 : leafVst e = 2) :
    ∃ u, exec .decisionRemap s = .next u ∧ applied s u p x
      ∧ u.home eh = (if d.imm.toNat = eh then (s.home eh).zeroRange (d.opb.toNat * 4096) ((d.opb.toNat + tlrPage tlr / 4096) * 4096)
          else s.home eh).writeBytes ea (bytesOfNat 8 (remapEntry e d.imm.toNat d.opb.toNat)) := by
  have hx : x < 16 := h.decides.2.2.2.2.2.1
  obtain ⟨w, -, -, hrun, happlied⟩ := pageDecision_run h (by rw [hk]; rfl) (pageDecision_remap hx rfl d.opa h.opb h.frames hv h2) (remapped_ctx _ _ _ _ _ _ _ _ _ _ _)
  refine ⟨_, congrArg Host.Outcome.next (Eq.trans ?_ hrun), happlied, ?_⟩
  · rw [evDecisionRemap, show s.req.part = p from h.decides.1, remapWaits_none h hv]
  · rw [ended_home, memSame_resumeAgent, remapped_home h.tlbs h.eh h.imm]

/-- MAP, MIGRATE and REMAP. -/
theorem decisionsOnPages : DecisionsOnPages := by
  intro s p d x r t tensor page eh ea e hd hsl hctx hrec hpage htlb hopb home f n hhome heh hfr
  have h : PageCase s p d x r t tensor page eh ea e := ⟨hd, hsl, hctx, hrec, hpage, htlb, hopb, hhome, heh, hfr⟩
  exact ⟨fun hk hv h1 h2 => decisionMap_spec h hk hv h1 h2, fun hk hv => decisionMigrate_spec h hk hv, fun hk hv h2 => decisionRemap_spec h hk hv h2⟩

end

end Sys2Proof.Proofs
end

section
/-!
O41. What the decisions of a policy do (R121, R138, R174, R190, R214, R273, R293, R340, R354, R356, R357).
-/

namespace Sys2Proof.Proofs

open Sys2Proof Sys2Proof.Machine Sys2Proof.Claims

/-- Settles O41: a decision is its effect on lists, agents or pages, followed by an end that only the partition and the context's count see. -/
theorem decisionsApply : Obligations.DecisionsApply := ⟨decisionsOnLists, decisionsOnAgents, decisionsOnPages⟩

end Sys2Proof.Proofs
end

section
/-!
O52, first part. The watch's registers, halts and resumes (R123, R392, R397 to R402).
-/

namespace Sys2Proof.Proofs

open Sys2Proof Sys2Proof.Machine Sys2Proof.Claims

section
variable {s t : State} {i : Instr}

/-! ### Rights (R123, R124) -/

theorem mayDebug_iff {power : Nat} : s.mayDebug s.rcore power = true ↔ debugger s power := by
  rw [State.mayDebug, debugger, Bool.and_eq_true, decide_eq_true_iff, Bool.or_eq_true]
  refine and_congr_right fun _ => or_congr ?_ ?_
  · simp only [List.any_eq_true, List.mem_range, decide_eq_true_eq]
  · rw [State.rcore]
    cases s.corePart (s.req.core % 64) with
    | none => simp
    | some p =>
      simp only [State.rp, reqPart, Bool.and_eq_true, Option.some.injEq, exists_eq_left', and_assoc]
      exact and_congr decide_eq_true_iff (and_congr_right fun _ => decide_eq_true_iff)

theorem mayDebug_false {power : Nat} (h : ¬ debugger s power) : s.mayDebug s.rcore power = false :=
  Bool.eq_false_iff.mpr fun hmay => h (mayDebug_iff.mp hmay)

theorem watchCmd_denied {f : State → Nat → State} (hi : exec i s = .next (s.watchCmd f)) (hfw : s.fwStatus = .ok) (hd : ¬ debugger s 2) :
    refused i s .debugDenied := by
  rw [refused, hi, State.watchCmd, State.ctl, if_pos hfw, mayDebug_false hd]
  rfl

theorem watchCmd_run {f : State → Nat → State} (hi : exec i s = .next (s.watchCmd f)) (hfw : s.fwStatus = .ok) (hd : debugger s 2) :
    exec i s = .next (f s s.rcore) := by
  rw [hi, State.watchCmd, State.ctl, if_pos hfw, mayDebug_iff.mpr hd, if_pos rfl]

/-! ### Fields of the written word -/

theorem bitN_value {n : Nat} (hn : n < 64) : bitN s.req.value n = (reqWord s).getLsbD n := by
  rw [reqWord, BitVec.getLsbD_ofNat, decide_eq_true hn, Bool.true_and, bitN]

theorem bitN_rv (n : Nat) : bitN s.rv.toNat n = (reqWord s).getLsbD n := rfl

theorem haltSlot_eq : haltSlot s.req.value = 16 * fld (reqWord s) 3 3 + fld (reqWord s) 6 4 := by
  rw [haltSlot, bf_eq_div, bf_eq_div, fld, fld, reqWord, BitVec.toNat_ofNat]
  omega

theorem enable_eq (e : Bool) (t : Trig) : enable e t = armed e t := by
  cases e <;> rfl

theorem putBreak_eq (l : List (Nat × Break)) (n : Nat) {w : BitVec 128} (hw : w ≠ 0) :
    putBreak l n w = aput l n ⟨w, armed (w.getLsbD 0) (((aget l n).map fun b => b.trig).getD .off)⟩ := by
  rw [putBreak, if_neg hw, enable_eq]

/-! ### The watch's registers (R392, R397, R399, R400) -/

theorem wctlWrite_spec (hfw : s.fwStatus = .ok) (hd : debugger s 2) :
    let c := s.req.core % 64
    let k := s.core c
    let w := reqWord s
    (fld w 14 6 < 20 ∨ 40 < fld w 14 6 → refused .wctlWrite s .watchParam)
    ∧ (20 ≤ fld w 14 6 → fld w 14 6 ≤ 40 → doneAs .wctlWrite s (watchNow s c { k.watch with
        dthr := BitVec.ofNat 32 (fld w 32 32), wexp := fld w 14 6, mslice := BitVec.ofNat 8 (fld w 3 8), memt := w.getLsbD 2, drift := w.getLsbD 1,
        ilk := w.getLsbD 0, itrig := armed (w.getLsbD 0) k.watch.itrig })) := by
  intro c k w
  have hrun := watchCmd_run (i := .wctlWrite) rfl hfw hd
  have hfield : bf s.rv.toNat 14 6 = fld w 14 6 := bf_eq_fld _ _ _
  refine ⟨fun hbad => hrun.trans ?_, fun hlo hhi => hrun.trans ?_⟩
  · dsimp only
    rw [hfield, if_pos (by simpa using hbad)]
    rfl
  · dsimp only
    rw [hfield, if_neg (by simp; omega)]
    simp only [bf_eq_fld, bitN_rv, enable_eq]
    rfl

theorem breakpointWrite_spec (hfw : s.fwStatus = .ok) (hd : debugger s 2) :
    let c := s.req.core % 64
    let k := s.core c
    let w := reqWord s
    let n := s.req.n
    let trig := fun (l : List (Nat × Break)) (n : Nat) => ((aget l n).map fun b => b.trig).getD .off
    (s.req.m = 0 → w &&& ~~~0x1C#64 ≠ 0 → doneAs .breakpointWrite s (watchNow s c { k.watch with
        sbp := aput k.watch.sbp (n % 8) ⟨(w &&& ~~~0x1C#64).setWidth 128, armed (w.getLsbD 0) (trig k.watch.sbp (n % 8))⟩ }))
    ∧ (1 ≤ s.req.m → w &&& ~~~0x4#64 ≠ 0 → let j := 8 * ((s.req.m - 1) % 8) + n % 8
        doneAs .breakpointWrite s (watchNow s c { k.watch with
          lbp := aput k.watch.lbp j ⟨(w &&& ~~~0x4#64).setWidth 128, armed (w.getLsbD 0) (trig k.watch.lbp j)⟩ })) := by
  intro c k w n trig
  have hrun := watchCmd_run (i := .breakpointWrite) rfl hfw hd
  have hwide : ∀ v : Word, v ≠ 0 → v.setWidth 128 ≠ 0 := fun v hv h => hv (by
    have := congrArg BitVec.toNat h
    rw [BitVec.toNat_setWidth, Nat.mod_eq_of_lt (by omega)] at this
    exact BitVec.eq_of_toNat_eq this)
  have hbit : ∀ m : Word, m.getLsbD 0 = true → ((w &&& m).setWidth 128).getLsbD 0 = w.getLsbD 0 := fun m hm => by
    rw [BitVec.getLsbD_setWidth, BitVec.getLsbD_and, hm]
    simp
  refine ⟨fun hm hw => hrun.trans ?_, fun hm hw => hrun.trans ?_⟩
  · simp only [hm, if_true]
    rw [show s.rv = w from rfl, show s.rcore = c from rfl, State.onWatch, State.onCore, putBreak_eq _ _ (hwide _ hw), hbit _ (by decide)]
    rfl
  · simp only [show s.req.m ≠ 0 by omega, if_false]
    rw [show s.rv = w from rfl, show s.rcore = c from rfl, State.onWatch, State.onCore, putBreak_eq _ _ (hwide _ hw), hbit _ (by decide)]
    rfl

theorem watchpointWrite_spec (hfw : s.fwStatus = .ok) (hd : debugger s 2) (hv : BitVec.ofNat 128 s.req.value &&& ~~~0xFFFFFFF0#128 ≠ 0) :
    doneAs .watchpointWrite s (watchNow s (s.req.core % 64) { (s.core (s.req.core % 64)).watch with
      wps := aput (s.core (s.req.core % 64)).watch.wps (s.req.n % 4) ⟨BitVec.ofNat 128 s.req.value &&& ~~~0xFFFFFFF0#128,
        armed ((reqWord s).getLsbD 0) (((aget (s.core (s.req.core % 64)).watch.wps (s.req.n % 4)).map fun b => b.trig).getD .off)⟩ }) := by
  have hbit : (BitVec.ofNat 128 s.req.value &&& ~~~0xFFFFFFF0#128).getLsbD 0 = (reqWord s).getLsbD 0 := by
    rw [BitVec.getLsbD_and, show (~~~0xFFFFFFF0#128).getLsbD 0 = true by decide, Bool.and_true, reqWord, BitVec.getLsbD_ofNat, BitVec.getLsbD_ofNat]
    rfl
  refine (watchCmd_run (i := .watchpointWrite) rfl hfw hd).trans ?_
  dsimp only
  rw [show s.rcore = s.req.core % 64 from rfl, State.onWatch, State.onCore, putBreak_eq _ _ hv, hbit]
  rfl

/-! ### Halts (R398) -/

section
variable {c n : Nat} {b : Band}

/-- HALT_COMMAND and RESUME_COMMAND with one of the two bits set. -/
theorem haltCommand_eq (hfw : s.fwStatus = .ok) (hd : debugger s 2) : exec .haltCommand s = .next
    (if (reqWord s).getLsbD 0 = (reqWord s).getLsbD 1 then s.answer .cpFrame
    else if (reqWord s).getLsbD 0 = false then s
    else (if (reqWord s).getLsbD 2 then s.haltBand (s.req.core % 64) (16 * fld (reqWord s) 3 3 + fld (reqWord s) 6 4)
      else s.haltSeq (s.req.core % 64)).answer .ok) := by
  refine (watchCmd_run (i := .haltCommand) rfl hfw hd).trans ?_
  dsimp only
  rw [bitN_value (by decide), bitN_value (by decide), bitN_value (by decide), haltSlot_eq]
  simp only [Bool.not_eq_true']
  rfl

theorem resumeCommand_eq (hfw : s.fwStatus = .ok) (hd : debugger s 2) : exec .resumeCommand s = .next
    (if (reqWord s).getLsbD 0 = (reqWord s).getLsbD 1 then s.answer .cpFrame
    else if (reqWord s).getLsbD 1 = false then s
    else if (s.core (s.req.core % 64)).stopPending (if (reqWord s).getLsbD 2 then .band (s.req.core % 64) (16 * fld (reqWord s) 3 3 + fld (reqWord s) 6 4)
        else .seq (s.req.core % 64)) then s.answer .contextBusy
    else (if (reqWord s).getLsbD 2 then s.resumeBandHalt (s.req.core % 64) (16 * fld (reqWord s) 3 3 + fld (reqWord s) 6 4)
      else s.resumeSeqHalt (s.req.core % 64)).answer .ok) := by
  refine (watchCmd_run (i := .resumeCommand) rfl hfw hd).trans ?_
  dsimp only
  rw [bitN_value (by decide), bitN_value (by decide), bitN_value (by decide), haltSlot_eq]
  simp only [Bool.not_eq_true']
  rfl

theorem haltSeq_spec (hc : c < 64) (hu : (s.core c).unit.isSome = true) (hh : (s.core c).seq.halted = false) (hp : (s.core c).seq.phase ≠ .ended) :
    ((s.haltSeq c).core c).seq.halted = true
    ∧ ((s.haltSeq c).core c).watch.stops = (s.core c).watch.stops ++ [⟨.seq c, .debugHalt, 0, 0, none, none⟩]
    ∧ ((s.haltSeq c).core c).seq.s = (s.core c).seq.s := by
  obtain ⟨w, hw⟩ := Option.isSome_iff_exists.mp hu
  rw [State.haltSeq]
  dsimp only
  rw [hw]
  dsimp only
  rw [hh, decide_eq_false hp, if_neg (by simp), updateHeld_core_proj (fun k => k.seq) (fun _ _ => rfl), updateHeld_core_proj (fun k => k.watch) (fun _ _ => rfl),
    State.stopReq, State.onWatch, State.core_onCore_same _ hc, State.core_onCore_same _ hc]
  exact ⟨rfl, rfl, rfl⟩

/-- A band that a debug halt stops. -/
theorem stop_debug (h : b.st ∈ [BState.ready, .waiting, .issuing, .parked]) : (b.stop .debug).st = .halted ∧ (b.stop .debug).halt = .debug
    ∧ (b.stop .debug).pc = b.pc ∧ (b.stop .debug).v = b.v ∧ (b.stop .debug).slot = b.slot := by
  simp only [List.mem_cons, List.not_mem_nil, or_false] at h
  rcases h with h | h | h | h <;> (unfold Band.stop; rw [h]; exact ⟨rfl, rfl, rfl, rfl, rfl⟩)

theorem haltBand_spec (hc : c < 64) (hb : s.band c n = some b) (hst : b.st ∈ [BState.ready, .waiting, .issuing, .parked]) (hpark : b.parkRec = none) :
    ∃ b', (s.haltBand c n).band c n = some b' ∧ b'.st = .halted ∧ b'.halt = .debug ∧ b'.pc = b.pc ∧ b'.v = b.v
      ∧ ((s.haltBand c n).core c).watch.stops = (s.core c).watch.stops ++ [⟨.band c n, .debugHalt, 0, b.live, none, none⟩] := by
  obtain ⟨hhalted, hdebug, hpc, hv, -⟩ := stop_debug hst
  have heq : s.haltBand c n = (s.laneStop c n .debugHalt 0 b.live none).updateHeld b.slot := by
    rw [State.haltBand, hb]
    dsimp only
    simp only [List.mem_cons, List.not_mem_nil, or_false] at hst
    rcases hst with h | h | h | h <;> rw [h]
  have hstop : (s.stopReq c ⟨.band c n, .debugHalt, 0, b.live, none, none⟩).band c n = some b := (stopReq_band s hc _ c n).trans hb
  have hband : (((s.stopReq c ⟨.band c n, .debugHalt, 0, b.live, none, none⟩).onBand c n fun b => if b.parkRec.isSome then b else b.stop .debug)).band c n
      = some (b.stop .debug) := by
    rw [State.band_onBand_same _ hc, hstop, Option.map_some, hpark]
    rfl
  have hw : (b.stop .debug).st ≠ .waiting := by rw [hhalted]; exact nofun
  have hh : (b.stop .debug).st ≠ .held := by rw [hhalted]; exact nofun
  refine ⟨b.stop .debug, ?_, hhalted, hdebug, hpc, hv, ?_⟩
  · rw [heq]
    exact updateHeld_band _ (updateHeld_band _ hband hw hh) hw hh
  · rw [heq, updateHeld_core_proj (fun k => k.watch) (fun _ _ => rfl), State.laneStop, updateHeld_core_proj (fun k => k.watch) (fun _ _ => rfl),
      State.onBand, State.core_onCore_same _ hc]
    exact stopReq_stops s hc _

/-! ### Resumes (R398) -/

theorem resumeSeqHalt_seq (hc : c < 64) (hh : (s.core c).seq.halted = true) :
    ((s.resumeSeqHalt c).core c).seq = { (s.core c).seq with halted := false, bpSkip := true } := by
  rw [State.resumeSeqHalt, updateHeld_core_proj (fun k => k.seq) (fun _ _ => rfl), State.core_onCore_same _ hc, if_pos hh]

theorem resumeBandHalt_spec (hc : c < 64) (hb : s.band c n = some b) (hst : b.st = .halted) (hdebug : b.halt = .debug) (hu : b.unfinished = none) :
    ∃ b', (s.resumeBandHalt c n).band c n = some b' ∧ b'.st = .ready ∧ b'.bpSkip = true ∧ b'.pc = b.pc ∧ b'.v = b.v := by
  have hresume : b.resume s.cycle = { b with st := .ready, halt := .none, readySince := s.cycle } := by
    rw [Band.resume, if_neg (by simp [hst]), hu]
    rfl
  have hband : (s.onBand c n fun b => { b.resume s.cycle with bpSkip := true }).band c n = some { b with st := .ready, halt := .none, readySince := s.cycle, bpSkip := true } := by
    rw [State.band_onBand_same _ hc, hb, Option.map_some, hresume]
  rw [State.resumeBandHalt, hb]
  dsimp only
  rw [hst, hdebug, if_pos (by simp)]
  exact ⟨_, updateHeld_band _ hband nofun nofun, rfl, rfl, rfl, rfl⟩

end

theorem watchCommands : WatchCommands := by
  intro s hfw c k w n slot trig
  have hc : c < 64 := Nat.mod_lt _ (by decide)
  refine ⟨fun hd i hi => ?_, fun hd => ?_⟩
  · simp only [List.mem_cons, List.not_mem_nil, or_false] at hi
    rcases hi with rfl | rfl | rfl | rfl | rfl <;> exact watchCmd_denied rfl hfw hd
  obtain ⟨hbad, hwctl⟩ := wctlWrite_spec hfw hd
  obtain ⟨hsbp, hlbp⟩ := breakpointWrite_spec hfw hd
  have hhalt := haltCommand_eq hfw hd
  have hresume := resumeCommand_eq hfw hd
  refine ⟨hbad, hwctl, hsbp, hlbp, watchpointWrite_spec hfw hd, fun heq => ⟨hhalt.trans (by rw [if_pos heq]; rfl), hresume.trans (by rw [if_pos heq]; rfl)⟩,
    fun h0 h1 => ?_, fun h0 h1 => ?_⟩
  · rw [show (reqWord s).getLsbD 0 = true from h0, show (reqWord s).getLsbD 1 = false from h1, if_neg (by decide), if_neg (by decide)] at hhalt
    refine ⟨fun h2 hu hh hp => ?_, fun b h2 hb hst hpark => ?_⟩
    · rw [show (reqWord s).getLsbD 2 = false from h2, if_neg (by decide)] at hhalt
      exact ⟨_, hhalt, rfl, haltSeq_spec hc hu hh hp⟩
    · rw [show (reqWord s).getLsbD 2 = true from h2, if_pos rfl] at hhalt
      obtain ⟨b', hb', hspec⟩ := haltBand_spec hc hb hst hpark
      exact ⟨_, b', hhalt, rfl, hb', hspec⟩
  · rw [show (reqWord s).getLsbD 0 = false from h0, show (reqWord s).getLsbD 1 = true from h1, if_neg (by decide), if_neg (by decide)] at hresume
    have hpending : ∀ a : Agent, k.stopPending a = true ↔ ∃ r ∈ k.watch.stops, r.who = a := fun a => by
      simp only [Core.stopPending, List.any_eq_true, decide_eq_true_eq]
    refine ⟨fun hstop => hresume.trans ?_, fun hnone h2 hh => ?_, fun b hnone h2 hb hst hdebug _ hu => ?_⟩
    · rw [if_pos ((hpending _).mpr hstop)]
      rfl
    · have hidle : ¬ (s.core (s.req.core % 64)).stopPending (.seq (s.req.core % 64)) = true := fun h => by
        obtain ⟨r, hr, hwho⟩ := (hpending _).mp h
        exact hnone r hr hwho
      simp only [show (reqWord s).getLsbD 2 = false from h2, Bool.false_eq_true, if_false, if_neg hidle] at hresume
      refine ⟨_, hresume, rfl, ?_⟩
      rw [core_answer]
      exact resumeSeqHalt_seq hc hh
    · have hidle : ¬ (s.core (s.req.core % 64)).stopPending (.band (s.req.core % 64) (16 * fld (reqWord s) 3 3 + fld (reqWord s) 6 4)) = true := fun h => by
        obtain ⟨r, hr, hwho⟩ := (hpending _).mp h
        exact hnone r hr hwho
      simp only [show (reqWord s).getLsbD 2 = true from h2, if_true, if_neg hidle] at hresume
      obtain ⟨b', hb', hspec⟩ := resumeBandHalt_spec hc hb hst hdebug hu
      exact ⟨_, b', hresume, rfl, hb', hspec⟩

end

end Sys2Proof.Proofs
end

section
/-!
O52, second part. Stops and hangs are reported; the debug window (R123, R398, R405, R410).
-/

namespace Sys2Proof.Proofs

open Sys2Proof Sys2Proof.Machine Sys2Proof.Claims

section
variable {s t : State} {c x : Nat}

/-! ### Stops (R398) -/

/-- A stop's record is written and vector 7 raised. -/
def stopReported (s : State) (x : Nat) (f : FRec) : State := ((s.writeRecord x f).2).raiseVector (x / 16) 7 (some (BitVec.ofNat 4 x))

theorem stopReported_spec (s : State) (hx : x < 256) (f : FRec) : (∀ c, (stopReported s x f).core c = s.core c)
    ∧ ((stopReported s x f).part (x / 16)).vecs.getLsbD 7 = true ∧ ((stopReported s x f).ctx x).frecNext = ((s.ctx x).frecNext + 1) % 64
    ∧ ((stopReported s x f).part (x / 16)).sluices = (s.part (x / 16)).sluices := by
  have hvec := raiseVector_onlyVectors (s.writeRecord x f).2 (x / 16) 7 (some (BitVec.ofNat 4 x))
  unfold stopReported
  refine ⟨fun c => (hvec.core c).trans ?_, raiseVector_pending _ (by omega) (by decide) _, ?_, (hvec.sluices _).trans ?_⟩
  · rw [State.writeRecord, State.core_onCtx, homeWrite_core]
  · rw [hvec.ctx, State.writeRecord, State.ctx_onCtx_same _ hx]
    exact congrArg (fun k : Context => (k.frecNext + 1) % 64) ((homeWrite_onlyHomes s _ _ _).ctx x)
  · rw [State.writeRecord, State.part_onCtx]
    exact congrArg Partition.sluices ((homeWrite_onlyHomes s _ _ _).part _)

theorem reported_stops (w : Watch) (r : StopReq) : (w.reported r).stops = w.stops := by
  unfold Watch.reported
  split <;> rfl

/-- The watch once a stop has left its list. -/
def stopTaken (n : Nat) (r : StopReq) (w : Watch) : Watch := ({ w with stops := w.stops.eraseIdx n } : Watch).reported r

theorem stopReport_seq {r : StopReq} {u : SeqUnit} (hc : s.rcore = c) (hr : (s.core c).watch.stops[s.req.n]? = some r) (hwho : r.who = .seq c)
    (hu : (s.core c).unit = some u) : exec .stopReport s = .next (if ((s.core c).seq.land.any fun l => s.cycle < l.last) = true then s
      else stopReported (s.onWatch c (stopTaken s.req.n r)) (s.core c).unitCtx
        ((s.onWatch c (stopTaken s.req.n r)).seqRecord c r.kind (r.pc.getD (s.core c).seq.pc) r.vaddr 0)) := by
  have hsettled : s.stopSettled c r = !((s.core c).seq.land.any fun l => s.cycle < l.last) := by rw [State.stopSettled, hwho]
  rw [show exec _ s = execStopReport s from rfl, execStopReport, evStopReport, hc]
  dsimp only
  rw [hr]
  dsimp only
  rw [hsettled, Bool.not_not]
  split
  · rfl
  · rw [hwho]
    dsimp only
    rw [hu, if_neg (by simp)]
    rfl

theorem stopReport_lands {r : StopReq} {u : SeqUnit} (hc : s.rcore = c) (hlt : c < 64) (hr : (s.core c).watch.stops[s.req.n]? = some r) (hwho : r.who = .seq c)
    (hu : (s.core c).unit = some u) (hx : ctxSlot u.part u.ctx.toNat < 256) (hland : ∀ l ∈ (s.core c).seq.land, l.last ≤ s.cycle) :
    ∃ t, exec .stopReport s = .next t ∧ (t.core c).watch.stops = (s.core c).watch.stops.eraseIdx s.req.n
      ∧ (t.part (ctxSlot u.part u.ctx.toNat / 16)).vecs.getLsbD 7 = true
      ∧ (t.ctx (ctxSlot u.part u.ctx.toNat)).frecNext = ((s.ctx (ctxSlot u.part u.ctx.toNat)).frecNext + 1) % 64
      ∧ (t.part (ctxSlot u.part u.ctx.toNat / 16)).sluices = (s.part (ctxSlot u.part u.ctx.toNat / 16)).sluices := by
  have hctx : (s.core c).unitCtx = ctxSlot u.part u.ctx.toNat := by rw [Core.unitCtx, hu]
  have hnone : ¬ ((s.core c).seq.land.any fun l => s.cycle < l.last) = true := by
    rw [List.any_eq_true]
    rintro ⟨l, hl, hlast⟩
    exact absurd (hland l hl) (Nat.not_le.mpr (of_decide_eq_true hlast))
  obtain ⟨hcore, hvec, hfrec, hsluices⟩ := stopReported_spec (s.onWatch c (stopTaken s.req.n r)) hx
    ((s.onWatch c (stopTaken s.req.n r)).seqRecord c r.kind (r.pc.getD (s.core c).seq.pc) r.vaddr 0)
  refine ⟨_, (stopReport_seq hc hr hwho hu).trans (by rw [if_neg hnone, hctx]), ?_, hvec, hfrec, hsluices⟩
  rw [hcore, State.onWatch, State.core_onCore_same s hlt]
  exact reported_stops _ r

/-! ### Hangs (R405) -/

/-- The device once a hang count is marked as fired. -/
def hangMarked (s : State) (c key : Nat) : State :=
  s.onCore c fun k => { k with watch := { k.watch with hang := aput k.watch.hang key hangFired } }

/-- A hang's record is written, its FAULT sluice and vector 5 raised. -/
def hangRaised (s : State) (x : Nat) (who : Agent) (r : FRec) (kind prio : Nat) : State :=
  (s.takeFault x r who kind prio).raiseVector (x / 16) 5 (some (BitVec.ofNat 4 x))

theorem hangRaised_spec (s : State) (hx : x < 256) (who : Agent) {r : FRec} (hr : r.kind = .hang) (kind prio : Nat) :
    faultRaised (hangRaised s x who r kind prio) x who .hang ∧ ((hangRaised s x who r kind prio).part (x / 16)).vecs.getLsbD 5 = true
    ∧ (∀ c, (hangRaised s x who r kind prio).core c = s.core c)
    ∧ ∃ q ∈ ((hangRaised s x who r kind prio).part (x / 16)).sluices, q.record = some r := by
  have hvec := raiseVector_onlyVectors (s.takeFault x r who kind prio) (x / 16) 5 (some (BitVec.ofNat 4 x))
  unfold hangRaised
  refine ⟨?_, raiseVector_pending _ (by omega) (by decide) _, fun c => (hvec.core c).trans (takeFault_core _ _ _ _ _ _ _ _), ?_⟩
  · obtain ⟨q, hq, hspec⟩ := takeFault_raises (s := s) hx r who kind prio 0
    rw [hr] at hspec
    exact ⟨q, (hvec.sluices _).symm ▸ hq, hspec⟩
  · rw [hvec.sluices, State.takeFault_eq, State.raiseSluice, State.part_onPart_same _ (by omega)]
    exact ⟨_, List.mem_append_right _ (List.mem_singleton.mpr rfl), rfl⟩

theorem hang_none (hc : s.req.core = c) (h : aget (s.core c).watch.hang s.req.n = none) : exec .hangWatchdogFire s = .next s := by
  rw [show exec _ s = execHangWatchdogFire s from rfl, execHangWatchdogFire, evHangWatchdogFire, hc]
  dsimp only
  rw [h]

theorem hang_counts {m : Nat} (hc : s.req.core = c) (h : aget (s.core c).watch.hang s.req.n = some m) (hm : m < 2 ^ (s.core c).watch.wexp) (hn : s.req.n ≠ 300) :
    exec .hangWatchdogFire s = .next s := by
  rw [show exec _ s = execHangWatchdogFire s from rfl, execHangWatchdogFire, evHangWatchdogFire, hc]
  dsimp only
  rw [h]
  dsimp only
  rw [if_neg hn, decide_eq_true hm]
  rfl

theorem hang_seq {m : Nat} (hc : s.req.core = c) (h : aget (s.core c).watch.hang 0 = some m) (hn : s.req.n = 0)
    (hlo : 2 ^ (s.core c).watch.wexp ≤ m) (hhi : m < 2 ^ 70) : exec .hangWatchdogFire s = .next
      (hangRaised (hangMarked s c 0) (s.core c).unitCtx (.seq c) ((hangMarked s c 0).seqRecord c .hang (s.core c).seq.pc 1 0) 1 (s.core c).seqCls) := by
  rw [show exec _ s = execHangWatchdogFire s from rfl, execHangWatchdogFire, evHangWatchdogFire, hc, hn]
  dsimp only
  rw [h]
  dsimp only
  rw [if_neg (show ¬ 0 = 300 by decide), decide_eq_false (Nat.not_lt.mpr hlo), decide_eq_false (show ¬ hangFired ≤ m from Nat.not_le.mpr hhi)]
  rfl

theorem hang_band {m n : Nat} {b : Band} (hc : s.req.core = c) (hlt : c < 64) (h : aget (s.core c).watch.hang (1 + n) = some m) (hn : s.req.n = 1 + n)
    (hn128 : n < 128) (hlo : 2 ^ (s.core c).watch.wexp ≤ m) (hhi : m < 2 ^ 70) (hb : s.band c n = some b) : exec .hangWatchdogFire s = .next
      (hangRaised (hangMarked s c (1 + n)) b.slot (.band c n) ((hangMarked s c (1 + n)).bandRecord c n b .hang 0 b.pc 2 0) b.evKind (min b.cls 15)) := by
  have hagent : hangAgent c (1 + n) = (.band c n, 2) := by
    rw [hangAgent, if_neg (by omega), if_pos (by omega), Nat.add_sub_cancel_left]
  have hmarked : (hangMarked s c (1 + n)).band c n = some b := by
    rw [State.band, hangMarked, State.core_onCore_same s hlt]
    exact hb
  rw [show exec _ s = execHangWatchdogFire s from rfl, execHangWatchdogFire, evHangWatchdogFire, hc, hn]
  dsimp only
  rw [h]
  dsimp only
  rw [if_neg (show ¬ 1 + n = 300 by omega), decide_eq_false (Nat.not_lt.mpr hlo), decide_eq_false (show ¬ hangFired ≤ m from Nat.not_le.mpr hhi), hagent, if_neg (by decide)]
  dsimp only
  rw [show (s.onCore c fun k => { k with watch := { k.watch with hang := aput k.watch.hang (1 + n) hangFired } }) = hangMarked s c (1 + n) from rfl, hmarked]
  rfl

theorem hangMarked_core (s : State) (hlt : c < 64) (key : Nat) :
    ((hangMarked s c key).core c).seq = (s.core c).seq ∧ ((hangMarked s c key).core c).bands = (s.core c).bands := by
  rw [hangMarked, State.core_onCore_same s hlt]
  exact ⟨rfl, rfl⟩

theorem watchReports : WatchReports := by
  refine ⟨fun s r hr => ⟨fun u hwho hu _ ⟨l, hl, hlast⟩ => ?_, fun u hwho hu hx hland => stopReport_lands rfl (Nat.mod_lt _ (by decide)) hr hwho hu hx hland⟩,
    fun s hnone => ?_, fun s c hc hlt => ⟨hang_none hc, fun m h hm hn => hang_counts hc h hm hn, fun m u h hn hlo hhi hu hx => ?_,
      fun m n b h hn hn128 hlo hhi hb hx => ?_⟩⟩
  · refine (stopReport_seq rfl hr hwho hu).trans (by rw [if_pos]; exact List.any_eq_true.mpr ⟨l, hl, decide_eq_true hlast⟩)
  · rw [show exec _ s = execStopReport s from rfl, execStopReport, evStopReport]
    dsimp only
    rw [show (s.core s.rcore).watch.stops[s.req.n]? = none from hnone]
  · have hctx : (s.core c).unitCtx = ctxSlot u.part u.ctx.toNat := by rw [Core.unitCtx, hu]
    obtain ⟨hfault, hvec, hcore, q, hq, hrec⟩ := hangRaised_spec (hangMarked s c 0) hx (.seq c)
      (r := (hangMarked s c 0).seqRecord c .hang (s.core c).seq.pc 1 0) rfl 1 (s.core c).seqCls
    refine ⟨_, (hang_seq hc h hn hlo hhi).trans (by rw [hctx]), hfault, hvec, ?_, q, hq, _, hrec, rfl, rfl, rfl⟩
    rw [hcore]
    exact (hangMarked_core s hlt 0).1
  · obtain ⟨hfault, hvec, hcore, -⟩ := hangRaised_spec (hangMarked s c (1 + n)) hx (.band c n)
      (r := (hangMarked s c (1 + n)).bandRecord c n b .hang 0 b.pc 2 0) rfl b.evKind (min b.cls 15)
    refine ⟨_, hang_band hc hlt h hn hn128 hlo hhi hb, hfault, hvec, ?_⟩
    rw [State.band, hcore, (hangMarked_core s hlt _).2]
    exact hb

/-! ### The debug window (R123, R410) -/

/-- The form of a window frame: 8-byte steps, inside the window, within one of its pages. -/
def windowFrame (o n : Nat) : Prop := o % 8 = 0 ∧ n % 8 = 0 ∧ n ≠ 0 ∧ o < 0x80000 ∧ o % 4096 + n ≤ 4096

/-- A window access asks for the frame's form, the rights and the agent's stop, in this order. -/
theorem window_eq (hfw : s.fwStatus = .ok) (power n : Nat) (f : State → Nat → State) :
    (¬ windowFrame s.req.addr n → s.window power n f = s.answer .cpFrame)
    ∧ (windowFrame s.req.addr n → ¬ debugger s power → s.window power n f = s.answer .debugDenied)
    ∧ (windowFrame s.req.addr n → debugger s power → s.window power n f =
        if (s.core s.rcore).windowOpen (s.core s.rcore).watch.dwin then f s s.rcore else s.answer .contextBusy) := by
  have hform : (s.req.addr % 8 ≠ 0 || n % 8 ≠ 0 || n = 0 || 0x80000 ≤ s.req.addr || 4096 < s.req.addr % 4096 + n) = true ↔ ¬ windowFrame s.req.addr n := by
    simp only [windowFrame, Bool.or_eq_true, decide_eq_true_eq]
    omega
  rw [State.window, State.ctl, if_pos hfw]
  dsimp only
  refine ⟨fun hbad => if_pos (hform.mpr hbad), fun hgood hd => ?_, fun hgood hd => ?_⟩
  · rw [if_neg (mt hform.mp (not_not.mpr hgood)), mayDebug_false hd]
    rfl
  · rw [if_neg (mt hform.mp (not_not.mpr hgood)), mayDebug_iff.mpr hd]
    cases (s.core s.rcore).windowOpen (s.core s.rcore).watch.dwin <;> rfl

theorem windowOpen_store {k : Core} {w : Word} (h : fld w 0 4 ≤ 1) : k.windowOpen w = true := by
  rw [Core.windowOpen, bf_eq_fld]
  split
  case h_1 h2 => omega
  case h_2 h3 => omega
  case h_3 => rfl

theorem windowOpen_seq {k : Core} {w : Word} (h : fld w 0 4 = 2) : k.windowOpen w = (k.unit.isSome && k.seq.halted) := by
  rw [Core.windowOpen, bf_eq_fld, h]
  rfl

/-- What DEBUG_WINDOW_WRITE does to a core's store or its agent's registers. -/
def windowWritten (s : State) (c : Nat) : State :=
  let o := s.req.addr
  let bs := s.req.bytes
  let w := (s.core c).watch.dwin
  let ws := (List.range (bs.length / 8)).zip (wordsOf bs (bs.length / 8))
  match bf w.toNat 0 4 with
  | 0 => s.onCore c fun k => { k with tile := k.tile.writeBytes (bf w.toNat 4 5 * 0x80000 + o) bs }
  | 1 => if o < 0x10000 then s.onCore c fun k => { k with scalar := k.scalar.writeBytes o bs } else s
  | 2 => s.onCore c fun k => { k with seq := ws.foldl (fun q e => q.putWord (o / 8 + e.1) e.2) k.seq }
  | _ => s.onBand c (dwinBand w) fun b => ws.foldl (fun b e => b.putWord (o / 8 + e.1) e.2) b

theorem windowWrite_eq (s : State) : exec .debugWindowWrite s = .next (s.window 2 s.req.bytes.length fun s c => (windowWritten s c).answer .ok) := rfl

theorem debugWindowSelect_spec (hfw : s.fwStatus = .ok) : (4 ≤ s.req.value % 16 → refused .debugWindowSelect s .cpFrame)
    ∧ (s.req.value % 16 < 4 → doneAs .debugWindowSelect s (watchNow s (s.req.core % 64)
        { (s.core (s.req.core % 64)).watch with dwin := reqWord s &&& 0xFFFF#64 })) := by
  have hspace : bf (s.rv &&& 0xFFFF#64).toNat 0 4 = s.req.value % 16 := by
    rw [bf_eq_div, State.rv, BitVec.toNat_and, BitVec.toNat_ofNat, show (0xFFFF#64).toNat = 2 ^ 16 - 1 from rfl, Nat.and_two_pow_sub_one_eq_mod]
    omega
  refine ⟨fun h => exec_ctl (i := .debugWindowSelect) (fun _ => rfl) hfw ?_, fun h => exec_ctl (i := .debugWindowSelect) (fun _ => rfl) hfw ?_⟩
  · dsimp only
    rw [hspace, if_pos (by omega)]
    rfl
  · dsimp only
    rw [hspace, if_neg (by omega)]
    rfl

theorem windowCommands : WindowCommands := by
  intro s hfw c k o dw framed rn wn
  obtain ⟨hselect, hselected⟩ := debugWindowSelect_spec hfw
  have hread : exec .debugWindowRead s = .next (s.window (if fld dw 0 4 ≤ 1 then 3 else 2) rn fun s c => s.answer .ok (s.windowBytes c s.req.addr s.req.n)) := by
    rw [← bf_eq_fld]
    rfl
  have hwrite := windowWrite_eq s
  obtain ⟨hrform, hrdenied, hropen⟩ := window_eq hfw (if fld dw 0 4 ≤ 1 then 3 else 2) rn fun s c => s.answer .ok (s.windowBytes c s.req.addr s.req.n)
  obtain ⟨hwform, hwdenied, hwopen⟩ := window_eq hfw 2 wn fun s c => (windowWritten s c).answer .ok
  have hspace : bf dw.toNat 0 4 = fld dw 0 4 := bf_eq_fld _ _ _
  have hopen : fld dw 0 4 ≤ 1 → (s.core s.rcore).windowOpen (s.core s.rcore).watch.dwin = true := windowOpen_store
  refine ⟨hselect, hselected, fun h => hread.trans (congrArg _ (hrform h)), fun h hd => hread.trans (congrArg _ (hrdenied h hd)),
    fun h => hwrite.trans (congrArg _ (hwform h)), fun h hd => hwrite.trans (congrArg _ (hwdenied h hd)), fun h hd h0 => ?_, fun h hd h1 ho => ?_,
    fun h hd h0 => ?_, fun h hd h1 ho => ?_, fun h hd h2 hagent => ?_⟩
  · rw [if_pos (by omega)] at hread hropen
    refine hread.trans (congrArg _ ((hropen h hd).trans ?_))
    rw [hopen (by omega), if_pos rfl, State.windowBytes, show bf (s.core s.rcore).watch.dwin.toNat 0 4 = 0 from hspace.trans h0, bf_eq_fld]
    rfl
  · rw [if_pos (by omega)] at hread hropen
    refine hread.trans (congrArg _ ((hropen h hd).trans ?_))
    rw [hopen (by omega), if_pos rfl, State.windowBytes, show bf (s.core s.rcore).watch.dwin.toNat 0 4 = 1 from hspace.trans h1]
    dsimp only
    rw [if_pos ho]
    rfl
  · refine hwrite.trans (congrArg _ ((hwopen h hd).trans ?_))
    rw [hopen (by omega), if_pos rfl, windowWritten, show bf (s.core s.rcore).watch.dwin.toNat 0 4 = 0 from hspace.trans h0, bf_eq_fld]
    rfl
  · refine hwrite.trans (congrArg _ ((hwopen h hd).trans ?_))
    rw [hopen (by omega), if_pos rfl, windowWritten, show bf (s.core s.rcore).watch.dwin.toNat 0 4 = 1 from hspace.trans h1]
    rw [if_pos ho]
    rfl
  · refine hwrite.trans (congrArg _ ((hwopen h hd).trans ?_))
    have hclosed : (s.core s.rcore).windowOpen (s.core s.rcore).watch.dwin = false := by
      refine (windowOpen_seq (k := s.core s.rcore) (w := (s.core s.rcore).watch.dwin) h2).trans ?_
      rcases hagent with hu | hh
      · rw [show (s.core s.rcore).unit = none from hu, Option.isSome_none, Bool.false_and]
      · rw [show (s.core s.rcore).seq.halted = false from hh, Bool.and_false]
    rw [hclosed]
    rfl

end

end Sys2Proof.Proofs
end

section
/-!
SUPPORT. The ports while links settle and ports go DOWN (R364, R366, R375, R384).
-/

namespace Sys2Proof.Proofs

open Sys2Proof Sys2Proof.Machine Sys2Proof.Claims

section
variable {s t : State}

theorem takeFault_ports (s : State) (x : Nat) (r : FRec) (who : Agent) (kind prio tflags : Nat) : (s.takeFault x r who kind prio tflags).ports = s.ports :=
  (congrArg State.ports (takeFault_rest s x r who kind prio tflags) :)

theorem bandFault_ports (s : State) (c n : Nat) (k : FKind) (mask va pte : Word) : (s.bandFault c n k mask va pte).ports = s.ports := by
  unfold State.bandFault State.bandFaultAt
  split
  · rfl
  · rw [takeFault_ports]
    split <;> rfl

theorem failLq_ports (s : State) (c q : Nat) (m : LqCmd) (k : FKind) (va pte : Word) : (s.failLq c q m k va pte).ports = s.ports := by
  unfold State.failLq
  rw [State.onCore_ports, takeFault_ports]

theorem failPull_ports (s : State) (c q id : Nat) (k : FKind) : (s.failPull c q id k).ports = s.ports := by
  unfold State.failPull
  dsimp only
  split
  · rfl
  · split
    · exact bandFault_ports _ _ _ _ _ _ _
    · rw [State.onCore_ports, takeFault_ports, State.onCore_ports]

theorem losePulled_ports (s : State) (c : Nat) (m : LqCmd) : (s.losePulled c m).ports = s.ports := by
  unfold State.losePulled
  dsimp only
  split
  · rfl
  · split
    · rfl
    · exact failPull_ports _ _ _ _ _

theorem foldl_ports {α : Type} {f : State → α → State} (hf : ∀ t a, (f t a).ports = t.ports) (l : List α) (s : State) : (l.foldl f s).ports = s.ports :=
  List.foldlRecOn (motive := fun t : State => t.ports = s.ports) l f rfl fun t ht a _ => (hf t a).trans ht

theorem settleLq_ports (s : State) (c q : Nat) : (s.settleLq c q).ports = s.ports := by
  unfold State.settleLq
  extract_lets t gone v
  have ht : t.ports = s.ports := by
    refine foldl_ports (fun t m => ?_) _ s
    split
    · rfl
    · split
      · dsimp only
        split
        · exact (losePulled_ports _ _ _).trans (failLq_ports _ _ _ _ _ _ _)
        · exact failLq_ports _ _ _ _ _ _ _
      · split <;> rfl
  split
  · exact ht
  · exact (foldl_ports (f := fun s m => m.remote.foldl State.dropReq s) (fun t m => foldl_ports (f := State.dropReq) (fun _ _ => rfl) _ t) gone v).trans ht

theorem settleRecv_ports (s : State) (c : Nat) : (s.settleRecv c).ports = s.ports := by
  refine foldl_ports (fun t e => ?_) _ s
  split
  · split
    · rfl
    · exact failPull_ports _ _ _ _ _
  · split <;> rfl
  · rfl

/-- Settling the link's queues leaves the ports as they are. -/
theorem settleLinks_ports (s : State) : s.settleLinks.ports = s.ports := by
  refine foldl_ports (fun t c => ?_) _ s
  split
  · rfl
  · exact (settleRecv_ports _ c).trans (foldl_ports (fun t q => settleLq_ports t c q) _ t)

/-! ### Port states -/

theorem port_setPort_same {p : Nat} (hp : p < 16) (q : Port) : (s.setPort p q).port p = q := by
  simp [State.port, State.setPort, hp]

theorem port_setPort_ne {p n : Nat} (h : n ≠ p) (q : Port) : (s.setPort p q).port n = s.port n := by
  simp [State.port, State.setPort, Ne.symm h]

theorem port_of_ports (h : t.ports = s.ports) (n : Nat) : t.port n = s.port n := by rw [State.port, h, State.port]

theorem setPort_st {p n : Nat} {q : Port} (h : q.st = (s.port p).st) : ((s.setPort p q).port n).st = (s.port n).st := by
  by_cases hn : n = p
  · subst hn
    by_cases hp : n < 16
    · rw [port_setPort_same hp, h]
    · simp only [State.port, State.setPort, Vector.getElem?_eq_none (Nat.le_of_not_lt hp)]
  · rw [port_setPort_ne hn]

/-- A packet that waits for a port changes no port's state. -/
theorem toPort_st (s : State) (p : Packet) (n : Nat) : ((s.toPort p).port n).st = (s.port n).st := by
  unfold State.toPort
  split
  · exact setPort_st rfl
  · rfl

theorem failUnacked_ports (s : State) (d : Nat) (p : Unacked → Bool) : (s.failUnacked d p).ports = s.ports := by
  unfold State.failUnacked
  exact foldl_ports (fun t u => by split <;> rfl) _ _

theorem setHealth_ports (s : State) (h : BitVec 128) : (s.setHealth h).ports = s.ports :=
  (congrArg State.ports (setHealth_onlyVectors s h).1 :)

/-- A lost port has the state that it goes to; the other ports' states stay. -/
theorem losePort_st (s : State) {p : Nat} (hp : p < 16) (st : PortSt) (n : Nat) : ((s.losePort p st).port n).st = if n = p then st else (s.port n).st := by
  unfold State.losePort
  extract_lets left u v
  have hu : (u.port n).st = if n = p then st else (s.port n).st := by
    show ((State.setHealth _ _).port n).st = _
    rw [port_of_ports (setHealth_ports _ _)]
    show ((s.setPort p _).port n).st = _
    split
    case isTrue h => rw [h, port_setPort_same hp]
    case isFalse h => rw [port_setPort_ne h]
  have hv : (v.port n).st = (u.port n).st :=
    List.foldlRecOn (motive := fun t : State => (t.port n).st = (u.port n).st) _ _ rfl fun t ht a _ => (toPort_st t a n).trans ht
  rw [port_of_ports ((settleLinks_ports _).trans (foldl_ports (fun t e => failUnacked_ports t _ _) _ v)), hv, hu]

/-- The ports of a list that are not DOWN go DOWN. -/
def portsDown (s : State) (l : List Nat) : State := l.foldl (fun (s : State) i => if (s.port i).st = .down then s else s.losePort i .down) s

theorem portsDown_st {l : List Nat} (hl : ∀ i ∈ l, i < 16) (s : State) (n : Nat) :
    ((portsDown s l).port n).st = if n ∈ l then .down else (s.port n).st := by
  induction l generalizing s with
  | nil => rfl
  | cons i l ih =>
    have hi := hl i List.mem_cons_self
    have hstep : ((if (s.port i).st = .down then s else s.losePort i .down).port n).st = if n = i then .down else (s.port n).st := by
      split
      case isTrue h =>
        split
        case isTrue hn => rw [hn, h]
        case isFalse => rfl
      case isFalse => exact losePort_st s hi .down n
    rw [portsDown, List.foldl_cons, ← portsDown, ih fun j hj => hl j (List.mem_cons_of_mem i hj), hstep]
    by_cases hn : n = i
    · subst hn
      simp
    · simp only [List.mem_cons, hn, false_or, if_false]

end

end Sys2Proof.Proofs
end

section
/-!
O52, last part. Levels, keys, attestation and power states (R123 to R125, R412 to R416).
-/

namespace Sys2Proof.Proofs

open Sys2Proof Sys2Proof.Machine Sys2Proof.Claims

section
variable {s t : State} {p c : Nat}

/-! ### Levels (R123, R397) -/

/-- The level that a request asks for may be given. -/
def levelAllowed (s : State) : Prop :=
  s.req.value = 0 ∨ (s.req.value = 1 ∧ (if s.vendor then (s.part (reqPart s)).grant else (s.part (reqPart s)).key) = true) ∨ (s.req.value = 2 ∧ s.vendor = true)

/-- The partition has the level asked for. -/
def levelSet (s : State) : State := s.onPart (reqPart s) fun q => { q with debug := s.req.value }
/-- The triggers of the cores of a mask are OFF. -/
def disarmed (s : State) (m : Word) : State := s.onCores m fun _ k => { k with watch := k.watch.disarm }

theorem debugLevelRequest_denied (hfw : s.fwStatus = .ok) (h : ¬ levelAllowed s) : refused .debugLevelRequest s .debugDenied := by
  refine exec_ctl (i := .debugLevelRequest) (fun _ => rfl) hfw (if_pos ?_)
  rw [levelAllowed, reqPart] at h
  rw [State.rp]
  rcases hv : s.req.value with _ | _ | _ | v <;> simp [hv] at h ⊢ <;> exact h

theorem debugLevelRequest_allowed (hfw : s.fwStatus = .ok) (h : levelAllowed s) :
    exec .debugLevelRequest s = .next ((if s.req.value = 0 then disarmed (levelSet s) (s.part (reqPart s)).cores else levelSet s).answer .ok) := by
  refine exec_ctl (i := .debugLevelRequest) (fun _ => rfl) hfw (if_neg ?_)
  rw [levelAllowed, reqPart] at h
  rw [State.rp]
  rcases hv : s.req.value with _ | _ | _ | v <;> simp [hv] at h ⊢ <;> exact h

theorem disarm_off (w : Watch) : w.disarm.itrig = .off ∧ ∀ e ∈ w.disarm.sbp ++ w.disarm.lbp ++ w.disarm.wps, e.2.trig = .off := by
  refine ⟨rfl, fun e he => ?_⟩
  simp only [Watch.disarm, List.mem_append, List.mem_map] at he
  obtain (⟨b, -, rfl⟩ | ⟨b, -, rfl⟩) | ⟨b, -, rfl⟩ := he <;> rfl

/-- Disarming a core's watch leaves its tile store. -/
theorem disarmed_tile (s : State) (m : Word) (hc : c < 64) : ((disarmed s m).core c).tile = (s.core c).tile := by
  rw [disarmed, core_onCores _ _ _ hc]
  split <;> rfl

/-- Level OFF disarms the partition's cores. -/
theorem levelOff_spec (hfw : s.fwStatus = .ok) (h : s.req.value = 0) :
    ∃ u, exec .debugLevelRequest s = .next u ∧ u.resp = ⟨.ok, []⟩ ∧ (u.part (reqPart s)).debug = 0
      ∧ ∀ c < 64, (s.part (reqPart s)).cores.getLsbD c = true → (u.core c).watch.itrig = .off
        ∧ ∀ e ∈ (u.core c).watch.sbp ++ (u.core c).watch.lbp ++ (u.core c).watch.wps, e.2.trig = .off := by
  have hp : reqPart s < 16 := Nat.mod_lt _ (by decide)
  refine ⟨_, debugLevelRequest_allowed hfw (.inl h), rfl, ?_, fun c hc hm => ?_⟩
  · rw [if_pos h, part_answer, disarmed, part_onCores, levelSet, State.part_onPart_same _ hp]
    exact h
  · rw [if_pos h, core_answer, disarmed, core_onCores _ _ _ hc, if_pos hm]
    exact disarm_off _

/-! ### Keys (R125) -/

/-- Clearing a tenant's frames changes the package store alone. -/
theorem clearTenant_keeps (s : State) (p : Nat) :
    (∀ c, (s.clearTenant p).core c = (s.onCores (s.part p).cores fun _ k => { k with tile := Memory.zero }).core c) ∧ ∀ q, (s.clearTenant p).part q = s.part q := by
  have hkeep : let u := s.onCores (s.part p).cores fun _ k => { k with tile := Memory.zero }
      (s.clearTenant p).cores = u.cores ∧ (s.clearTenant p).parts = u.parts := by
    refine List.foldlRecOn (motive := fun t : State => t.cores = _ ∧ t.parts = _) _ _ ⟨rfl, rfl⟩ fun t ht e _ => ?_
    split
    · exact ht
    · exact ht
  exact ⟨core_of_cores hkeep.1, fun q => (part_of_parts hkeep.2 q).trans (part_onCores _ _ _ q)⟩

theorem clearTenant_tile (s : State) (p : Nat) (hc : c < 64) (hm : (s.part p).cores.getLsbD c = true) : ((s.clearTenant p).core c).tile = Memory.zero := by
  rw [(clearTenant_keeps s p).1, core_onCores _ _ _ hc, if_pos hm]

theorem tenantKeyInstall_spec (hfw : s.fwStatus = .ok) :
    ∃ u, exec .tenantKeyInstall s = .next u ∧ u.resp = ⟨.ok, []⟩ ∧ (u.part (reqPart s)).key = true
      ∧ ∀ c < 64, (s.part (reqPart s)).cores.getLsbD c = true → (u.core c).tile = Memory.zero := by
  refine ⟨_, exec_ctl (i := .tenantKeyInstall) (fun _ => rfl) hfw rfl, rfl, ?_, fun c hc hm => clearTenant_tile s _ hc hm⟩
  rw [part_answer, State.rp, reqPart, State.part_onPart_same _ (Nat.mod_lt _ (by decide))]

/-- The removed key leaves the partition's level without its ground. -/
def levelFalls (s : State) : Bool := (s.part (reqPart s)).debug = 1 && !(s.vendor && (s.part (reqPart s)).grant)

/-- The partition without its key. -/
def keyRemoved (s : State) : State :=
  (s.clearTenant (reqPart s)).onPart (reqPart s) fun q => { q with key := false, debug := if levelFalls s then 0 else q.debug }

theorem tenantKeyRemove_spec (hfw : s.fwStatus = .ok) :
    ∃ u, exec .tenantKeyRemove s = .next u ∧ u.resp = ⟨.ok, []⟩ ∧ (u.part (reqPart s)).key = false
      ∧ ((s.part (reqPart s)).debug = 1 → ¬ (s.vendor = true ∧ (s.part (reqPart s)).grant = true) → (u.part (reqPart s)).debug = 0)
      ∧ ∀ c < 64, (s.part (reqPart s)).cores.getLsbD c = true → (u.core c).tile = Memory.zero := by
  have hp : reqPart s < 16 := Nat.mod_lt _ (by decide)
  have hrun : exec .tenantKeyRemove s = .next ((if levelFalls s then disarmed (keyRemoved s) ((keyRemoved s).part (reqPart s)).cores else keyRemoved s).answer .ok) :=
    exec_ctl (i := .tenantKeyRemove) (fun _ => rfl) hfw rfl
  have hpart : ∀ m, (if levelFalls s then disarmed (keyRemoved s) m else keyRemoved s).part (reqPart s) = (keyRemoved s).part (reqPart s) := fun m => by
    split
    · exact part_onCores _ _ _ _
    · rfl
  have hkey : (keyRemoved s).part (reqPart s) = { s.part (reqPart s) with key := false, debug := if levelFalls s then 0 else (s.part (reqPart s)).debug } := by
    rw [keyRemoved, State.part_onPart_same _ hp, (clearTenant_keeps s _).2]
  refine ⟨_, hrun, rfl, ?_, fun hd hg => ?_, fun c hc hm => ?_⟩
  · rw [part_answer, hpart, hkey]
  · rw [part_answer, hpart, hkey]
    exact if_pos (by simpa [levelFalls, hd] using not_and_or.mp hg)
  · have htile : ((keyRemoved s).core c).tile = Memory.zero := clearTenant_tile s _ hc hm
    rw [core_answer]
    split
    · exact (disarmed_tile _ _ hc).trans htile
    · exact htile

theorem vendorUnlockExit_spec (hfw : s.fwStatus = .ok) (hv : s.vendor = true) :
    ∃ u, exec .vendorUnlockExit s = .next u ∧ u.resp = ⟨.ok, []⟩ ∧ u.vendor = false ∧ u.pkg = Memory.zero
      ∧ (∀ c < 64, (u.core c).tile = Memory.zero ∧ (u.core c).watch.recs = []) ∧ ∀ p < 16, (u.part p).debug = 0 ∧ (u.part p).grant = false := by
  refine ⟨_, exec_ctl (i := .vendorUnlockExit) (fun _ => rfl) hfw (if_neg (by rw [hv]; decide)), rfl, rfl, rfl, fun c hc => ?_, fun p hp => ?_⟩
  · simp [State.core, State.answer, hc, Core.leaveVendor, Watch.clearTrace, Watch.disarm]
  · simp [State.part, State.answer, hp, Partition.leaveVendor]

/-! ### Attestation (R412, R413) -/

/-- The index after a signature. -/
def signed (s : State) : State :=
  if s.counter + 1 = 1024 then { s with fuses := s.fuses + 1, counter := 0 } else { s with counter := s.counter + 1 }

theorem signed_index (s : State) : 1024 * (signed s).fuses + (signed s).counter = 1024 * s.fuses + s.counter + 1 := by
  unfold signed
  split
  · dsimp only
    omega
  · rfl

theorem signed_cores (s : State) : (signed s).cores = s.cores := by
  unfold signed
  split <;> rfl

theorem attestationRequest_spec (hfw : s.fwStatus = .ok) (hlen : s.req.bytes.length = 32) (hi : 1024 * s.fuses + s.counter < 2 ^ 20) :
    ∃ u, exec .attestationRequest s = .next u ∧ u.resp.status = .ok ∧ 1024 * u.fuses + u.counter = 1024 * s.fuses + s.counter + 1
      ∧ u.resp.data.take 32 = s.req.bytes ∧ u.cores = s.cores := by
  refine ⟨_, exec_ctl (i := .attestationRequest) (fun _ => rfl) hfw ((if_neg (not_not.mpr hlen)).trans (if_neg (Nat.not_le.mpr hi))), rfl,
    signed_index s, ?_, signed_cores s⟩
  dsimp only [State.answer]
  rw [← hlen]
  simp only [List.append_assoc, List.take_left]

/-! ### Power states (R124, R414, R416) -/

/-- The limit that a power write leaves. -/
def newFmax (s : State) : Nat :=
  if 24 ≤ s.req.value / 2 ^ 16 % 2 ^ 8 ∧ s.req.value / 2 ^ 16 % 2 ^ 8 ≤ 36 then s.req.value / 2 ^ 16 % 2 ^ 8 else s.fmax

/-- The power state and the limit that a power write names. -/
def powered (s : State) : State := { s with pst := s.req.value % 8, fmax := newFmax s }

theorem putFmax_eq (s : State) : s.putFmax = { s with fmax := newFmax s } := by
  rw [State.putFmax, bf_eq_div, newFmax]
  simp only [Bool.and_eq_true, decide_eq_true_eq]

theorem pst_eq (v : Nat) : bf v 0 3 = v % 8 := by simp [bf_eq_div]

/-- With no agent held, leaving P3 changes nothing. -/
theorem leaveP3_none (h : s.held = []) : s.leaveP3 = s := by
  rw [State.leaveP3, h, List.foldl_nil, ← h]

theorem pwrSetActive_refused (hfw : s.fwStatus = .ok) (h : 5 ≤ s.req.value % 8 ∨ s.pst = 4) : refused .pwrSetActive s .powerState := by
  refine exec_ctl (i := .pwrSetActive) (fun _ => rfl) hfw (if_pos ?_)
  rw [pst_eq]
  simpa using h

theorem pwrSetActive_active (hfw : s.fwStatus = .ok) (hp : s.req.value % 8 ≤ 2) (h4 : s.pst ≠ 4) (hh : s.held = []) :
    doneAs .pwrSetActive s (powered s) := by
  refine exec_ctl (i := .pwrSetActive) (fun _ => rfl) hfw ?_
  dsimp only
  rw [pst_eq, if_neg (by simp [h4]; omega), if_neg (by omega), putFmax_eq]
  exact congrArg (State.answer · .ok) (leaveP3_none (s := powered s) hh)

theorem pwrEnterP3_refused (hfw : s.fwStatus = .ok) (hv : s.req.value % 8 = 3) (h : s.pst = 4 ∨ ∃ p < 16, busy s p) : refused .pwrEnterP3 s .powerState := by
  refine exec_ctl (i := .pwrEnterP3) (fun _ => rfl) hfw ((if_neg (by rw [pst_eq]; omega)).trans (if_pos ?_))
  simpa [List.any_eq_true, partBusy_iff] using h

/-- The module asleep in P3, with the halted agents that it holds. -/
def asleep (s : State) (held : List (Nat × Nat)) : State := { s.putFmax with pst := 3, held := held }

theorem asleep_port (s : State) (held : List (Nat × Nat)) (n : Nat) : ((asleep s held).answer .ok).port n = s.port n :=
  port_of_ports (by rw [State.answer, asleep, State.putFmax]) n

theorem pwrEnterP3_run (hfw : s.fwStatus = .ok) (hv : s.req.value % 8 = 3) (h4 : s.pst ≠ 4) (hidle : ∀ p < 16, ¬ busy s p) :
    ∃ v, exec .pwrEnterP3 s = .next ((asleep (portsDown v (List.range 16)) s.haltedAgents).answer .ok) := by
  have hgo : ¬ (s.pst = 4 || (List.range 16).any s.partBusy) = true := by
    simpa [List.any_eq_true, partBusy_iff, h4] using hidle
  exact ⟨_, exec_ctl (i := .pwrEnterP3) (fun _ => rfl) hfw ((if_neg (by rw [pst_eq]; omega)).trans (if_neg hgo))⟩

theorem pwrEnterP3_spec (hfw : s.fwStatus = .ok) (hv : s.req.value % 8 = 3) (h4 : s.pst ≠ 4) (hidle : ∀ p < 16, ¬ busy s p) :
    ∃ u, exec .pwrEnterP3 s = .next u ∧ u.resp = ⟨.ok, []⟩ ∧ u.pst = 3 ∧ ∀ n < 16, (u.port n).st = .down := by
  obtain ⟨v, hrun⟩ := pwrEnterP3_run hfw hv h4 hidle
  refine ⟨_, hrun, rfl, rfl, fun n hn => ?_⟩
  rw [asleep_port]
  exact (portsDown_st (fun i hi => List.mem_range.mp hi) v n).trans (if_pos (List.mem_range.mpr hn))

theorem pwrEnterP4_spec (hfw : s.fwStatus = .ok) (hv : s.req.value % 8 = 4) :
    ∃ u, exec .pwrEnterP4 s = .next u ∧ u.resp = ⟨.ok, []⟩ ∧ u.pst = 4 ∧ u.hbm = Memory.zero ∧ u.pkg = Memory.zero ∧ ∀ c < 64, (u.core c).tile = Memory.zero := by
  refine ⟨_, exec_ctl (i := .pwrEnterP4) (fun _ => rfl) hfw (if_neg (by rw [pst_eq]; omega)), rfl, rfl, rfl, rfl, fun c hc => ?_⟩
  rw [core_answer, core_enterP4 _ hc]
  rfl

theorem securityAndPower : SecurityAndPower := by
  intro s hfw
  refine ⟨debugLevelRequest_denied hfw, fun h h0 => ?_, levelOff_spec hfw, tenantKeyInstall_spec hfw, tenantKeyRemove_spec hfw, fun hv => ?_,
    vendorUnlockExit_spec hfw, fun hlen => ?_, fun hlen hi => ?_, fun hlen hi _ => attestationRequest_spec hfw hlen hi, fun h => pwrSetActive_refused hfw (.inl h),
    fun _ h => pwrSetActive_refused hfw (.inr h), pwrSetActive_active hfw, pwrEnterP3_refused hfw, pwrEnterP3_spec hfw, pwrEnterP4_spec hfw⟩
  · exact (debugLevelRequest_allowed hfw h).trans (by rw [if_neg h0]; rfl)
  · exact exec_ctl (i := .vendorUnlockExit) (fun _ => rfl) hfw (if_pos (by rw [hv]; rfl))
  · exact exec_ctl (i := .attestationRequest) (fun _ => rfl) hfw (if_pos hlen)
  · exact exec_ctl (i := .attestationRequest) (fun _ => rfl) hfw ((if_neg (not_not.mpr hlen)).trans (if_pos hi))

end

/-- Settles O52: the watch's commands, the reports of stops and hangs, the debug window, and the security and power commands each have
their lemma. -/
theorem watchSecurityPower : Obligations.WatchSecurityPower := ⟨watchCommands, watchReports, windowCommands, securityAndPower⟩

end Sys2Proof.Proofs
end
